-- ==== Sys2Proof/Word.lean ====
section
/-! DEFINITION. The word types of the BX7-A1 (Tables 0-4 and 0-5 of spec/00_scope.md) and the sparse map that holds every
large array of the device (memories, directory, context table, register file) as plain data. -/

namespace Sys2Proof

abbrev Byte := BitVec 8
abbrev Word := BitVec 32
/-- A 64-byte descriptor, little-endian, bit 0 first (R420). -/
abbrev Desc := BitVec 512
/-- A completion record, one 64-byte line (Table 17-4). -/
abbrev Record := BitVec 512
/-- An open-precision value, S1 E8 M15 (R73). -/
abbrev Op24 := BitVec 24

/-- Function id (Table 0-5). -/
abbrev FnId := Fin 64
/-- Physical core (Table 0-4). -/
abbrev CoreId := Fin 24
/-- Compute die, memory-side die. -/
abbrev DieId := Fin 4
/-- HBM4 stack. -/
abbrev StackId := Fin 24
/-- Fabric port P0 to P11. -/
abbrev PortId := Fin 12
/-- LLM partition. -/
abbrev PartId := Fin 64
/-- Command queue number (Table 14-1). -/
abbrev QueueId := Fin 1024

/-- A sparse map from natural keys: keys strictly rising and no entry equal to the default. -/
abbrev SMap (α : Type) := List (Nat × α)

namespace SMap

variable {α : Type}

/-- The value at a key; a key that is not listed reads as the default. -/
def get (d : α) : SMap α → Nat → α
  | [], _ => d
  | (k', v) :: m, k => if k' = k then v else get d m k

/-- Insert at the sorted place, replacing an entry of the same key. -/
def insert : SMap α → Nat → α → SMap α
  | [], k, v => [(k, v)]
  | (k', v') :: m, k, v =>
    if k < k' then (k, v) :: (k', v') :: m
    else if k = k' then (k, v) :: m
    else (k', v') :: insert m k v

/-- Remove a key. -/
def erase (m : SMap α) (k : Nat) : SMap α := m.filter (fun p => p.1 ≠ k)

/-- Write a value; writing the default removes the entry, so that equal contents are equal lists. -/
def put [DecidableEq α] (d : α) (m : SMap α) (k : Nat) (v : α) : SMap α :=
  if v = d then erase m k else insert m k v

/-- The canonical form: keys strictly rising, no default listed. -/
def wf [DecidableEq α] (d : α) (m : SMap α) : Bool :=
  decide (m.Pairwise (fun a b => a.1 < b.1)) && m.all (fun p => p.2 ≠ d)

end SMap

end Sys2Proof

namespace Sys2Proof.Machine

/-- An exact value of the number formats (R68): NaN, an infinity, or (-1)^neg × m × 2^e. A zero keeps its sign. -/
inductive Val where
  | nan
  | inf (neg : Bool)
  | num (neg : Bool) (m : Nat) (e : Int)
  deriving DecidableEq, Repr

end Sys2Proof.Machine
end

