-- ==== Sys2Proof/Syntax.lean ====
section
/-! DEFINITION. The commands of the block: one constructor per row of spec/opcode_table.json, in the table's order. A command
of a queue names its queue and carries its 64-byte descriptor (R420). What a step meets from the physical part (a parity
error, a training result, a sensor reading, a scrub's read-back) is an operand. -/

namespace Sys2Proof

/-- What the data-path checks find while an operation runs (R127, R129, R150, R175). -/
inductive RunErr where
  | none | mismatch | second | parity
  deriving DecidableEq, Repr

/-- A register window: the management role's, or one function's (R414). -/
inductive Window where
  | mgmt
  | fn (f : FnId)
  deriving DecidableEq, Repr

/-- The management orders of Table 1-4, in the rank of R21 (highest first). -/
inductive Order where
  | thermalTrip | quarantine | disableFunction | cellMapChange | thermalThrottle | powerCap | voltageTrim | scrub
  deriving DecidableEq, Repr

/-- What the companion, the dies and the stacks give a start-up (Table 19-4). -/
structure BootEnv where
  /-- Per stack: rate code of Table 9-6 at which training passed, 0 for a stack that failed at 2.0 Gb/s. -/
  hbmRates : List (BitVec 2)
  /-- Lanes spared per stack. -/
  hbmSpared : List Nat
  diesUp : Bool
  /-- SRAM tests that pass: bit k for core k, bit p for partition p; the context table, directory and IO0 together. -/
  sramCores : BitVec 24
  sramParts : BitVec 64
  sramTables : Bool
  storeReadable : Bool
  avsAnswers : Bool
  imageReadable : Bool
  identityUnsealed : Bool
  /-- V_req of each core from its active test, in mV, none for a failed test (R399). -/
  vReq : List (Option Nat)
  /-- Position and axis lengths minus one that the package announces, 6 bits per axis (log entry 13). -/
  pos : BitVec 30
  lenM1 : BitVec 30
  /-- Milliseconds from leaving power-on reset to READY. -/
  bootMs : Word
  deriving DecidableEq, Repr

/-- A fabric frame: header and payload (Table 11-2). -/
structure Frame where
  hdr : BitVec 128
  payload : List Byte
  deriving DecidableEq, Repr

/-- The commands of the BX7-A1 (rows of the opcode table). -/
inductive Instr where
  -- vector class (Table 3-7); `parity`: an operand-bus parity error strikes (R102)
  | convert (q : QueueId) (d : Desc) (parity : Bool)
  | add (q : QueueId) (d : Desc) (parity : Bool)
  | sub (q : QueueId) (d : Desc) (parity : Bool)
  | mul (q : QueueId) (d : Desc) (parity : Bool)
  | vectorMax (q : QueueId) (d : Desc) (parity : Bool)
  | vectorMin (q : QueueId) (d : Desc) (parity : Bool)
  | axpy (q : QueueId) (d : Desc) (parity : Bool)
  | exp (q : QueueId) (d : Desc) (parity : Bool)
  | recip (q : QueueId) (d : Desc) (parity : Bool)
  | rsqrt (q : QueueId) (d : Desc) (parity : Bool)
  | act (q : QueueId) (d : Desc) (parity : Bool)
  | rowOp (q : QueueId) (d : Desc) (parity : Bool)
  | rowReduce (q : QueueId) (d : Desc) (parity : Bool)
  | rowNorm (q : QueueId) (d : Desc) (parity : Bool)
  | normStats (q : QueueId) (d : Desc) (parity : Bool)
  | adam (q : QueueId) (d : Desc) (parity : Bool)
  | routeTopk (q : QueueId) (d : Desc) (parity : Bool)
  -- matrix engines and tiles
  | matrixOperation (q : QueueId) (d : Desc)
  | vectorEntry (core : CoreId) (me : Fin 2) (cycle dataCycle : Nat) (err : RunErr)
  | stationaryRowWrite (core : CoreId) (me : Fin 2) (bank : Fin 2) (row : Fin 512) (cycle : Nat) (parity : Bool)
  | close (core : CoreId) (me : Fin 2) (slot : Fin 32) (second : Bool)
  | operationRetire (q : QueueId) (opId : BitVec 16)
  | trussSum (q : QueueId) (d : Desc)
  | trussMax (q : QueueId) (d : Desc)
  | trussMin (q : QueueId) (d : Desc)
  | maxIdx (q : QueueId) (d : Desc)
  | minIdx (q : QueueId) (d : Desc)
  | trussLeafRead (q : QueueId) (opId : BitVec 16) (leaf : Fin 40) (err : RunErr)
  -- tenon engine
  | down (q : QueueId) (d : Desc) (err : RunErr)
  | up (q : QueueId) (d : Desc) (err : RunErr)
  | downT (q : QueueId) (d : Desc) (err : RunErr)
  | upT (q : QueueId) (d : Desc) (err : RunErr)
  | wgradA (q : QueueId) (d : Desc) (err : RunErr)
  | wgradB (q : QueueId) (d : Desc) (err : RunErr)
  | joinTimeout (q : QueueId) (opId : BitVec 16)
  -- memory; `bad`: 64-byte bursts whose read fails, with the number of failing reads (R231)
  | moveOperation (q : QueueId) (d : Desc) (bad : List (Nat × Nat))
  | rowRepair (addr : BitVec 44) (failed : List (Fin 16))
  | pageReplacement (page : Nat)
  -- collectives
  | reduce (q : QueueId) (d : Desc)
  | shardGather (q : QueueId) (d : Desc)
  | stageSend (q : QueueId) (d : Desc)
  | scarf (q : QueueId) (d : Desc)
  | scarfRound (f : FnId)
  | beatWait (q : QueueId) (d : Desc)
  -- control, beat and health
  | loadPlan (q : QueueId) (d : Desc)
  | loadClass (q : QueueId) (d : Desc)
  | setSeed (q : QueueId) (d : Desc)
  | setMode (q : QueueId) (d : Desc)
  | setWatch (q : QueueId) (d : Desc)
  | writeWatch (q : QueueId) (d : Desc)
  | readWatch (q : QueueId) (d : Desc)
  | rollHistory (q : QueueId) (d : Desc)
  | loadHistory (q : QueueId) (d : Desc)
  -- control, memory
  | configurePartition (q : QueueId) (d : Desc)
  | setWindow (q : QueueId) (d : Desc)
  | retireSlot (q : QueueId) (d : Desc)
  | slotDrained (f : FnId) (slot : Fin 8)
  | claim (q : QueueId) (d : Desc)
  | share (q : QueueId) (d : Desc)
  | unshare (q : QueueId) (d : Desc)
  | release (q : QueueId) (d : Desc)
  | readDirectory (q : QueueId) (d : Desc)
  | pageLeavesOwner (page : Nat)
  | pageScrub (page : Nat) (clean : Bool)
  | directoryChangeApply (die : DieId)
  -- frames and contexts
  | defineFrame (q : QueueId) (d : Desc)
  | frameDigest (frame : BitVec 8)
  | configureContext (q : QueueId) (d : Desc)
  | activate (q : QueueId) (d : Desc)
  | beginTraining (q : QueueId) (d : Desc)
  | endTraining (q : QueueId) (d : Desc)
  | relocate (q : QueueId) (d : Desc)
  | promote (q : QueueId) (d : Desc)
  | probeCheck (q : QueueId) (d : Desc)
  | releaseContext (q : QueueId) (d : Desc)
  | contextScrub (ctx : BitVec 16) (clean : Bool)
  | readContext (q : QueueId) (d : Desc)
  | replaceFrame (q : QueueId) (d : Desc)
  | layerSwap (frame : BitVec 8)
  | drainLimitExpiry (f : FnId)
  | passBegin (q : QueueId) (d : Desc)
  | passEnd (q : QueueId) (d : Desc)
  | setSwapPolicy (q : QueueId) (d : Desc)
  | measureFrame (q : QueueId) (d : Desc)
  -- jobs
  | setJobMap (q : QueueId) (d : Desc)
  | jobReg (src : BitVec 16) (msg : BitVec 128)
  | setStageQueue (q : QueueId) (d : Desc)
  | stageFree (q : QueueId) (d : Desc)
  | saveCheckpoint (q : QueueId) (d : Desc)
  | restoreCheckpoint (q : QueueId) (d : Desc)
  | setEpochPair (q : QueueId) (d : Desc)
  | reportReady (q : QueueId) (d : Desc)
  -- functions
  | createFunction (q : QueueId) (d : Desc)
  | resize (q : QueueId) (d : Desc)
  | resizeEffect (f : FnId)
  | resizeLapsed (f : FnId)
  | freeze (q : QueueId) (d : Desc)
  | thaw (q : QueueId) (d : Desc)
  | restore (q : QueueId) (d : Desc)
  | disable (q : QueueId) (d : Desc)
  | drainBeatsExpiry (f : FnId)
  | functionScrubbing (f : FnId)
  | functionOff (f : FnId)
  | readCounters (q : QueueId) (d : Desc)
  | bindFrame (q : QueueId) (d : Desc)
  | unbind (q : QueueId) (d : Desc)
  | setMortiseRange (q : QueueId) (d : Desc)
  | setAperture (q : QueueId) (d : Desc)
  | extension (q : QueueId) (d : Desc)
  | setQueue (q : QueueId) (d : Desc)
  | setCoalesce (q : QueueId) (d : Desc)
  | setEventVector (q : QueueId) (d : Desc)
  -- security
  | report (q : QueueId) (d : Desc)
  | channelOpen (q : QueueId) (d : Desc)
  | channelMessage (q : QueueId) (d : Desc)
  | memKey (f : FnId) (key : BitVec 512)
  | imageKey (f : FnId) (key : BitVec 256)
  | linkKey (f : FnId) (job : Word) (activation : BitVec 64) (key : BitVec 256)
  | linkDrop (f : FnId) (job : Word) (slot : Fin 4)
  | confidential (f : FnId)
  | closeSession (f : FnId)
  | sessionExpiry (f : FnId)
  | getCertificates (q : QueueId) (d : Desc)
  | measureRegion (q : QueueId) (d : Desc)
  | unmeasure (q : QueueId) (d : Desc)
  | rotateKey (q : QueueId) (d : Desc)
  | keySweepPage (page : Nat)
  -- power and stacks
  | setCap (q : QueueId) (d : Desc)
  | setPowerGroup (q : QueueId) (d : Desc)
  | pwrSlack (msg : BitVec 256)
  | pwrShift (job : Word) (offset : BitVec 12)
  | retrainStack (q : QueueId) (d : Desc) (rate : BitVec 2) (spared : Nat)
  | marginSweep (q : QueueId) (d : Desc) (width height : Byte) (rate : BitVec 2) (spared : Nat)
  | coreSelfTest (q : QueueId) (d : Desc) (pass : Bool)
  -- queues and the Darlek link
  | tailWrite (q : QueueId) (tail : Word)
  | cplHeadWrite (q : QueueId) (index : Word)
  | coalesceTimer (q : QueueId)
  | companionLineWrite (addr : BitVec 43) (data : BitVec 512)
  | snoop (addr : BitVec 43)
  | flit (port : Fin 2) (ok : Bool)
  | darlekLinkLoss
  -- the beat and its plan events; `idx` is the event's record index in the active plan
  | beatEdge
  | releaseEvent (f : FnId) (idx : Nat)
  | collectiveEvent (f : FnId) (idx : Nat)
  | moveEvent (f : FnId) (idx : Nat)
  | commitEvent (f : FnId) (idx : Nat)
  | powerRamp (f : FnId) (idx : Nat)
  | shim (f : FnId) (idx : Nat)
  | resizeEvent (f : FnId) (idx : Nat)
  | deadline (f : FnId) (idx : Nat)
  | coreMove (f : FnId) (idx : Nat)
  | plannedMoveComplete (core : CoreId)
  | reduceTimeout (q : QueueId) (opId : BitVec 16)
  -- beat messages (Table 11-5); `arrival` is the arrival of the first symbol in 62.5 ps units
  | sync (port : PortId) (msg : BitVec 256) (arrival : Nat)
  | syncSend (departure : Nat)
  | epoch (port : PortId) (msg : BitVec 256)
  | holdReq (msg : BitVec 256)
  | holdGrant (port : PortId) (msg : BitVec 256)
  | ready (msg : BitVec 256)
  | vote (msg : BitVec 256)
  | decisionEcho (src : BitVec 16) (job : Word) (step : BitVec 64)
  | echoTimeout (job : Word)
  | commit (port : PortId) (msg : BitVec 256)
  | abort (port : PortId) (msg : BitVec 256)
  | decideLost (f : FnId)
  | holdover
  | backupTakeover
  | cadInPulse (offset : Int)
  | cadInMissing
  | delay (port : PortId) (sent received turnaround : Nat)
  | delayRemeasure (port : PortId) (now : Nat)
  -- fabric
  | lctrl (port : PortId) (payload : BitVec 256)
  | lctrlSend (port : PortId)
  | hello (port : PortId) (payload : BitVec 512)
  | helloSend (port : PortId)
  | portTraining (port : PortId) (low high : Bool)
  | portRetry (port : PortId)
  | fabricLinkLost (port : PortId)
  | data (port : PortId) (fr : Frame)
  | redWindow (port : PortId) (fr : Frame)
  | redPartial (port : PortId) (fr : Frame) (adderFault : Bool)
  | redResult (port : PortId) (fr : Frame)
  | redResend (port : PortId) (fr : Frame)
  -- package management
  | managementOrderEffect (core : CoreId) (order : Order)
  | cellMapChange
  | coreScrub (core : CoreId) (clean : Bool)
  | governorStep (core : CoreId) (demand : Fin 17)
  | dieSensorRead (die : Fin 10) (temp0 temp1 : Byte)
  | stackTemperatureRead (stack : StackId) (temp : Byte)
  | telemetryCalibration (power : BitVec 12) (reserved : BitVec 12)
  | ageingMonitorRead (core : CoreId) (drift : Int) (leakage : BitVec 16)
  | marginPlan (die : DieId)
  | activeTest (core : CoreId) (vReq : Option Nat)
  | testDue (core : CoreId) (overdue : Nat)
  | pohRecord
  | calibrationRecordWrite (type scope : BitVec 16) (payload : List Byte) (readsBack : Bool)
  | storeCompaction
  | avsRetry (rail : DieId) (acked : Bool)
  -- supplies, reset, start-up
  | powerOnReset (lanes0 lanes1 : Fin 3) (straps : BitVec 2)
  | railLoss (rail : Fin 19)
  | devRstN (lanes0 lanes1 : Fin 3)
  | refclkStop (clock : Fin 4)
  | refclkReturn (clock : Fin 4)
  | go (env : BootEnv)
  | warm (key : Byte) (lanes0 lanes1 : Fin 3)
  | pkcFailure
  -- registers; `off` is the window offset (R458)
  | errClear (w : Window) (off : BitVec 26)
  | irqStatWrite (w : Window) (off : BitVec 26) (v : Word)
  | lock (w : Window) (off : BitVec 26) (v : Word)
  | rcRead (w : Window) (off : BitVec 26)
  | lowWordRead (w : Window) (off : BitVec 26)
  | apply
  | cmapOrder (v : Word)
  | chipIdWrite (v : Word)
  | epochEdgeWrite (v : Word)
  | beatCfgWrite (v : Word)
  | planCtrlStart (v : Word)
  | marginCtrlStart (stack : StackId) (v : Word) (width height : Byte)
  | portRetrain (port : PortId) (v : Word)
  | govCfgWrite (v : Word)
  | rdSeqWrite (w : Window) (v : Word)
  | registerWrite (w : Window) (off : BitVec 26) (bytes : Nat) (v : BitVec 64)
  -- SMBus and test access port
  | getState
  | getThermal
  | getPower
  | getEvents
  | mctpControl (command : Byte) (eid : Byte)
  | bypass
  | idcode
  | samplePreload (boundary : BitVec 64)
  | extest
  -- later rows
  | decisionMessage (src : BitVec 16) (job : Word) (step : BitVec 64) (isCommit : Bool) (cause : Byte) (aborts : Byte) (final : Bool)
  | darlekPortLoss (port : Fin 2) (lanes : Fin 3)
  | droppedFrame (port : PortId) (fr : Frame) (crcOk : Bool)
  | partitionScrub (part : PartId) (clean : Bool)
  deriving DecidableEq, Repr

end Sys2Proof
end

