-- ==== Sys2Proof/Decode.lean ====
section
/-! DEFINITION. The words of the opcode table. spec/opcode_table.json gives its rows no bits: the commands of this block are
spelled by descriptors, lines, frames and pins, not by instruction words, so no word spells a command. -/

namespace Sys2Proof

/-- The command that a word spells by the table's bits: the table gives no row bits, so there is none. -/
def decodeTableWord (_nbits _w : Nat) : Option Instr := none

end Sys2Proof
end

