-- ==== Sys2Proof/Config.lean ====
section
/-! DEFINITION. What the manual leaves open or takes from other standards, as constants without a body: no proof can see a
value of them, so a claim about the model holds whatever they are. Each is named in the assumption log. -/

namespace Sys2Proof.Config

/-- A value the manual leaves open, fresh at each index (log entry 1). UNVERIFIED: free value. -/
opaque freeValue : Nat → Nat

/-- SHAKE256 (FIPS 202) over a byte string, the given number of output bits (R353); log entry 2. -/
opaque shake256 : List (BitVec 8) → Nat → Nat

/-- AES-256-XTS encryption of one 512-byte data unit under a key and tweak (R358); log entry 2. -/
opaque xtsEncrypt : Nat → Nat → List (BitVec 8) → List (BitVec 8)

/-- AES-256-XTS decryption of one data unit (R358); log entry 2. -/
opaque xtsDecrypt : Nat → Nat → List (BitVec 8) → List (BitVec 8)

/-- AES-256-GCM sealing: key, nonce, additional data, plaintext; ciphertext with its 16-byte tag (R357, R362, R366). -/
opaque gcmSeal : Nat → Nat → List (BitVec 8) → List (BitVec 8) → List (BitVec 8)

/-- AES-256-GCM opening: none where the tag fails (R357, R362, R366). -/
opaque gcmOpen : Nat → Nat → List (BitVec 8) → List (BitVec 8) → Option (List (BitVec 8))

/-- ML-KEM-1024 encapsulation key of a decapsulation key (FIPS 203, R355). -/
opaque kemPublic : Nat → List (BitVec 8)

/-- ML-KEM-1024 decapsulation: key and ciphertext to the shared secret (R356). -/
opaque kemDecaps : Nat → List (BitVec 8) → Nat

/-- Falcon-1024 signature of a digest by the package's identity key, with the signer's fresh randomness (R349, R352). -/
opaque falconSign : Nat → Nat → List (BitVec 8)

/-- Falcon-1024 verification of a signature over a digest under the firmware public key (R451). -/
opaque falconVerify : Nat → List (BitVec 8) → Bool

/-- The certificate chain's bytes, each certificate preceded by its length (R350). -/
opaque certificates : List (BitVec 8)

/-- The 64-bit fused serial number (R350, R374). -/
opaque serial : BitVec 64

/-- The stage a margin plan reads: millivolts of the die's slope for a core and a shortest passing period (R399). -/
opaque slopeVreq : Nat → Nat → Nat

/-- Draw of one function at a core: the power in watts estimated from its activity at a level (R383). -/
opaque drawEstimate : Nat → Nat → Nat

/-- ACT of minus infinity by FUNC, as an FP32 code: the manual states no value there (R97); log entry 8. -/
opaque actNegInf : Nat → Nat

/-- Bytes of the tile exponent map of a watch entry, whose extent the manual does not give (R187, R199); log entry 35. -/
opaque mapBytes : Nat → Nat

/-- Claim of an admitted serving class on a resource of Table 2-6, which the manual does not give (R65); log entry 42. -/
opaque classClaim : BitVec 256 → Nat → Nat

/-- Chip id of the package at a position, and position of a chip, of packages that are no neighbours: how a package learns them the
manual does not say (R265); log entry 12. -/
opaque chipAt : Nat → BitVec 16

opaque posOf : Nat → BitVec 30

end Sys2Proof.Config
end

