-- ==== Sys2Proof/Machine/State.lean ====
section
/-! DEFINITION. The state of the block as plain data: every register, memory, queue, counter, mode and pin the manual gives
the BX7-A1, the queue of waiting commands, and the state right after reset. INVENTORY.md lists each piece with its rule. -/

namespace Sys2Proof.Machine

/-- Names an operation: its queue, and the number the model gave it when its descriptor was read, since two outstanding operations of a
queue may carry one OP_ID. -/
abbrev OpRef := QueueId × Nat

/-- Where an outstanding operation stands (R422): read by the watcher, held before issue, in flight, results stored. -/
inductive OpStage where
  | dispatched | held | inflight | stored
  deriving DecidableEq, Repr

/-- An outstanding operation. -/
structure Op where
  queue : QueueId
  /-- Number among all operations read so far. -/
  num : Nat
  desc : Desc
  fn : FnId
  stage : OpStage
  /-- STATUS, CAUSE, COUNT and DETAIL of the record it will write (Table 17-4). -/
  status : Nat
  cause : Nat
  count : Nat
  detail : Nat
  /-- Source ranges held under R124: memory key and length. -/
  holds : List (Nat × Nat)
  /-- Pages whose REF it holds (R205). -/
  pages : List Nat
  /-- Pages it holds in FILL (R205). -/
  fills : List Nat
  /-- Pages whose directory change its completion waits for (R207). -/
  lag : List Nat
  /-- Contexts whose REFS it holds (R156). -/
  ctxs : List Nat
  /-- Slots it still has to close or to read: engine instance 2k + e, slot. -/
  slots : List (Nat × Nat)
  /-- Slots it added to, whose closing ends its holds (R124). -/
  added : List (Nat × Nat)
  /-- Leaf rows a truss operation has read: leaf, rows (R150). -/
  leaves : List (Nat × List (List Op24))
  /-- Truss repeats after parity (R150). -/
  retries : Nat
  /-- Beat at which the watcher read the descriptor (R424), and beat at issue. -/
  readBeat : Nat
  issued : Nat
  /-- Plan event that governs a collective (R320). -/
  event : Option Nat
  /-- The watch entry as it stood at issue, none where the operation is not watched (R180). -/
  entry : Option (BitVec 1024)
  deriving DecidableEq, Repr

/-- Source ranges of a retired operation, held until the slots it added to have closed (R124). -/
structure Held where
  fn : FnId
  ranges : List (Nat × Nat)
  added : List (Nat × Nat)
  /-- The INIT range among them, length 0 for none: a close of the same slots may write it. -/
  init : Nat × Nat
  deriving DecidableEq, Repr

/-- A command queue (Table 17-1). -/
structure Queue where
  record : BitVec 512
  set : Bool
  stopped : Bool
  head : Word
  tail : Word
  cplIndex : Word
  cplHead : Word
  /-- Records that wait for ring space (R425). -/
  waiting : List Record
  /-- Records with IRQ set since the last interrupt message, and whether the timer runs (R427). -/
  irqPending : Nat
  timer : Bool
  /-- Event whose collectives the queue issues now (R320). -/
  event : Option Nat
  /-- Tags whose late event was skipped before their beat-wait was read, oldest first (R51, log entry 66). -/
  skips : List Nat
  /-- Open serving pass: frame, generation, cursor + 1, swap policy seen (R252). -/
  pass : Option (Nat × Nat × Nat)
  /-- An open sequence of a frame: frame and generation of its first pass (R252). -/
  sequence : Option (Nat × Nat)
  /-- Arrival of the open request: serving class, beat stamp, passes ended (R424). -/
  request : Option (Nat × Nat × Nat)
  deriving DecidableEq, Repr

inductive SlotState where
  | free | opened | closing
  deriving DecidableEq, Repr

/-- A result row that has reached a slot: its operation, segment, operation row and 512 segment sums (R109, R139). -/
structure Arrival where
  op : OpRef
  seg : Nat
  row : Nat
  sums : List Val
  mismatch : Bool
  deriving DecidableEq, Repr

/-- An accumulator tile slot (R131): 64 rows × 512 columns of OP24. -/
structure Slot where
  st : SlotState
  /-- Projected state after every operation issued so far, with the projected segment count, row count and column width of the
  opener (R133). -/
  projOpen : Bool
  segs : Nat
  rows : Nat
  width : Nat
  mismatch : Bool
  vals : List (List Op24)
  /-- Operations that open the slot anew once it is free, and truss operations that read what they leave, in issue order (R139). -/
  openers : List OpRef
  /-- Operation that closes the present contents. -/
  closer : Option OpRef
  /-- Result rows of later operations, held until the slot has been read (R139). -/
  arrivals : List Arrival
  deriving DecidableEq, Repr

/-- A stationary bank (R103, R116): its block in the engine-ready layout, rows and scale rows as little-endian numbers, with
the check column and the check row (R126). -/
inductive Bank where
  | empty
  | block (pairing fmt plank : Nat) (rows scales check checkRow : List Nat)
  deriving DecidableEq, Repr

/-- A pass of an operation whose vectors still have to enter (R109 to R114). -/
structure Pass where
  op : OpRef
  seg : Nat
  bank : Fin 2
  interval : Nat
  left : Nat
  total : Nat
  loads : Bool
  fp32 : Bool
  trans : Bool
  /-- Pairing (Table 4-1): 0 narrow, 1 byte, 2 half, 3 single. -/
  pairing : Nat
  deriving DecidableEq, Repr

/-- A matrix engine (R103 to R130). -/
structure Me where
  bank0 : Bank
  bank1 : Bank
  slots : SMap Slot
  passes : List Pass
  /-- Slots that are ready for their close, in the order they became ready (R134). -/
  ready : List Nat
  /-- Entry cycle of the last vector plus one (0: none) and its interval (R104, R114). -/
  lastEntry : Nat
  lastInterval : Nat
  /-- Per bank: cycle after the last vector that read it (u + 1); cycle after the first row write of a load whose pass has not
  entered, 0 for none; rows written; cycle after the last row write. -/
  lastRead0 : Nat
  lastRead1 : Nat
  staged0 : Nat
  staged1 : Nat
  rows0 : Nat
  rows1 : Nat
  lastWrite0 : Nat
  lastWrite1 : Nat
  deriving DecidableEq, Repr

/-- An UP or UP_T operation that waits for the matrix operation of its tag (R164), with its contributions (R160). -/
structure TenonJoin where
  op : OpRef
  tag : Nat
  trans : Bool
  block : Nat
  /-- First batch row of the joined operation, first covered batch row and covered rows (R161). -/
  rowBase : Nat
  firstRow : Nat
  rows : Nat
  /-- Batch row of the contribution in forming which a mismatch was recorded (R175). -/
  mismatch : Option Nat
  /-- A parity error strikes the operation after it has been joined (R175). -/
  parity : Bool
  /-- Batch row and its 512 contributions, for each row of a group that contributes. -/
  contrib : List (Nat × List Op24)
  deriving DecidableEq, Repr

/-- A tenon engine (R151). -/
structure Te where
  bank0 : Option Nat
  bank1 : Option Nat
  tile : List (List Op24)
  unjoined : List TenonJoin
  /-- Joined operations with the matrix operation that took them, in issue order (R164). -/
  joined : List (OpRef × TenonJoin)
  singleRow : Bool
  deriving DecidableEq, Repr

inductive CellState where
  | inService | eligible | ineligible | quarantined
  deriving DecidableEq, Repr

/-- A physical core's cell-map entry (Table 20-5) and its governor (R377 to R379). -/
structure Cell where
  st : CellState
  owner : Option FnId
  logical : Nat
  movePending : Bool
  /-- Destination of a planned move in progress (R27). -/
  moveTo : Option CoreId
  /-- The copy of the planned move is complete (R27). -/
  moveDone : Bool
  /-- An active test is due (R399). -/
  testDue : Bool
  scrubbing : Bool
  /-- State that the core takes at a beat boundary (R24), or after its planned move (R402). -/
  nextSt : Option CellState
  /-- A quarantine is ordered; its work has ended once nextSt names the state, which the map takes at a beat boundary (R24, R28). -/
  quarantining : Bool
  /-- Function and logical number that the core is to carry from the next beat boundary on (R24). -/
  taking : Option (FnId × Nat)
  hoursSinceTest : Nat
  level : Nat
  target : Nat
  capCeiling : Nat
  /-- Thermal ceiling in force on the core's engines (R394). -/
  thermal : Nat
  vReq : Nat
  drift : Int
  leakage : BitVec 16
  temp0 : Byte
  temp1 : Byte
  /-- A boot SRAM test failed (Table 19-4). -/
  testFailed : Bool
  deriving DecidableEq, Repr

/-- A die controller's readings and settings. Dies 0 to 3 are C0 to C3, 4 to 7 M0 to M3, 8 and 9 IO0 and IO1. Voltages are in
0.1 mV. -/
structure Die where
  temp : Byte
  thermalCeiling : Nat
  /-- Readings since the ceiling last changed (R394). -/
  sinceCeiling : Nat
  throttling : Bool
  tripped : Bool
  vcore : Nat
  guard : Nat
  /-- GUARD that takes effect at the next beat boundary (R398). -/
  nextGuard : Option Nat
  /-- A drift alarm since the last plan (R401). -/
  alarmed : Bool
  planRunning : Bool
  /-- Set point last requested and last acknowledged (R447), and 2^PERIOD summed over beats since VCORE was last lowered (R403). -/
  requested : Nat
  acked : Nat
  sinceStep : Nat
  deriving DecidableEq, Repr

/-- One HBM4 stack (R227 to R241). -/
structure Stack where
  rate : BitVec 2
  inService : Bool
  spared : Nat
  temp : Byte
  /-- 0 1×, 1 2×, 2 4×, 3 throttled (Table 9-6). -/
  refresh : Nat
  /-- Row (offset bits [35:16], then channel and pseudo-channel) to its repair state: 1 pool 1, 2 pool 2, 3 pool 2 after pool 1. -/
  repairs : SMap Nat
  deriving DecidableEq, Repr

/-- An LLM partition (R197). -/
structure Part where
  owner : Option FnId
  /-- 0 SCRATCH, 1 CACHE_HBM, 2 CACHE_COMP, 3 CACHE_TENON. -/
  mode : Nat
  failed : Bool
  /-- It waits for its leaving scrub (R372). -/
  scrubbing : Bool
  deriving DecidableEq, Repr

/-- A slot of the streaming window (R216, R217). -/
structure WSlot where
  mask : Nat
  /-- 0 EMPTY, 1 FILLING, 2 READY, 3 DRAINING. -/
  st : Nat
  layer : Nat
  /-- The WLAST move has completed. -/
  lastSeen : Bool
  /-- Rows whose fill faulted and that no later fill has rewritten (R233): address and bytes. -/
  faulted : List (Nat × Nat)
  /-- The fill saw a refetch or a remap (Table 8-9, WIN_LATE_FETCH). -/
  late : Bool
  deriving DecidableEq, Repr

structure Aperture where
  base : Nat
  units : Nat
  read : Bool
  write : Bool
  tiered : Bool
  enable : Bool
  deriving DecidableEq, Repr

/-- An event of a plan that has not started: its record, the plan beat at which it falls due, counted over all periods, the beat of
the last request for hold beats, and whether one was refused (R50, R59, R61). -/
structure Due where
  idx : Nat
  beat : Nat
  asked : Option Nat
  refused : Bool
  deriving DecidableEq, Repr

/-- An admitted beat plan (R47 to R52). -/
structure Plan where
  header : BitVec 512
  events : List (BitVec 256)
  /-- Device address of the device's copy (R47, R199). -/
  copy : Nat
  /-- Its clock runs; and its plan beat 0 has begun, which a thaw resumes from where it stood (R341). -/
  running : Bool
  begun : Bool
  /-- Present plan beat, counted over all periods. -/
  clock : Nat
  /-- Events that have not started, the earlier periods' first, in record order. -/
  waiting : List Due
  skips : Nat
  overruns : Nat
  deriving DecidableEq, Repr

/-- One end of a stage queue (R290, R291). -/
structure StageQ where
  record : BitVec 256
  credits : Nat
  nextMb : Nat
  /-- Messages that have arrived and are not freed. -/
  held : List Nat
  deriving DecidableEq, Repr

/-- A scarf in progress (R297). -/
structure Scarf where
  op : OpRef
  desc : Desc
  round : Nat
  /-- Incoming pieces already written, of this round. -/
  written : List Nat
  /-- Every round is complete and the READY has been sent. -/
  done : Bool
  deriving DecidableEq, Repr

/-- A decision on a step (Table 13-2). -/
structure Decision where
  isCommit : Bool
  step : BitVec 64
  cause : Byte
  aborts : Byte
  final : Bool
  deriving DecidableEq, Repr

structure JobState where
  /-- The job map in force, 0 for none, and one that waits for the boundary (R281). -/
  map : BitVec 512
  pendingMap : Option (BitVec 512)
  /-- JOB_STATE: 0 none, 1 mapped, 2 scarf running, 3 BROKEN. -/
  st : Nat
  /-- Restore clears BROKEN only after a set-job-map (R298). -/
  remapped : Bool
  /-- Tag slots written in this step: the 16-byte tag with bit 128 set (R285). -/
  tags : SMap Nat
  stages : SMap (Option StageQ)
  scarf : Option Scarf
  /-- A save that waits for the step boundary (R299). -/
  save : Option (OpRef × Desc)
  ckptStep : BitVec 64
  /-- Ports of the topology in force, bit p for Pp (R273). -/
  topo : Nat
  deriving DecidableEq, Repr

structure StepState where
  /-- State epoch E (R321). -/
  epoch : Bool
  pairs : List (Nat × Nat × Nat)
  /-- Committed step S. -/
  step : BitVec 64
  fail : Bool
  /-- READY or vote sent, decision not applied (R330). -/
  sent : Bool
  /-- An operation was issued in the open step (R321, R340). -/
  issued : Bool
  decision : Option Decision
  aborts : Nat
  lastCause : Nat
  /-- Beat of the COMMIT event of the open step, once it has come (R329). -/
  commitBeat : Option Nat
  /-- The READY of the open step has been sent (R329). -/
  ready : Bool
  /-- Contexts whose end-training waits for the boundary (R248). -/
  ending : List Nat
  deriving DecidableEq, Repr

/-- The attested channel of a function (R355 to R357). -/
structure Session where
  id : Nat
  decapKey : Nat
  digest : Nat
  opened : Bool
  toDevice : Nat
  toTenant : Nat
  /-- Last accepted COUNTER plus one. -/
  counter : Nat
  beat : Nat
  deriving DecidableEq, Repr

structure SecState where
  keyGen : Word
  key0 : Nat
  key1 : Nat
  sweep : Bool
  imageKey : Option Nat
  stagedKey : Option Nat
  session : Option Session
  confidential : Bool
  /-- Measured regions: index to memory key and length; a scratchpad region lies at 2^45 + logical core × 2^24 + offset (R353). -/
  measured : SMap (Nat × Nat)
  deriving DecidableEq, Repr

/-- An accepted resize (R337). -/
structure Resize where
  op : OpRef
  record : BitVec 4096
  tag : BitVec 16
  effect : BitVec 64
  deriving DecidableEq, Repr

structure FreezeState where
  op : OpRef
  base : Nat
  hbmCopy : Bool
  beat : Nat
  planBeat : Nat
  openSlots : Nat
  key : Option Nat
  deriving DecidableEq, Repr

inductive FnState where
  | off | running | draining | aborting | freezing | frozen | scrubbing
  deriving DecidableEq, Repr

/-- A slice in a tenon cache: context, layer, target or 8 + mortise, device address and bytes (R167). -/
structure Slice where
  ctx : Nat
  layer : Nat
  key : Nat
  addr : Nat
  bytes : Nat
  deriving DecidableEq, Repr

/-- A function (R332 to R348). -/
structure Fn where
  st : FnState
  /-- The resource record (R335). -/
  record : BitVec 4096
  seed : BitVec 64
  tileStrict : Bool
  frames : List Nat
  serving : Option Nat
  swapCut : Bool
  drainLimit : Nat
  /-- Mortise ranges: frame to MORT_BASE and MORT_COUNT (R170). -/
  mortises : SMap (Nat × Nat)
  apertures : SMap Aperture
  coalesceCount : Nat
  coalesceTime : Nat
  eventAddr : Nat
  eventData : Word
  active : Option Plan
  pendingPlan : Option Plan
  classes : SMap (BitVec 256)
  /-- Watch table: partition, offset, entries (R177). -/
  watch : Option (Nat × Nat × Nat)
  window : List WSlot
  /-- Lines in the cache partitions, most recent first: address (R200). -/
  lines : List Nat
  /-- Slices in the tenon cache, most recent first (R167). -/
  slices : List Slice
  job : JobState
  step : StepState
  sec : SecState
  resize : Option Resize
  freeze : Option FreezeState
  /-- Beat at which a drain gives way to abort, and the disable's operation (R343). -/
  drainEnd : Nat
  disableOp : Option OpRef
  /-- The create or restore that completes once the cell map has changed for it (R24). -/
  mapOp : Option OpRef
  /-- Logical cores marked unavailable (R29). -/
  unavailable : List Nat
  /-- Floors of SHIM events in force: floor and plan beats left (R391). -/
  shims : List (Nat × Nat)
  /-- Ramp ceiling, its start, its target, plan beats done and its duration (R392). -/
  ramp : Nat
  rampFrom : Nat
  rampTo : Nat
  rampDone : Nat
  rampLen : Nat
  deriving DecidableEq, Repr

/-- A replacement of a frame in progress (R253). -/
structure Replace where
  op : OpRef
  owner : FnId
  base : Nat
  stride : Nat
  /-- Layers swapped, the barrier, and pass-begins held behind it. -/
  swapped : Nat
  barrier : Bool
  startBeat : Nat
  /-- Functions treated as under the cut policy since DRAIN_LIMIT (R253). -/
  cut : List FnId
  deriving DecidableEq, Repr

/-- A frame (Table 10-1). -/
structure FrameState where
  defined : Bool
  record : BitVec 512
  /-- Model width and feed-forward width, which no record carries (log entry 4). -/
  width : Nat
  ffWidth : Nat
  /-- 0 valid, 1 pending, 2 stale, and the digest (R354). -/
  digestState : Nat
  digest : Nat
  /-- Mortise table: layer × 64 + mortise to context id plus one (R170). -/
  mortises : SMap Nat
  replace : Option Replace
  deriving DecidableEq, Repr

/-- A fabric port (R257 to R279). -/
structure Port where
  /-- 0 DOWN, 1 TRAINING, 2 LINK_UP, 3 PARTNER, 4 MISMATCH. -/
  st : Nat
  /-- 0 none, 1 lanes 0-7, 2 lanes 8-15, 3 all 16. -/
  width : Nat
  mismatch : Nat
  /-- Last HELLO payload received and how many in a row are consistent (R272). -/
  hello : BitVec 512
  helloCount : Nat
  delay : Nat
  txSeq : Nat
  /-- Replay buffer: frames not yet acknowledged, oldest first (R263). -/
  replay : List Frame
  rxSeq : Nat
  /-- A NAK is outstanding. -/
  nak : Bool
  /-- Times the oldest frame has been replayed since the last acknowledgement (R260), and the last LCTRL sent. -/
  replays : Nat
  ctrl : BitVec 256
  /-- Credits left: VC0, VC2, VC3 and the sixteen reduction channels (R264). -/
  credits : List Nat
  /-- Credits to give back in the next LCTRL. -/
  owed : List Nat
  /-- Frames kept for the next collective: channel and frame (R318). -/
  kept : List (Nat × Frame)
  /-- Resend store: collective tag, chunk, frames (R316). -/
  store : List (Nat × Nat × List Frame)
  /-- Frames that are ready and wait for credit or for room in the replay buffer (R263, R264). -/
  queued : List Frame
  deriving DecidableEq, Repr

/-- One chunk of a reduce in flight (R306 to R317). A link is 2 × axis + direction. -/
structure Chunk where
  /-- Window values received, by link, and the agreed window. -/
  wins : List (Nat × Int)
  window : Option Int
  /-- The window value has been sent toward the owner, and the agreed window on these links away from it. -/
  sentUp : Bool
  sentDown : List Nat
  /-- Partials received: link, element, integer. -/
  got : List (Nat × Nat × Int)
  /-- High limbs whose low frame has not come yet: port, FIRST, words (R313). -/
  high : List (Nat × Nat × List Int)
  sentPartial : Bool
  /-- Elements written here. -/
  written : Nat
  resends : Nat
  deriving DecidableEq, Repr

/-- A reduce in flight (R304): started once it is the first of its channel, ended with the status and cause its completion will
carry once those before it on the channel have completed (R318). -/
structure Reduce where
  op : OpRef
  fn : FnId
  desc : Desc
  started : Bool
  ended : Option (Nat × Nat)
  chunks : List Chunk
  deriving DecidableEq, Repr

/-- A DATA message of which frames have arrived: sender, sub-header without its offset, bytes so far. -/
structure Inbound where
  src : Nat
  sub : Nat
  bytes : List Byte
  deriving DecidableEq, Repr

/-- A shard or a piece that has arrived whole and waits for its operation: kind, job, what names it, version, bytes (log entry 56). -/
structure Mail where
  kind : Nat
  job : Nat
  name : Nat
  version : Nat
  body : List Byte
  deriving DecidableEq, Repr

/-- A message under way: the operation that sent it, its port, and its last frame as it was sent. -/
structure Outbound where
  op : OpRef
  port : Nat
  last : Frame
  deriving DecidableEq, Repr

/-- The master's record of one job (R324, R325, R328). -/
structure MasterJob where
  members : Nat
  readies : List (BitVec 16)
  /-- A decision taken and whether the backup has echoed it. -/
  decision : Option Decision
  echoed : Bool
  /-- Messages of the decided step are ignored until it has been applied here (log entry 11). -/
  closed : Bool
  /-- Beat at which it was sent to the backup. -/
  sentBeat : Nat
  lastStep : BitVec 64
  aborts : Nat
  /-- PWR_SLACK reports of the open step. -/
  slacks : List (BitVec 256)
  /-- Offsets of the members, chip id and watts (R389), and whether this master took the job over from another (R390). -/
  offsets : List (Nat × Int)
  adopted : Bool
  deriving DecidableEq, Repr

/-- The beat unit (R33 to R63). -/
structure Beat where
  /-- Beat number once an epoch has set it; before that the count of local edges (R437). -/
  number : BitVec 64
  epochSet : Bool
  inDomain : Bool
  /-- An epoch was refused: syncs are ignored until one is accepted (R36). -/
  refused : Bool
  period : Nat
  lead : Nat
  master : BitVec 16
  backup : BitVec 16
  failedBackups : List (BitVec 16)
  dist : Nat
  parent : Option PortId
  holdover : Bool
  /-- SOURCE changes to fabric at the next edge (R38). -/
  fallback : Bool
  sinceSync : Nat
  /-- Granted runs of hold beats: first beat, length, cause (R60, R62). -/
  holds : List (Nat × Nat × Nat)
  /-- Whether the present beat is a hold beat. -/
  holding : Bool
  /-- Epoch armed or announced: edge (present count or number) and new beat number (R36). -/
  armed : Option (Nat × BitVec 64)
  /-- Hold requests the master merges: origin, k, cause, plan beat, send beat (R60). -/
  requests : List (BitVec 16 × Nat × Nat × Nat × Nat)
  /-- Own requests not yet granted or refused: function, record, k, cause (R59). -/
  ownRequests : List (FnId × Nat × Nat × Nat)
  /-- Place of the edge in 62.5 ps units against the local reference (R37, R41). -/
  edge : Int
  /-- Pulses missing or ignored in a row (R38). -/
  missRow : Nat
  /-- Decisions the backup holds for the master: job and decision (R325). -/
  held : List (Word × Decision)
  deriving DecidableEq, Repr

/-- A trouble-log entry (Table 18-5) with its place in the log. -/
structure LogEntry where
  seq : Nat
  bits : BitVec 256
  /-- It lies in the reserved part (R438). -/
  reserved : Bool
  /-- Physical core it names, for the views' translation (R441). -/
  core : Option CoreId
  /-- Function views that hold it: function and its number in that view (R442). -/
  views : List (Nat × Nat)
  deriving DecidableEq, Repr

/-- The calibration store (R404 to R408). -/
structure CalRecord where
  type : BitVec 16
  scope : BitVec 16
  seq : Nat
  poh : Nat
  /-- Start-up count when written. -/
  boot : Nat
  payload : List Byte
  committed : Bool
  /-- Log sector it lies in. -/
  sector : Nat
  deriving DecidableEq, Repr

structure Store where
  records : List CalRecord
  nextSeq : Nat
  /-- Per log sector: STATE, erase count, and bytes used; an erased one is not listed with count 0. -/
  sectors : SMap (Nat × Nat × Nat)
  compacting : Bool
  deriving DecidableEq, Repr

structure Power where
  cap : Nat
  /-- A cap that waits for the beat boundary (R381). -/
  nextCap : Option Nat
  offset : Int
  nextOffset : Option Int
  groupOn : Bool
  groupJob : Word
  shiftMax : Nat
  reserved : Nat
  package : Nat
  /-- GOV_CFG STEP in force and the one that waits for the boundary (R379). -/
  govStep : Nat
  poh : Nat
  planPoh : Nat
  planMoved : Bool
  planCount : Nat
  deriving DecidableEq, Repr

/-- Start-up, faults and pins. -/
structure Boot where
  /-- Table 19-4: 0 ROM to 8 READY, 9 BOOT_FAIL. -/
  st : Nat
  /-- Start-ups so far (Table 16-3, BOOT). -/
  count : Nat
  cause : Nat
  source : Nat
  timeMs : Word
  /-- Fused security counter (R452). -/
  svn : Nat
  fwDigest : Nat
  fault : Bool
  faultCode : BitVec 16
  pkcFailed : Bool
  noIdentity : Bool
  /-- Power is held back until every rail is in range (R446). -/
  powered : Bool
  /-- THERM_N is asserted (R487). -/
  thermN : Bool
  /-- Darlek ports: 0 down, 1 training, 2 16 lanes, 3 32 lanes (Table 17-7). -/
  dlk0 : Nat
  dlk1 : Nat
  /-- Reference clocks that run: bit per input of Table 21-3. -/
  clocks : BitVec 4
  straps : BitVec 2
  eid : Byte
  /-- Position and axis lengths minus one that the package announces (Table 11-6, log entry 13). -/
  pos : Nat
  lenM1 : Nat
  /-- JTAG instruction in force: 0 IDCODE, 1 BYPASS, 2 SAMPLE/PRELOAD, 3 EXTEST; the boundary register. -/
  tapIr : Nat
  boundary : BitVec 64
  deriving DecidableEq, Repr

/-- A link slot (R365). -/
structure LinkSlot where
  job : Word
  key : Nat
  activation : BitVec 64
  counter : Nat
  /-- Sealing is in force since a step boundary (R366). -/
  inForce : Bool
  deriving DecidableEq, Repr

/-- A completion record as formed, for observation: the model's own field (log entry 6). -/
structure Completion where
  queue : QueueId
  opId : BitVec 16
  status : Nat
  cause : Nat
  count : Nat
  detail : Nat
  deriving DecidableEq, Repr

/-- The device. -/
structure State where
  /-- Commands that wait, first in, first out. -/
  pending : List Instr
  /-- Operations whose condition did not hold when they came; retried when the queue is empty (log entry 5). -/
  parked : List Instr
  /-- HBM, LLM and companion memory at their device address; the scratchpad of physical core k at 2^44 + k × 2^24. -/
  mem : List Host.Cell
  /-- Poisoned 64-byte bursts, by device address / 64 (R232). -/
  poison : List Nat
  /-- Directory entries by page number, device address / 64 KiB (Table 8-3). -/
  dir : SMap (BitVec 64)
  /-- Pages being scrubbed (R206), and pages whose change a die has still to apply, in order of arrival (R207). -/
  scrubs : List Nat
  dirLag : List Nat
  /-- Context descriptors (Table 10-2). -/
  ctxs : SMap (BitVec 1024)
  frames : SMap FrameState
  fns : Vector Fn 64
  queues : SMap Queue
  ops : List Op
  /-- Operations read so far: the model's own field. -/
  nextOp : Nat
  heldOps : List Held
  cells : Vector Cell 24
  mes : SMap Me
  tes : SMap Te
  dies : SMap Die
  hbms : SMap Stack
  parts : SMap Part
  ports : SMap Port
  /-- Reduces in flight, in issue order (R318). -/
  reduces : List Reduce
  /-- Tags of collectives that have completed since the last step boundary: function, channel, tag (R320). -/
  redDone : List (Nat × Nat × Nat)
  /-- DATA messages arriving, arrived and under way, and the next message id (R265, log entry 56). -/
  inbox : List Inbound
  mail : List Mail
  outbox : List Outbound
  nextMsg : Nat
  /-- Jobs the master keeps, by job id (R324). -/
  jobs : SMap MasterJob
  beat : Beat
  log : List LogEntry
  /-- Entries placed in each view so far: window number to WR_SEQ (R442). -/
  logNext : SMap Nat
  power : Power
  store : Store
  boot : Boot
  /-- Link slots by number (R365). -/
  links : SMap LinkSlot
  /-- Directory-extension base, and whether it is set (R224). -/
  extension : Option Nat
  /-- Registers that hold a value of their own: window × 2^26 + window offset (R458). -/
  regs : SMap Word
  /-- Snapshots of high words per window: window, page, offset, value (R460). -/
  snapshots : List (Nat × Nat × Nat × Word)
  /-- The management role's event vector and coalescing (R427, R428). -/
  mgmtEvent : Nat × Word
  mgmtCoalesce : Nat × Nat
  /-- Value the last register read returned, bytes of the last SMBus answer and of the last scan, last snoop answered. -/
  rdData : Word
  smbData : List Byte
  scanData : BitVec 64
  lastCpl : Option Completion
  /-- Index of the next free value (log entry 1): the model's own field. -/
  fresh : Nat
  deriving DecidableEq, Repr

/-- Why the machine stops. The manual gives every stop of this device as a completion, an event or a reset, so there is no
fault: safe. -/
inductive Fault where
  deriving DecidableEq, Repr

/-- What has no meaning. -/
inductive Refusal where
  /-- Raised by a dispatch arm of a command that has no meaning yet: safe. -/
  | notModelled (mnemonic : String)
  deriving DecidableEq, Repr

/-! ## Reset -/

def Queue.reset : Queue :=
  { record := 0, set := false, stopped := false, head := 0, tail := 0, cplIndex := 0, cplHead := 0, waiting := [],
    irqPending := 0, timer := false, event := none, skips := [], pass := none, sequence := none, request := none }

def Slot.reset : Slot :=
  { st := .free, projOpen := false, segs := 0, rows := 0, width := 512, mismatch := false, vals := [], openers := [],
    closer := none, arrivals := [] }

def Me.reset : Me :=
  { bank0 := .empty, bank1 := .empty, slots := [], passes := [], ready := [], lastEntry := 0, lastInterval := 0, lastRead0 := 0,
    lastRead1 := 0, staged0 := 0, staged1 := 0, rows0 := 0, rows1 := 0, lastWrite0 := 0, lastWrite1 := 0 }

def Te.reset : Te := { bank0 := none, bank1 := none, tile := [], unjoined := [], joined := [], singleRow := false }

/-- A physical core after reset; the cell map is applied from the calibration store at start-up (R26). -/
def Cell.reset : Cell :=
  { st := .eligible, owner := none, logical := 0, movePending := false, moveTo := none, moveDone := false, testDue := false, scrubbing := false,
    nextSt := none, quarantining := false, taking := none, hoursSinceTest := 0, level := 0, target := 0, capCeiling := 16, thermal := 16, vReq := 700, drift := 0,
    leakage := 0, temp0 := 0, temp1 := 0, testFailed := false }

/-- A die after reset: VCORE 0.80 V (Table 19-1), GUARD 40 mV (R401). -/
def Die.reset : Die :=
  { temp := 0, thermalCeiling := 16, sinceCeiling := 0, throttling := false, tripped := false, vcore := 8000, guard := 400, nextGuard := none,
    alarmed := false, planRunning := false, requested := 8000, acked := 8000, sinceStep := 0 }

def Stack.reset : Stack :=
  { rate := 0, inService := false, spared := 0, temp := 0, refresh := 0, repairs := [] }

def Part.reset : Part := { owner := none, mode := 0, failed := false, scrubbing := false }

def JobState.reset : JobState :=
  { map := 0, pendingMap := none, st := 0, remapped := false, tags := [], stages := [], scarf := none, save := none,
    ckptStep := 0, topo := 0 }

def StepState.reset : StepState :=
  { epoch := false, pairs := [], step := 0, fail := false, sent := false, issued := false, decision := none, aborts := 0,
    lastCause := 0, commitBeat := none, ready := false, ending := [] }

def SecState.reset : SecState :=
  { keyGen := 0, key0 := 0, key1 := 0, sweep := false, imageKey := none, stagedKey := none, session := none,
    confidential := false, measured := [] }

/-- A function in state OFF. -/
def Fn.reset : Fn :=
  { st := .off, record := 0, seed := 0, tileStrict := false, frames := [], serving := none, swapCut := false, drainLimit := 1,
    mortises := [], apertures := [], coalesceCount := 1, coalesceTime := 0, eventAddr := 0, eventData := 0, active := none,
    pendingPlan := none, classes := [], watch := none, window := [], lines := [], slices := [], job := JobState.reset,
    step := StepState.reset, sec := SecState.reset, resize := none, freeze := none, drainEnd := 0, disableOp := none, mapOp := none,
    unavailable := [], shims := [], ramp := 16, rampFrom := 16, rampTo := 16, rampDone := 0, rampLen := 0 }

def FrameState.reset : FrameState :=
  { defined := false, record := 0, width := 0, ffWidth := 0, digestState := 0, digest := 0, mortises := [], replace := none }

/-- Initial credits of a port: VC0, VC2, VC3 and sixteen channel pools, in 64-byte units (Table 11-4). -/
def initialCredits : List Nat := [256, 4096, 256] ++ List.replicate 16 256

def Port.reset : Port :=
  { st := 0, width := 0, mismatch := 0, hello := 0, helloCount := 0, delay := 0, txSeq := 0, replay := [],
    rxSeq := 0, nak := false, replays := 0, ctrl := 0, credits := initialCredits, owed := List.replicate 19 0, kept := [], store := [],
    queued := [] }

def MasterJob.reset : MasterJob :=
  { members := 0, readies := [], decision := none, echoed := false, closed := false, sentBeat := 0, lastStep := 0, aborts := 0, slacks := [],
    offsets := [], adopted := false }

def LinkSlot.reset : LinkSlot := { job := 0, key := 0, activation := 0, counter := 0, inForce := false }

def Aperture.reset : Aperture := { base := 0, units := 0, read := false, write := false, tiered := false, enable := false }

/-- The beat unit after reset: PERIOD 3, LEAD 2, no master, no epoch (Table 20-4, R455). -/
def Beat.reset : Beat :=
  { number := 0, epochSet := false, inDomain := false, refused := false, period := 3, lead := 2, master := 0xFFFF, backup := 0xFFFF,
    failedBackups := [], dist := 0xFF, parent := none, holdover := false, fallback := false, sinceSync := 0, holds := [], holding := false,
    armed := none, requests := [], ownRequests := [], edge := 0, missRow := 0, held := [] }

/-- Cap 3,200 W, reserved share 700 W (Table 16-5). -/
def Power.reset : Power :=
  { cap := 3200, nextCap := none, offset := 0, nextOffset := none, groupOn := false, groupJob := 0, shiftMax := 0,
    reserved := 700, package := 0, govStep := 0, poh := 0, planPoh := 0, planMoved := false, planCount := 0 }

def Store.reset : Store := { records := [], nextSeq := 0, sectors := [], compacting := false }

def Boot.reset : Boot :=
  { st := 0, count := 0, cause := 0, source := 1, timeMs := 0, svn := 0, fwDigest := 0, fault := false, faultCode := 0, pkcFailed := false,
    noIdentity := false, powered := true, thermN := false, dlk0 := 0, dlk1 := 0, clocks := 0xF, straps := 3, eid := 0, pos := 0, lenM1 := 0,
    tapIr := 0, boundary := 0 }

/-- A directory entry after reset: free, FRAME 0xFF (Table 8-3). -/
def dirReset : BitVec 64 := BitVec.ofNat 64 (0xFF * 2 ^ 10)

/-- A context descriptor after reset but for its CONTEXT_ID: FRAME 0xFF, W_FMT 0x1 (Table 10-2). -/
def ctxReset : BitVec 1024 := BitVec.ofNat 1024 (0xFF * 2 ^ 24 + 2 ^ 38)

/-- Reset values of the stored registers, where they are not 0: CHIP_ID, BEAT_CFG, MASTER_ID, HOLD_LIMIT, PLAN_CTRL, COALESCE and
PORT_CFG, whose ports are all enabled (Tables 11-8, 16-5, 18-6, 20-3 and 20-4). -/
def regsReset : SMap Word :=
  [(0x5C, 0xFFFF), (0x1040, 0x83), (0x1048, 0xFFFFFFFF), (0x104C, 256), (0x2084, 2), (0x4050, 4096),
   (0x500040, 0x20), (0x501040, 0x20), (0x502040, 0x21), (0x503040, 0x22), (0x504040, 0x23), (0x505040, 0x27),
   (0x506040, 0x28), (0x507040, 0x28), (0x508040, 0x29), (0x509040, 0x2A), (0x50A040, 0x2B), (0x50B040, 0x2F)]

/-- The machine right after it leaves power-on reset: BOOT_STATE ROM, reset source power (R446, R454, R456). -/
def State.reset : State :=
  { pending := [], parked := [], mem := [], poison := [], dir := [], scrubs := [], dirLag := [], ctxs := [], frames := [],
    fns := Vector.replicate 64 Fn.reset, queues := [], ops := [], nextOp := 0, heldOps := [], cells := Vector.replicate 24 Cell.reset, mes := [], tes := [],
    dies := [], hbms := [], parts := [], ports := [], reduces := [], redDone := [], inbox := [], mail := [], outbox := [], nextMsg := 0, jobs := [], beat := Beat.reset, log := [], logNext := [],
    power := Power.reset, store := Store.reset, boot := Boot.reset, links := [], extension := none, regs := regsReset,
    snapshots := [], mgmtEvent := (0, 0), mgmtCoalesce := (1, 0), rdData := 0, smbData := [], scanData := 0, lastCpl := none,
    fresh := 0 }

end Sys2Proof.Machine
end

