-- ==== Sys2Proof/Machine/Ops.lean ====
section
/-! DEFINITION. The named operations every command is built from: bit fields, memory, the register file, free values, page
events and the trouble log, completion records and interrupts, and the bookkeeping of outstanding operations. -/

namespace Sys2Proof.Machine

/-! ## Bit fields and bytes -/

/-- Bits [hi:lo] of a number. -/
def field (x hi lo : Nat) : Nat := (x >>> lo) % 2 ^ (hi + 1 - lo)

/-- Bits [hi:lo] of a record. -/
def fld {n : Nat} (d : BitVec n) (hi lo : Nat) : Nat := field d.toNat hi lo

/-- One bit of a record. -/
def flag {n : Nat} (d : BitVec n) (i : Nat) : Bool := d.getLsbD i

/-- A number with bits [hi:lo] replaced. -/
def withField (x hi lo v : Nat) : Nat := x - field x hi lo * 2 ^ lo + (v % 2 ^ (hi + 1 - lo)) * 2 ^ lo

/-- A record with bits [hi:lo] replaced. -/
def withFld {n : Nat} (d : BitVec n) (hi lo v : Nat) : BitVec n := BitVec.ofNat n (withField d.toNat hi lo v)

/-- A w-bit field as a two's complement number. -/
def toSigned (w v : Nat) : Int := if v < 2 ^ (w - 1) then (v : Int) else (v : Int) - 2 ^ w

/-- The w-bit two's complement code of an integer. -/
def ofSigned (w : Nat) (v : Int) : Nat := (v % (2 ^ w : Int)).toNat

/-- n bytes of a number, least significant first (R13). -/
def leBytes : Nat → Nat → List Byte
  | 0, _ => []
  | n + 1, v => BitVec.ofNat 8 v :: leBytes n (v / 256)

/-- The number some bytes spell, least significant first (R13). -/
def ofBytes : List Byte → Nat
  | [] => 0
  | b :: bs => b.toNat + 256 * ofBytes bs

def b2n (b : Bool) : Nat := if b then 1 else 0

/-- Numbers of the set bits of a mask below n. -/
def setBits (n mask : Nat) : List Nat := (List.range n).filter (fun i => mask.testBit i)

/-- The first item of a list that meets a test, with what is left without it. -/
def takeFirst {α : Type} (p : α → Bool) : List α → Option α × List α
  | [] => (none, [])
  | x :: xs => if p x then (some x, xs) else let r := takeFirst p xs; (r.1, x :: r.2)

def sumNat (xs : List Nat) : Nat := xs.foldl (· + ·) 0

/-- The cause of the first failing check of a list (check fails, cause); 0 when none fails. -/
def firstCause : List (Bool × Nat) → Nat
  | [] => 0
  | (bad, c) :: rest => if bad then c else firstCause rest

/-- The lowest cause among the failing checks (R496); 0 when none fails. -/
def lowestCause (checks : List (Bool × Nat)) : Nat :=
  checks.foldl (fun acc x => if x.1 && (acc = 0 || decide (x.2 < acc)) then x.2 else acc) 0

/-! ## Memory -/

/-- Memory key of a companion physical address (Table 8-1). -/
def compKey (a : Nat) : Nat := 2 ^ 43 + a

/-- Memory key of an offset in a physical core's scratchpad: the model's own numbering (log entry 3). -/
def spKey (core off : Nat) : Nat := 2 ^ 44 + core * 2 ^ 24 + off

/-- One byte; memory that nothing has written reads as 0 (log entry 3). DESIGN CHOICE. -/
def memByte (m : List Host.Cell) (a : Nat) : Byte := SMap.get 0 m a

/-- Write one byte, keeping the canonical form. -/
def memPut (m : List Host.Cell) (a : Nat) (b : Byte) : List Host.Cell := SMap.put 0 m a b

/-- The canonical form of memory. -/
def memWf (m : List Host.Cell) : Bool := SMap.wf 0 m

def memBytes (m : List Host.Cell) (a n : Nat) : List Byte := (List.range n).map (fun i => memByte m (a + i))

def memWrite (m : List Host.Cell) (a : Nat) : List Byte → List Host.Cell
  | [] => m
  | b :: bs => memWrite (memPut m a b) (a + 1) bs

/-- Clear the poison of every burst a write covers whole (R232). -/
def unpoison (p : List Nat) (a n : Nat) : List Nat := p.filter (fun b => !(decide (a ≤ b * 64) && decide (b * 64 + 64 ≤ a + n)))

def State.bytes (s : State) (a n : Nat) : List Byte := memBytes s.mem a n

def State.nat (s : State) (a n : Nat) : Nat := ofBytes (memBytes s.mem a n)

def State.write (s : State) (a : Nat) (bs : List Byte) : State :=
  { s with mem := memWrite s.mem a bs, poison := unpoison s.poison a bs.length }

def State.writeNat (s : State) (a n v : Nat) : State := s.write a (leBytes n v)

/-- Write several runs of bytes in order. -/
def State.writeAll (s : State) (runs : List (Nat × List Byte)) : State := runs.foldl (fun s r => s.write r.1 r.2) s

/-! ## Free values -/

/-- The next free value (log entry 1). -/
def State.draw (s : State) : Nat × State := (Config.freeValue s.fresh, { s with fresh := s.fresh + 1 })

/-! ## Access to the parts of the state -/

def State.fn (s : State) (f : FnId) : Fn := s.fns[f]

def State.setFn (s : State) (f : FnId) (x : Fn) : State := { s with fns := s.fns.set f x }

def State.modFn (s : State) (f : FnId) (g : Fn → Fn) : State := s.setFn f (g (s.fn f))

def State.cell (s : State) (c : CoreId) : Cell := s.cells[c]

def State.setCell (s : State) (c : CoreId) (x : Cell) : State := { s with cells := s.cells.set c x }

def State.modCell (s : State) (c : CoreId) (g : Cell → Cell) : State := s.setCell c (g (s.cell c))

def State.queue (s : State) (q : Nat) : Queue := SMap.get Queue.reset s.queues q

def State.setQueue (s : State) (q : Nat) (x : Queue) : State := { s with queues := SMap.put Queue.reset s.queues q x }

def State.me (s : State) (i : Nat) : Me := SMap.get Me.reset s.mes i

def State.setMe (s : State) (i : Nat) (x : Me) : State := { s with mes := SMap.put Me.reset s.mes i x }

def State.te (s : State) (i : Nat) : Te := SMap.get Te.reset s.tes i

def State.setTe (s : State) (i : Nat) (x : Te) : State := { s with tes := SMap.put Te.reset s.tes i x }

def State.die (s : State) (i : Nat) : Die := SMap.get Die.reset s.dies i

def State.setDie (s : State) (i : Nat) (x : Die) : State := { s with dies := SMap.put Die.reset s.dies i x }

def State.stack (s : State) (i : Nat) : Stack := SMap.get Stack.reset s.hbms i

def State.setStack (s : State) (i : Nat) (x : Stack) : State := { s with hbms := SMap.put Stack.reset s.hbms i x }

def State.part (s : State) (i : Nat) : Part := SMap.get Part.reset s.parts i

def State.setPart (s : State) (i : Nat) (x : Part) : State := { s with parts := SMap.put Part.reset s.parts i x }

def State.port (s : State) (i : Nat) : Port := SMap.get Port.reset s.ports i

def State.setPort (s : State) (i : Nat) (x : Port) : State := { s with ports := SMap.put Port.reset s.ports i x }

def State.frame (s : State) (i : Nat) : FrameState := SMap.get FrameState.reset s.frames i

def State.setFrame (s : State) (i : Nat) (x : FrameState) : State :=
  { s with frames := SMap.put FrameState.reset s.frames i x }

def State.job (s : State) (i : Nat) : MasterJob := SMap.get MasterJob.reset s.jobs i

def State.setJob (s : State) (i : Nat) (x : MasterJob) : State := { s with jobs := SMap.put MasterJob.reset s.jobs i x }

def State.link (s : State) (i : Nat) : LinkSlot := SMap.get LinkSlot.reset s.links i

def State.setLink (s : State) (i : Nat) (x : LinkSlot) : State := { s with links := SMap.put LinkSlot.reset s.links i x }

/-- A context descriptor; one that is not listed holds its reset value with its own id (Table 10-2). -/
def State.ctx (s : State) (i : Nat) : BitVec 1024 := SMap.get ctxReset s.ctxs i

def State.setCtx (s : State) (i : Nat) (x : BitVec 1024) : State := { s with ctxs := SMap.put ctxReset s.ctxs i x }

/-- Stack of an HBM page, none for another page (Table 9-2). -/
def stackOfPage (p : Nat) : Option Nat := if p < 24 * 2 ^ 20 then some (p / 2 ^ 20) else none

/-- The directory entry of a page (Table 8-3); every page of a stack out of service reads as TIER 3 (R235). -/
def State.page (s : State) (p : Nat) : BitVec 64 :=
  let e := SMap.get dirReset s.dir p
  match stackOfPage p with
  | some st => if (s.stack st).inService then e else e ||| 3
  | none => e

def State.setPage (s : State) (p : Nat) (x : BitVec 64) : State := { s with dir := SMap.put dirReset s.dir p x }

/-- Every function id, ascending. -/
def allFns : List FnId := List.finRange 64

def allCores : List CoreId := List.finRange 24

/-- The function id a number names, modulo 64 (every field that holds one has six bits). -/
def fnId (n : Nat) : FnId := ⟨n % 64, Nat.mod_lt _ (by decide)⟩

def queueId (n : Nat) : QueueId := ⟨n % 1024, Nat.mod_lt _ (by decide)⟩

/-- The physical core a number below 24 names. -/
def coreId? (n : Nat) : Option CoreId := if h : n < 24 then some ⟨n, h⟩ else none

/-- Physical core that holds a logical core of a function, none when it is unavailable or not owned (R12, R23). -/
def State.phys? (s : State) (f : FnId) (logical : Nat) : Option CoreId :=
  allCores.find? (fun c => let x := s.cell c; decide (x.owner = some f) && decide (x.logical = logical) && decide (x.st = .inService))

/-- Cores the function's record gives it (Table 14-6, CORES). -/
def fnByte (f : Fn) (off n : Nat) : Nat := field f.record.toNat (8 * (off - 0x40 + n) - 1) (8 * (off - 0x40))

def Fn.cores (f : Fn) : Nat := fnByte f 0x44 4 % 32

def Fn.ctxFirst (f : Fn) : Nat := fnByte f 0x48 2

def Fn.ctxCount (f : Fn) : Nat := fnByte f 0x70 4 % 2 ^ 17

def Fn.queueFirst (f : Fn) : Nat := fnByte f 0x4C 4 % 1024

def Fn.queueCount (f : Fn) : Nat := fnByte f 0x4C 4 / 1024 % 2048

def Fn.llmShare (f : Fn) : Nat := fnByte f 0x50 4 % 4096

def Fn.dlkShare (f : Fn) : Nat := fnByte f 0x54 4 % 256

def Fn.powerShare (f : Fn) : Nat := fnByte f 0x58 4 % 4096

def Fn.hbmShare (f : Fn) (st : Nat) : Nat := fnByte f (0x80 + 4 * st) 1

def Fn.fabShare (f : Fn) (p : Nat) : Nat := fnByte f (0xE0 + 4 * p) 1

def Fn.channels (f : Fn) (p : Nat) : Nat := fnByte f (0xE0 + 4 * p + 1) 2

def Fn.granules (f : Fn) (st : Nat) : Nat := fnByte f (0x140 + 8 * st) 8 % 2 ^ 48

def Fn.partMask (f : Fn) : Nat := fnByte f 0x200 8

def Fn.compQuota (f : Fn) : Nat := fnByte f 0x208 4

def Fn.quiet (f : Fn) : Bool := fnByte f 0x20C 1 % 2 = 1

/-- The function with the record its accepted resize brings, its own without one (R337). -/
def Fn.next (f : Fn) : Fn :=
  match f.resize with
  | some r => { f with record := r.record }
  | none => f

/-- Does a function hold a partition that no accepted resize takes away (R337)? -/
def State.hasPart (s : State) (f : FnId) (p : Nat) : Bool :=
  let x := s.part p
  decide (x.owner = some f) && !x.scrubbing && ((s.fn f).resize.isNone || (s.fn f).next.partMask.testBit p)

/-- Granules of a stack that a function may claim in: held, and not taken away by an accepted resize (R334, R337). -/
def Fn.useGranules (f : Fn) (st : Nat) : Nat := f.granules st &&& f.next.granules st

/-- Does a queue number belong to a function, whose accepted resize keeps it? -/
def Fn.hasQueue (f : Fn) (q : Nat) : Bool :=
  decide (f.queueFirst ≤ q) && decide (q < f.queueFirst + f.queueCount)
    && decide (f.next.queueFirst ≤ q) && decide (q < f.next.queueFirst + f.next.queueCount)

/-! ## The register file -/

/-- Number of a window in the register file: 0 for the management role, f + 1 for function f. -/
def winNo : Window → Nat
  | .mgmt => 0
  | .fn f => f.val + 1

def regKey (win off : Nat) : Nat := win * 2 ^ 26 + off

/-- A stored register. -/
def State.reg (s : State) (win off : Nat) : Nat := (SMap.get 0 s.regs (regKey win off)).toNat

def State.setReg (s : State) (win off v : Nat) : State :=
  { s with regs := SMap.put 0 s.regs (regKey win off) (BitVec.ofNat 32 v) }

/-- Add to a counter, which stops at 0xFFFF_FFFF. -/
def State.addReg (s : State) (win off n : Nat) : State := s.setReg win off (min (s.reg win off + n) 0xFFFFFFFF)

/-- Add to a counter of the shared register file. -/
def State.count (s : State) (off : Nat) (n : Nat := 1) : State := s.addReg 0 off n

/-- Add a free number of cycles to a cycle counter: the model has no clock (log entry 9). -/
def State.wait (s : State) (off : Nat) : State := let (n, s) := s.draw; s.count off (n % 2 ^ 32)

/-- Page offsets of Table 20-2. -/
def pagePkc : Nat := 0x0000
def pageBeat : Nat := 0x1000
def pagePwr : Nat := 0x2000
def pageSec : Nat := 0x3000
def pageTlog : Nat := 0x4000
def pageCtxt : Nat := 0x5000
def pageCmap : Nat := 0x6000
def pageCore (k : Nat) : Nat := 0x100000 + 0x1000 * k
def pageMe (i : Nat) : Nat := 0x200000 + 0x1000 * i
def pageTe (k : Nat) : Nat := 0x300000 + 0x1000 * k
def pageHbm (i : Nat) : Nat := 0x400000 + 0x1000 * i
def pageFab (p : Nat) : Nat := 0x500000 + 0x1000 * p
def pageDlk (n : Nat) : Nat := 0x600000 + 0x1000 * n
def pageLlmp (p : Nat) : Nat := 0x700000 + 0x1000 * p
def pageFunc (f : Nat) : Nat := 0x800000 + 0x1000 * f
def pageHlth (f : Nat) : Nat := 0x900000 + 0x1000 * f
def pageMemf (f : Nat) : Nat := 0xA00000 + 0x1000 * f
def pageJobf (f : Nat) : Nat := 0xB00000 + 0x1000 * f
def pageStepf (f : Nat) : Nat := 0xC00000 + 0x1000 * f

/-! ## The beat stamp -/

/-- What BEAT_NOW reads: the beat number, or before the first epoch the count of local edges with bit 63 set (R437). -/
def State.beatNow (s : State) : Nat := if s.beat.epochSet then s.beat.number.toNat else 2 ^ 63 + s.beat.number.toNat

/-! ## Page events (R428, R467) -/

/-- An interrupt message: a 4-byte write of the data to the address; address 0 stands for no vector named (log entry 21). -/
def State.message (s : State) (addr : Nat) (data : Word) : State :=
  if addr = 0 then s else s.write (compKey addr) (leBytes 4 data.toNat)

/-- The event message of one window, where its IRQ_EN has the bit set. -/
def State.eventTo (s : State) (win page bit : Nat) : State :=
  if (s.reg win (page + 0x1C)).testBit bit then
    if win = 0 then s.message s.mgmtEvent.1 s.mgmtEvent.2
    else let f := s.fn (fnId (win - 1)); s.message f.eventAddr f.eventData
  else s

/-- Function whose window sees a per-function page (R468). -/
def pageFn (page : Nat) : Option Nat :=
  if 0x800000 ≤ page ∧ page < 0xD00000 ∧ page / 0x1000 % 256 < 64 then some (page / 0x1000 % 256) else none

/-- Set a bit of a page's IRQ_STAT; a change from 0 to 1 sends the page event to each window that enables it (R428, R467). -/
def State.raise (s : State) (page bit : Nat) : State :=
  let v := s.reg 0 (page + 0x18)
  if v.testBit bit then s
  else
    let s := (s.setReg 0 (page + 0x18) (v + 2 ^ bit)).eventTo 0 page bit
    match pageFn page with
    | some f => s.eventTo (f + 1) page bit
    | none => s

/-- The same for one window's view of the TLOG page, whose IRQ_STAT is the view's own (log entry 22). DEDUCED. -/
def State.raiseLog (s : State) (win bit : Nat) : State :=
  let v := s.reg win (pageTlog + 0x18)
  if v.testBit bit then s else (s.setReg win (pageTlog + 0x18) (v + 2 ^ bit)).eventTo win pageTlog bit

/-- A function event: a page event of the function's FUNC page (R428). -/
def State.raiseFn (s : State) (f : FnId) (bit : Nat) : State := s.raise (pageFunc f.val) bit

/-! ## Page errors (R464) -/

/-- Record an error in one view of a page's header. -/
def State.errorIn (s : State) (win page code fn : Nat) (mgmt : Bool) : State :=
  let s := s.addReg win (page + 0x20) 1
  if (s.reg win (page + 0x24)).testBit 31 then s
  else
    let now := s.beatNow
    ((s.setReg win (page + 0x24) (code + fn * 2 ^ 16 + b2n mgmt * 2 ^ 22 + 2 ^ 31)).setReg win (page + 0x28) (now % 2 ^ 32)).setReg
      win (page + 0x2C) (now / 2 ^ 32)

/-- Record an error against a page: the management view holds every error, a function's view its own. -/
def State.pageError (s : State) (page code : Nat) (fn : Option FnId) (mgmt : Bool) : State :=
  let s := s.errorIn 0 page code (match fn with | some f => f.val | none => 0) mgmt
  match fn with
  | some f => if mgmt then s else s.errorIn (f.val + 1) page code f.val false
  | none => s

/-! ## The trouble log (R436 to R442) -/

/-- Page of a block code's instance (Tables 18-3 and 20-2). -/
def blockPage (block inst : Nat) (fn : Option FnId) : Option Nat :=
  match block with
  | 0x01 => some (pageMe inst)
  | 0x02 => some (pageTe inst)
  | 0x04 => some (pageCore inst)
  | 0x06 => some (pageLlmp inst)
  | 0x08 => some pageCtxt
  | 0x09 => some (pageHbm inst)
  | 0x0A => some (pageFab inst)
  | 0x0B => some (pageDlk inst)
  | 0x0C => some pageBeat
  | 0x0D => some pagePwr
  | 0x0E => some pageSec
  | 0x0F => some pagePkc
  | 0x11 => fn.map (fun f => pageStepf f.val)
  | 0x12 => fn.map (fun f => pageFunc f.val)
  | 0x13 => some pageTlog
  | _ => none

/-- Whether a function's view holds an event (R441). -/
def State.inView (s : State) (f : FnId) (code inst : Nat) (fn : Option FnId) : Bool :=
  match fn with
  | some g => decide (g = f)
  | none =>
    let block := field code 11 6
    let x := s.fn f
    decide (x.st ≠ .off) &&
    (decide (code / 0x1000 = 7) || (decide (block = 0x09) && decide (x.granules inst ≠ 0)) ||
      (decide (block = 0x0A) && (decide (x.fabShare inst ≠ 0) || decide (x.channels inst ≠ 0))) ||
      (decide (block = 0x0D) && decide (inst < 4) &&
        allCores.any (fun c => decide ((s.cell c).owner = some f) && decide (c.val / 6 = inst))))

/-- Read position of a view. -/
def State.rdSeq (s : State) (win : Nat) : Nat := s.reg win (pageTlog + 0x44)

/-- Entries a view has been given: WR_SEQ. -/
def State.wrSeq (s : State) (win : Nat) : Nat := SMap.get 0 s.logNext win

def State.freeGeneral (s : State) : Nat := 7936 - (s.log.filter (fun e => !e.reserved)).length

def State.freeReserved (s : State) : Nat := 256 - (s.log.filter (fun e => e.reserved)).length

/-- The entry an event coalesces into (R439). -/
def State.coalesces (s : State) (code fnField inst : Nat) (e : LogEntry) : Bool :=
  let window := s.reg 0 (pageTlog + 0x50) % 2 ^ 16
  decide (window ≠ 0) && decide (fld e.bits 15 0 = code) && decide (fld e.bits 22 16 = fnField) && decide (fld e.bits 31 24 = inst)
    && decide (s.beatNow ≤ fld e.bits 95 32 + window) && decide (s.rdSeq 0 ≤ e.seq)
    && e.views.all (fun v => decide (s.rdSeq (v.1 + 1) ≤ v.2))

/-- One more event in an entry: COUNT and SPAN saturate (Table 18-5). -/
def bump (e : LogEntry) (now : Nat) : LogEntry :=
  let b := withFld e.bits 127 112 (min (fld e.bits 127 112 + 1) 0xFFFF)
  { e with bits := withFld b 159 128 (min (now - fld e.bits 95 32) 0xFFFFFFFF) }

/-- Bump the first entry that meets a test. -/
def bumpFirst (p : LogEntry → Bool) (now : Nat) : List LogEntry → List LogEntry
  | [] => []
  | e :: es => if p e then bump e now :: es else e :: bumpFirst p now es

/-- Place an event in the log: coalesced into an entry, placed in a new one, or lost (R438 to R440). `fn` none is a package
event. -/
def State.logEvent (s : State) (code : Nat) (fn : Option FnId) (inst : Nat) (core : Option CoreId) (d0 d1 : Nat) : State :=
  if s.boot.pkcFailed then s
  else
  let cls := code / 0x1000
  let fnField := match fn with | some f => f.val | none => 64
  let urgent := decide (6 ≤ cls ∧ cls ≤ 8)
  -- R464: each error logged is recorded against its page; classes 1 to 8 are errors (log entry 23). DEDUCED.
  let s := if 1 ≤ cls ∧ cls ≤ 8 then
      match blockPage (field code 11 6) inst fn with
      | some p => s.pageError p code fn false
      | none => s
    else s
  if s.log.any (s.coalesces code fnField inst) then
    { s with log := bumpFirst (s.coalesces code fnField inst) s.beatNow s.log }
  else
    let general := decide (0 < s.freeGeneral)
    if general || (urgent && decide (0 < s.freeReserved)) then
      let views := (allFns.filter (fun f => s.inView f code inst fn)).map (fun f => (f.val, s.wrSeq (f.val + 1)))
      let (cycle, s) := s.draw
      let bits := code + fnField * 2 ^ 16 + (inst % 256) * 2 ^ 24 + (s.beatNow % 2 ^ 64) * 2 ^ 32
        + (cycle % 2 ^ 16) * 2 ^ 96 + 2 ^ 112 + (d0 % 2 ^ 64) * 2 ^ 160 + (d1 % 2 ^ 32) * 2 ^ 224
      let e : LogEntry := { seq := s.wrSeq 0, bits := BitVec.ofNat 256 bits, reserved := !general, core := core, views := views }
      let next := views.foldl (fun m v => SMap.put 0 m (v.1 + 1) (v.2 + 1)) (SMap.put 0 s.logNext 0 (s.wrSeq 0 + 1))
      let s := { s with log := s.log ++ [e], logNext := next }
      let s : State := if urgent then views.foldl (fun s v => s.raiseLog (v.1 + 1) 0) (s.raiseLog 0 0) else s
      if s.freeGeneral < 1024 then s.raiseLog 0 2 else s
    else
      let s := (s.addReg 0 (pageTlog + 0x80 + 4 * cls) 1).raiseLog 0 1
      match fn with
      | some f => (s.addReg (f.val + 1) (pageTlog + 0x80 + 4 * cls) 1).raiseLog (f.val + 1) 1
      | none => s

/-- A package event without a core. -/
def State.logPkg (s : State) (code inst d0 d1 : Nat) : State := s.logEvent code none inst none d0 d1

/-- An event of a function. -/
def State.logFn (s : State) (code : Nat) (f : FnId) (inst d0 d1 : Nat) : State := s.logEvent code (some f) inst none d0 d1

/-! ## Outstanding operations -/

/-- Is this the operation a reference names? -/
def Op.is (o : Op) (r : OpRef) : Bool := decide (o.queue = r.1) && decide (o.num = r.2)

/-- Does an operation of a queue carry an OP_ID? -/
def Op.named (o : Op) (q : QueueId) (id : BitVec 16) : Bool := decide (o.queue = q) && decide (fld o.desc 51 36 = id.toNat)

/-- Reference of an operation. -/
def Op.ref (o : Op) : OpRef := (o.queue, o.num)

def State.op? (s : State) (r : OpRef) : Option Op := s.ops.find? (fun o => o.is r)

def State.modOp (s : State) (r : OpRef) (g : Op → Op) : State :=
  { s with ops := s.ops.map (fun o => if o.is r then g o else o) }

/-- Drop the first operation a reference names. -/
def State.dropOp (s : State) (r : OpRef) : State := { s with ops := (takeFirst (fun o => o.is r) s.ops).2 }

/-- A fresh operation of a queue. -/
def Op.new (q : QueueId) (num : Nat) (d : Desc) (f : FnId) : Op :=
  { queue := q, num := num, desc := d, fn := f, stage := .dispatched, status := 0, cause := 0, count := 0, detail := 0, holds := [],
    pages := [], fills := [], lag := [], ctxs := [], slots := [], added := [], leaves := [], retries := 0, readBeat := 0, issued := 0,
    event := none, entry := none }

/-- An operation that has been read joins the outstanding ones. -/
def State.addOp (s : State) (o : Op) : State := { s with ops := s.ops ++ [o], nextOp := s.nextOp + 1 }

/-! ## Completion records and interrupts (R425 to R427) -/

/-- DETAIL as a number: each (width, value) in order, aligned to its width from DETAIL's bit 0, which R424 numbers so (log entry 67).
DEDUCED. -/
def packDetail (xs : List (Nat × Nat)) : Nat :=
  (xs.foldl (fun (acc : Nat × Nat) x =>
    let pos := (acc.1 + x.1 - 1) / x.1 * x.1
    (pos + x.1, acc.2 + (x.2 % 2 ^ x.1) * 2 ^ pos)) (0, 0)).2

/-- The record of Table 17-4. -/
def completionRecord (o : Op) (phase : Bool) (status cause count beat cycle detail : Nat) : Record :=
  BitVec.ofNat 512 (fld o.desc 51 36 + o.queue.val * 2 ^ 16 + (fld o.desc 3 0) * 2 ^ 26 + b2n phase * 2 ^ 30
    + (status % 256) * 2 ^ 32 + (cause % 256) * 2 ^ 40 + (min count 0xFFFF) * 2 ^ 48 + (beat % 2 ^ 64) * 2 ^ 64
    + (cycle % 2 ^ 16) * 2 ^ 128 + (fld o.desc 35 20) * 2 ^ 144 + (detail % 2 ^ 352) * 2 ^ 160)

def Queue.mgmt (q : Queue) : Bool := flag q.record 317

def Queue.enabled (q : Queue) : Bool := q.set && flag q.record 316

def Queue.owner (q : Queue) : FnId := fnId (fld q.record 315 310)

def Queue.cplFull (q : Queue) : Bool := decide ((q.cplIndex - q.cplHead).toNat = 2 ^ fld q.record 181 177)

/-- Coalescing values of a queue (R427): the management role's own for management queues. -/
def State.coalesceOf (s : State) (q : Queue) : Nat × Nat :=
  if q.mgmt then s.mgmtCoalesce else let f := s.fn q.owner; (f.coalesceCount, f.coalesceTime)

/-- Send a queue's interrupt message. -/
def State.interrupt (s : State) (n : QueueId) : State :=
  let q := s.queue n.val
  (s.setQueue n.val { q with irqPending := 0, timer := false }).message (fld q.record 267 225)
    (BitVec.ofNat 32 (fld q.record 299 268))

/-- A record with IRQ set has been written (R427). -/
def State.countIrq (s : State) (n : QueueId) : State :=
  let q := s.queue n.val
  let (cnt, time) := s.coalesceOf q
  if cnt ≤ q.irqPending + 1 then s.interrupt n
  else s.setQueue n.val { q with irqPending := q.irqPending + 1, timer := q.timer || decide (q.irqPending = 0 ∧ time ≠ 0) }

/-- Write one record as a whole line into the ring; PHASE is 1 on the first pass and flips at each wrap (R425). -/
def State.putRecord (s : State) (n : QueueId) (r : Record) : State :=
  let q := s.queue n.val
  let log2 := fld q.record 181 177
  let idx := q.cplIndex.toNat
  let phase := (idx / 2 ^ log2) % 2 = 0
  let r := withFld r 30 30 (b2n phase)
  let s := s.write (compKey (fld q.record 176 134 + 64 * (idx % 2 ^ log2))) (leBytes 64 r.toNat)
  s.setQueue n.val { s.queue n.val with cplIndex := q.cplIndex + 1 }

/-- Record the function whose queue caused a count of the DLK pages, with a code the manual does not give (R429, log entry 51). -/
def State.blame (s : State) (q : Queue) : State :=
  let (c, s) := s.draw
  s.pageError (pageDlk 0) (c % 2 ^ 16) (if q.mgmt then none else some q.owner) q.mgmt

/-- Write one record, or keep it where the ring is full, which CPL_FULL_CYC counts. A record with IRQ set counts towards the interrupt as it is written;
DETAIL bit 351 of a kept record is not used by any operation and marks IRQ there (log entry 24). -/
def State.postRecord (s : State) (n : QueueId) (r : Record) (irq : Bool) : State :=
  let q := s.queue n.val
  if q.cplFull || !q.waiting.isEmpty then
    ((s.setQueue n.val { q with waiting := q.waiting ++ [withFld r 511 511 (b2n irq)] }).wait (pageDlk 0 + 0x58)).blame q
  else
    let s := s.putRecord n r
    if irq then s.countIrq n else s

/-- Free every object an operation holds: source holds, REF counts, FILL marks and context references (R124, R156, R205). -/
def State.releaseHolds (s : State) (o : Op) : State :=
  let dir := o.pages.foldl (fun m p =>
    let e := SMap.get dirReset m p
    SMap.put dirReset m p (withFld e 25 18 (fld e 25 18 - 1))) s.dir
  let dir := o.fills.foldl (fun m p =>
    let e := SMap.get dirReset m p
    if fld e 28 26 = 1 then SMap.put dirReset m p (withFld e 28 26 0) else m) dir
  let ctxs := o.ctxs.foldl (fun m c =>
    let e := SMap.get ctxReset m c
    SMap.put ctxReset m c (withFld e 719 704 (fld e 719 704 - 1))) s.ctxs
  { s with dir := dir, ctxs := ctxs }

/-- An operation completes: it leaves the outstanding set, its holds end and its record is written. -/
def State.complete (s : State) (o : Op) (status cause count detail : Nat) : State :=
  let s := (s.dropOp o.ref).releaseHolds o
  let (cycle, s) := s.draw
  let s := s.postRecord o.queue (completionRecord o false status cause count s.beatNow cycle detail) (flag o.desc 18)
  { s with lastCpl := some { queue := o.queue, opId := BitVec.ofNat 16 (fld o.desc 51 36), status := status, cause := cause,
                             count := count, detail := detail } }

/-- Completion with status done. -/
def State.done (s : State) (o : Op) : State := s.complete o 0 0 0 0

/-- Completion with an operation fault. -/
def State.faultOp (s : State) (o : Op) (cause : Nat) : State := s.complete o 1 cause 0 0

/-- Every operation of a list completes with a status. -/
def State.completeAll (s : State) (os : List Op) (status : Nat) : State := os.foldl (fun s o => s.complete o status 0 0 0) s

end Sys2Proof.Machine
end

