-- ==== Sys2Proof/Machine/Store.lean ====
section
/-! DEFINITION. The calibration store (R404 to R408): sectors, records, what is in force, compaction. -/

namespace Sys2Proof.Machine

/-! ## Sectors -/

def sectorReset : Nat × Nat × Nat := (0xFF, 0, 0)

/-- STATE, erase count and bytes used of a log sector. -/
def Store.sector (x : Store) (i : Nat) : Nat × Nat × Nat := SMap.get sectorReset x.sectors i

def Store.setSector (x : Store) (i : Nat) (v : Nat × Nat × Nat) : Store := { x with sectors := SMap.put sectorReset x.sectors i v }

def logSectors : List Nat := (List.range 1008).map (· + 16)

/-- Erased log sectors (Table 16-5, STORE_STATE). -/
def Store.erased (x : Store) : Nat := (logSectors.filter (fun i => decide ((x.sector i).1 = 0xFF))).length

/-- Bytes of a record on flash: header, payload, CRC word and commit word. -/
def recordBytes (payload : List Byte) : Nat := 48 + (payload.length + 15) / 16 * 16

/-- The open sector, else the lowest erased one, opened. -/
def Store.openSector (x : Store) (need : Nat) : Option (Nat × Store) :=
  match logSectors.find? (fun i => let s := x.sector i; decide (s.1 = 0x7F) && decide (s.2.2 + need ≤ 65536)) with
  | some i => some (i, x)
  | none =>
    let full := (logSectors.filter (fun i => decide ((x.sector i).1 = 0x7F))).foldl (fun (x : Store) i =>
      x.setSector i (0x3F, (x.sector i).2.1, (x.sector i).2.2)) x
    match logSectors.find? (fun i => decide ((full.sector i).1 = 0xFF)) with
    | some i => some (i, full.setSector i (0x7F, (full.sector i).2.1, 32))
    | none => none

/-- Write one record; it counts where it reads back (R406). Its SEQ is used up in any case. -/
def Store.append (x : Store) (type scope poh boot : Nat) (payload : List Byte) (good : Bool) : Store :=
  let need := recordBytes payload
  match x.openSector need with
  | none => x
  | some (i, x) =>
    let s := x.sector i
    let x := x.setSector i (s.1, s.2.1, s.2.2 + need)
    let r : CalRecord := { type := BitVec.ofNat 16 type, scope := BitVec.ofNat 16 scope, seq := x.nextSeq, poh := poh, boot := boot,
                           payload := payload ++ List.replicate ((16 - payload.length % 16) % 16) 0xFF, committed := good, sector := i }
    { x with records := x.records ++ [r], nextSeq := x.nextSeq + 1 }

/-- A record written by firmware (R407). -/
def State.storeRecord (s : State) (type scope : Nat) (payload : List Byte) : State :=
  { s with store := s.store.append type scope s.power.poh s.boot.count payload true }

/-! ## What is in force (R406) -/

/-- Newest counting record of a snapshot. -/
def Store.newest (x : Store) (type scope : Nat) : Option CalRecord :=
  (x.records.filter (fun r => r.committed && decide (r.type.toNat = type) && decide (r.scope.toNat = scope))).foldl
    (fun (b : Option CalRecord) r => match b with
      | none => some r
      | some c => if c.seq ≤ r.seq then some r else some c) none

/-- Counting records of a journal after a SEQ, in SEQ order. -/
def Store.journal (x : Store) (type scope after : Nat) : List CalRecord :=
  x.records.filter (fun r => r.committed && decide (r.type.toNat = type) && decide (r.scope.toNat = scope) && decide (after ≤ r.seq))

/-- Payload of one repair or retirement: pseudo-channel with channel, SID, bank group, bank, row, pool, spare (log entry 37). The
pool is 0 for a retired page. DESIGN CHOICE. -/
def repairPayload (row pool spare : Nat) : List Byte :=
  let page := row / 64
  [row % 64, page / 2 ^ 18 % 4, page / 4 % 4, page % 4, page / 16 % 2 ^ 14 % 256, page / 16 % 2 ^ 14 / 256, pool, spare].map (BitVec.ofNat 8)

/-- Row and pool of a repair payload. -/
def repairOf (bs : List Byte) : Nat × Nat :=
  let b := fun i => (bs.getD i 0).toNat
  ((b 1 * 2 ^ 18 + (b 4 + 256 * b 5) * 16 + b 2 * 4 + b 3) * 64 + b 0, b 6)

def takeEvery (n : Nat) : Nat → List Byte → List (List Byte)
  | 0, _ => []
  | _, [] => []
  | k + 1, bs => bs.take n :: takeEvery n k (bs.drop n)

/-- Repairs and retirements of a stack in force, oldest first (R238): row and pool. -/
def Store.repairs (x : Store) (stack : Nat) : List (Nat × Nat) :=
  let base := x.newest 0x21 stack
  let head := match base with
    | some r => (takeEvery 16 r.payload.length r.payload).map repairOf
    | none => []
  let after := match base with
    | some r => r.seq
    | none => 0
  head ++ (x.journal 0x20 stack after).map (fun r => repairOf r.payload)

/-! ## Compaction (R408) -/

/-- Snapshots to carry over: the newest of every TYPE and SCOPE but for the repair journal, which folds into HBM_SET. -/
def Store.carried (x : Store) : List (Nat × Nat × List Byte) :=
  let keys := (x.records.filter (fun r => r.committed && decide (r.type ≠ 0x20) && decide (r.type ≠ 0x21))).map
    (fun r => (r.type.toNat, r.scope.toNat))
  let snaps := keys.eraseDups.filterMap (fun k => (x.newest k.1 k.2).map (fun r => (k.1, k.2, r.payload)))
  let sets := (List.range 24).filterMap (fun st =>
    let rs := x.repairs st
    if rs.isEmpty then none
    else some (0x21, st, rs.flatMap (fun r => repairPayload r.1 r.2 0 ++ List.replicate 8 0xFF)))
  snaps ++ sets

/-- Compaction: the snapshots go to fresh sectors, then the old sectors are erased. -/
def Store.compact (x : Store) (poh boot : Nat) : Store :=
  let old := logSectors.filter (fun i => decide ((x.sector i).1 ≠ 0xFF))
  let carried := x.carried
  let marked := old.foldl (fun (x : Store) i => x.setSector i (0x1F, (x.sector i).2.1, (x.sector i).2.2)) x
  let fresh := carried.foldl (fun (x : Store) c => x.append c.1 c.2.1 poh boot c.2.2 true) { marked with records := [] }
  { (old.foldl (fun (x : Store) i => x.setSector i (0xFF, (x.sector i).2.1 + 1, 0)) fresh) with compacting := false }

/-- POH_RECORD: a power-on hour has passed; the count is recorded, and every core is an hour further from its test. -/
def execPohRecord (s : State) : Host.Outcome State Fault Refusal :=
  let cells := s.cells.map (fun c => { c with hoursSinceTest := c.hoursSinceTest + 1 })
  let s := { s with power := { s.power with poh := s.power.poh + 1 }, cells := cells }
  .next (s.storeRecord 0x13 0xFFFF (leBytes 4 s.power.poh))

/-- CALIBRATION_RECORD_WRITE: header, payload and CRC are programmed and read back; only then the commit word (R406). -/
def execCalibrationRecordWrite (type scope : BitVec 16) (payload : List Byte) (readsBack : Bool) (s : State) :
    Host.Outcome State Fault Refusal :=
  .next { s with store := s.store.append type.toNat scope.toNat s.power.poh s.boot.count payload readsBack }

/-- STORE_COMPACTION: when fewer than 64 log sectors are erased. -/
def execStoreCompaction (s : State) : Host.Outcome State Fault Refusal :=
  if s.store.erased < 64 then .next { s with store := s.store.compact s.power.poh s.boot.count } else .next s

end Sys2Proof.Machine
end

