-- ==== Sys2Proof/Machine/Fields.lean ====
section
/-! DEFINITION. The fields of the descriptors and records, one accessor for each named field of each table: the name is the
table's prefix and the field's name, the bits are the table's. -/

namespace Sys2Proof.Machine

/-! ## Table 17-2: common operation header -/

def hdClass {n : Nat} (d : BitVec n) : Nat := fld d 3 0
def hdOp {n : Nat} (d : BitVec n) : Nat := fld d 11 4
def hdCore {n : Nat} (d : BitVec n) : Nat := fld d 16 12
def hdEngine {n : Nat} (d : BitVec n) : Nat := fld d 17 17
def hdIrq {n : Nat} (d : BitVec n) : Nat := fld d 18 18
def hdFence {n : Nat} (d : BitVec n) : Nat := fld d 19 19
def hdTag {n : Nat} (d : BitVec n) : Nat := fld d 35 20
def hdOpId {n : Nat} (d : BitVec n) : Nat := fld d 51 36
def hdSclass {n : Nat} (d : BitVec n) : Nat := fld d 58 52

/-! ## Table 4-6: matrix -/

def mxStep {n : Nat} (d : BitVec n) : Nat := fld d 127 64
def mxRtid {n : Nat} (d : BitVec n) : Nat := fld d 159 128
def mxElemBase {n : Nat} (d : BitVec n) : Nat := fld d 195 160
def mxRowPitch {n : Nat} (d : BitVec n) : Nat := fld d 219 196
def mxXFmt {n : Nat} (d : BitVec n) : Nat := fld d 223 220
def mxWFmt {n : Nat} (d : BitVec n) : Nat := fld d 227 224
def mxDstFmt {n : Nat} (d : BitVec n) : Nat := fld d 231 228
def mxSat {n : Nat} (d : BitVec n) : Nat := fld d 233 232
def mxXPlank {n : Nat} (d : BitVec n) : Nat := fld d 234 234
def mxWPlank {n : Nat} (d : BitVec n) : Nat := fld d 235 235
def mxBank {n : Nat} (d : BitVec n) : Nat := fld d 236 236
def mxLoad {n : Nat} (d : BitVec n) : Nat := fld d 237 237
def mxTrans {n : Nat} (d : BitVec n) : Nat := fld d 238 238
def mxWSpace {n : Nat} (d : BitVec n) : Nat := fld d 239 239
def mxTile {n : Nat} (d : BitVec n) : Nat := fld d 244 240
def mxAcc {n : Nat} (d : BitVec n) : Nat := fld d 246 245
def mxClose {n : Nat} (d : BitVec n) : Nat := fld d 247 247
def mxRowsM1 {n : Nat} (d : BitVec n) : Nat := fld d 257 248
def mxSegsM1 {n : Nat} (d : BitVec n) : Nat := fld d 261 258
def mxKlastM1 {n : Nat} (d : BitVec n) : Nat := fld d 270 262
def mxXAddr {n : Nat} (d : BitVec n) : Nat := fld d 295 272
def mxXSegStride {n : Nat} (d : BitVec n) : Nat := fld d 311 296
def mxWAddr {n : Nat} (d : BitVec n) : Nat := fld d 343 312
def mxWSegStride {n : Nat} (d : BitVec n) : Nat := fld d 359 344
def mxInitAddr {n : Nat} (d : BitVec n) : Nat := fld d 383 360
def mxDstAddr {n : Nat} (d : BitVec n) : Nat := fld d 407 384
def mxDstPitch {n : Nat} (d : BitVec n) : Nat := fld d 423 408
def mxEpi {n : Nat} (d : BitVec n) : Nat := fld d 427 424
def mxEpiAddr {n : Nat} (d : BitVec n) : Nat := fld d 451 428
def mxWatchEn {n : Nat} (d : BitVec n) : Nat := fld d 452 452
def mxWatchId {n : Nat} (d : BitVec n) : Nat := fld d 464 453
def mxJoin {n : Nat} (d : BitVec n) : Nat := fld d 480 465

/-! ## Table 3-6: vector -/

def veStep {n : Nat} (d : BitVec n) : Nat := fld d 127 64
def veRtid {n : Nat} (d : BitVec n) : Nat := fld d 159 128
def veElemBase {n : Nat} (d : BitVec n) : Nat := fld d 195 160
def veRowPitch {n : Nat} (d : BitVec n) : Nat := fld d 219 196
def veAFmt {n : Nat} (d : BitVec n) : Nat := fld d 223 220
def veBFmt {n : Nat} (d : BitVec n) : Nat := fld d 227 224
def veDstFmt {n : Nat} (d : BitVec n) : Nat := fld d 231 228
def veSat {n : Nat} (d : BitVec n) : Nat := fld d 233 232
def veAPlank {n : Nat} (d : BitVec n) : Nat := fld d 234 234
def veDstPlank {n : Nat} (d : BitVec n) : Nat := fld d 235 235
def veScaleMode {n : Nat} (d : BitVec n) : Nat := fld d 237 236
def veWatchEn {n : Nat} (d : BitVec n) : Nat := fld d 238 238
def veWatchId {n : Nat} (d : BitVec n) : Nat := fld d 250 239
def veFunc {n : Nat} (d : BitVec n) : Nat := fld d 255 251
def veAAddr {n : Nat} (d : BitVec n) : Nat := fld d 279 256
def veBAddr {n : Nat} (d : BitVec n) : Nat := fld d 303 280
def veCAddr {n : Nat} (d : BitVec n) : Nat := fld d 327 304
def veDstAddr {n : Nat} (d : BitVec n) : Nat := fld d 351 328
def veAuxAddr {n : Nat} (d : BitVec n) : Nat := fld d 375 352
def veRowsM1 {n : Nat} (d : BitVec n) : Nat := fld d 391 376
def veColsM1 {n : Nat} (d : BitVec n) : Nat := fld d 404 392
def veAPitch {n : Nat} (d : BitVec n) : Nat := fld d 421 406
def veBPitch {n : Nat} (d : BitVec n) : Nat := fld d 437 422
def veCPitch {n : Nat} (d : BitVec n) : Nat := fld d 453 438
def veDstPitch {n : Nat} (d : BitVec n) : Nat := fld d 469 454
def veScaleCode {n : Nat} (d : BitVec n) : Nat := fld d 477 470
def veScalar {n : Nat} (d : BitVec n) : Nat := fld d 493 478

/-! ## Table 6-4: tenon -/

def tnStep {n : Nat} (d : BitVec n) : Nat := fld d 127 64
def tnRtid {n : Nat} (d : BitVec n) : Nat := fld d 159 128
def tnElemBase {n : Nat} (d : BitVec n) : Nat := fld d 195 160
def tnRowPitch {n : Nat} (d : BitVec n) : Nat := fld d 219 196
def tnMode {n : Nat} (d : BitVec n) : Nat := fld d 223 220
def tnXFmt {n : Nat} (d : BitVec n) : Nat := fld d 227 224
def tnWFmt {n : Nat} (d : BitVec n) : Nat := fld d 231 228
def tnSat {n : Nat} (d : BitVec n) : Nat := fld d 233 232
def tnXPlank {n : Nat} (d : BitVec n) : Nat := fld d 234 234
def tnAct {n : Nat} (d : BitVec n) : Nat := fld d 235 235
def tnGated {n : Nat} (d : BitVec n) : Nat := fld d 236 236
def tnSkipBad {n : Nat} (d : BitVec n) : Nat := fld d 237 237
def tnTarget {n : Nat} (d : BitVec n) : Nat := fld d 242 240
def tnMortise {n : Nat} (d : BitVec n) : Nat := fld d 248 243
def tnRowBase {n : Nat} (d : BitVec n) : Nat := fld d 255 249
def tnLayer {n : Nat} (d : BitVec n) : Nat := fld d 263 256
def tnFrame {n : Nat} (d : BitVec n) : Nat := fld d 271 264
def tnRowsM1 {n : Nat} (d : BitVec n) : Nat := fld d 284 272
def tnGroupsM1 {n : Nat} (d : BitVec n) : Nat := fld d 293 285
def tnBlock {n : Nat} (d : BitVec n) : Nat := fld d 300 294
def tnKsegsM1 {n : Nat} (d : BitVec n) : Nat := fld d 307 301
def tnGtAddr {n : Nat} (d : BitVec n) : Nat := fld d 331 308
def tnXAddr {n : Nat} (d : BitVec n) : Nat := fld d 355 332
def tnXPitch {n : Nat} (d : BitVec n) : Nat := fld d 371 356
def tnUAddr {n : Nat} (d : BitVec n) : Nat := fld d 395 372
def tnUPitch {n : Nat} (d : BitVec n) : Nat := fld d 411 396
def tnJoin {n : Nat} (d : BitVec n) : Nat := fld d 427 412
def tnAuxAddr {n : Nat} (d : BitVec n) : Nat := fld d 451 428
def tnSkipAddr {n : Nat} (d : BitVec n) : Nat := fld d 475 452
def tnDstAddr {n : Nat} (d : BitVec n) : Nat := fld d 499 476

/-! ## Table 8-7: move -/

def mvSrcAddr {n : Nat} (d : BitVec n) : Nat := fld d 107 64
def mvDstAddr {n : Nat} (d : BitVec n) : Nat := fld d 151 108
def mvSrcSp {n : Nat} (d : BitVec n) : Nat := fld d 152 152
def mvDstSp {n : Nat} (d : BitVec n) : Nat := fld d 153 153
def mvSrcCore {n : Nat} (d : BitVec n) : Nat := fld d 158 154
def mvCached {n : Nat} (d : BitVec n) : Nat := fld d 159 159
def mvDstCores {n : Nat} (d : BitVec n) : Nat := fld d 179 160
def mvReleaseSrc {n : Nat} (d : BitVec n) : Nat := fld d 180 180
def mvZero {n : Nat} (d : BitVec n) : Nat := fld d 181 181
def mvRowM1 {n : Nat} (d : BitVec n) : Nat := fld d 199 184
def mvRowsM1 {n : Nat} (d : BitVec n) : Nat := fld d 215 200
def mvSrcPitch {n : Nat} (d : BitVec n) : Nat := fld d 239 216
def mvDstPitch {n : Nat} (d : BitVec n) : Nat := fld d 263 240
def mvWslot {n : Nat} (d : BitVec n) : Nat := fld d 266 264
def mvWfill {n : Nat} (d : BitVec n) : Nat := fld d 267 267
def mvWlast {n : Nat} (d : BitVec n) : Nat := fld d 268 268
def mvWlayer {n : Nat} (d : BitVec n) : Nat := fld d 276 269

/-! ## Table 5-6: truss -/

def trStep {n : Nat} (d : BitVec n) : Nat := fld d 127 64
def trRtid {n : Nat} (d : BitVec n) : Nat := fld d 159 128
def trElemBase {n : Nat} (d : BitVec n) : Nat := fld d 195 160
def trRowPitch {n : Nat} (d : BitVec n) : Nat := fld d 219 196
def trDstFmt {n : Nat} (d : BitVec n) : Nat := fld d 223 220
def trSat {n : Nat} (d : BitVec n) : Nat := fld d 225 224
def trKind {n : Nat} (d : BitVec n) : Nat := fld d 228 226
def trPair2 {n : Nat} (d : BitVec n) : Nat := fld d 229 229
def trTile {n : Nat} (d : BitVec n) : Nat := fld d 234 230
def trRowsM1 {n : Nat} (d : BitVec n) : Nat := fld d 244 235
def trLeaves {n : Nat} (d : BitVec n) : Nat := fld d 287 248
def trRoot {n : Nat} (d : BitVec n) : Nat := fld d 295 288
def trDstAddr {n : Nat} (d : BitVec n) : Nat := fld d 319 296
def trDstPitch {n : Nat} (d : BitVec n) : Nat := fld d 335 320
def trEpi {n : Nat} (d : BitVec n) : Nat := fld d 339 336
def trEpiAddr {n : Nat} (d : BitVec n) : Nat := fld d 363 340
def trIdxAddr {n : Nat} (d : BitVec n) : Nat := fld d 387 364
def trWatchEn {n : Nat} (d : BitVec n) : Nat := fld d 388 388
def trWatchId {n : Nat} (d : BitVec n) : Nat := fld d 400 389

/-! ## Table 12-3: shard gather -/

def sgSrcAddr {n : Nat} (d : BitVec n) : Nat := fld d 107 64
def sgDstAddr {n : Nat} (d : BitVec n) : Nat := fld d 151 108
def sgDstSp {n : Nat} (d : BitVec n) : Nat := fld d 152 152
def sgDstCores {n : Nat} (d : BitVec n) : Nat := fld d 172 153
def sgShardM1 {n : Nat} (d : BitVec n) : Nat := fld d 204 173
def sgAxes {n : Nat} (d : BitVec n) : Nat := fld d 207 205
def sgTagSlot {n : Nat} (d : BitVec n) : Nat := fld d 217 208
def sgCheck {n : Nat} (d : BitVec n) : Nat := fld d 218 218

/-! ## Table 12-5: stage send -/

def ssQid {n : Nat} (d : BitVec n) : Nat := fld d 69 64
def ssMb {n : Nat} (d : BitVec n) : Nat := fld d 101 70
def ssSrcAddr {n : Nat} (d : BitVec n) : Nat := fld d 145 102
def ssSrcSp {n : Nat} (d : BitVec n) : Nat := fld d 146 146
def ssSrcCore {n : Nat} (d : BitVec n) : Nat := fld d 151 147
def ssBytesM1 {n : Nat} (d : BitVec n) : Nat := fld d 183 152

/-! ## Table 12-6: scarf -/

def sfRegion {n : Nat} (d : BitVec n) : Nat := fld d 107 64
def sfRegionLen {n : Nat} (d : BitVec n) : Nat := fld d 139 108
def sfPieceAddr {n : Nat} (d : BitVec n) : Nat := fld d 163 140
def sfPcore {n : Nat} (d : BitVec n) : Nat := fld d 168 164
def sfPiecesM1 {n : Nat} (d : BitVec n) : Nat := fld d 184 169
def sfRoundsM1 {n : Nat} (d : BitVec n) : Nat := fld d 192 185
def sfStagePart {n : Nat} (d : BitVec n) : Nat := fld d 198 193
def sfStagePartsM1 {n : Nat} (d : BitVec n) : Nat := fld d 204 199

/-! ## Table 13-1: reduce -/

def rdStep {n : Nat} (d : BitVec n) : Nat := fld d 127 64
def rdRtid {n : Nat} (d : BitVec n) : Nat := fld d 159 128
def rdElemBase {n : Nat} (d : BitVec n) : Nat := fld d 195 160
def rdSrcFmt {n : Nat} (d : BitVec n) : Nat := fld d 199 196
def rdDstFmt {n : Nat} (d : BitVec n) : Nat := fld d 203 200
def rdSat {n : Nat} (d : BitVec n) : Nat := fld d 205 204
def rdChannel {n : Nat} (d : BitVec n) : Nat := fld d 209 206
def rdDouble {n : Nat} (d : BitVec n) : Nat := fld d 210 210
def rdAxes {n : Nat} (d : BitVec n) : Nat := fld d 213 211
def rdSrcsM1 {n : Nat} (d : BitVec n) : Nat := fld d 217 214
def rdThinM1 {n : Nat} (d : BitVec n) : Nat := fld d 223 218
def rdElemsM1 {n : Nat} (d : BitVec n) : Nat := fld d 255 224
def rdCollTag {n : Nat} (d : BitVec n) : Nat := fld d 287 256
def rdSrcAddr {n : Nat} (d : BitVec n) : Nat := fld d 331 288
def rdSrcStride {n : Nat} (d : BitVec n) : Nat := fld d 355 332
def rdDstAddr {n : Nat} (d : BitVec n) : Nat := fld d 399 356
def rdAccAddr {n : Nat} (d : BitVec n) : Nat := fld d 443 400
def rdTimeout {n : Nat} (d : BitVec n) : Nat := fld d 459 444

/-! ## Table 12-1: job map -/

def jmJobId {n : Nat} (d : BitVec n) : Nat := fld d 31 0
def jmLenM1 {n : Nat} (d : BitVec n) : Nat := fld d 61 32
def jmPos {n : Nat} (d : BitVec n) : Nat := fld d 91 62
def jmVstagesM1 {n : Nat} (d : BitVec n) : Nat := fld d 94 92
def jmSchedule {n : Nat} (d : BitVec n) : Nat := fld d 95 95
def jmMicroM1 {n : Nat} (d : BitVec n) : Nat := fld d 111 96
def jmStepBeats {n : Nat} (d : BitVec n) : Nat := fld d 143 112
def jmFBeats {n : Nat} (d : BitVec n) : Nat := fld d 159 144
def jmBBeats {n : Nat} (d : BitVec n) : Nat := fld d 175 160
def jmWBeats {n : Nat} (d : BitVec n) : Nat := fld d 191 176
def jmLongCount {n : Nat} (d : BitVec n) : Nat := fld d 199 192
def jmLfBeats {n : Nat} (d : BitVec n) : Nat := fld d 215 200
def jmLbBeats {n : Nat} (d : BitVec n) : Nat := fld d 231 216
def jmLwBeats {n : Nat} (d : BitVec n) : Nat := fld d 247 232

/-! ## Table 12-4: stage queue record -/

def sqQid {n : Nat} (d : BitVec n) : Nat := fld d 5 0
def sqDir {n : Nat} (d : BitVec n) : Nat := fld d 6 6
def sqEnd {n : Nat} (d : BitVec n) : Nat := fld d 7 7
def sqDepthM1 {n : Nat} (d : BitVec n) : Nat := fld d 13 8
def sqPort {n : Nat} (d : BitVec n) : Nat := fld d 17 14
def sqSlotBytes {n : Nat} (d : BitVec n) : Nat := fld d 63 32
def sqBase {n : Nat} (d : BitVec n) : Nat := fld d 107 64
def sqSp {n : Nat} (d : BitVec n) : Nat := fld d 108 108
def sqCore {n : Nat} (d : BitVec n) : Nat := fld d 113 109

/-! ## Table 10-1: frame record -/

def frFrameId {n : Nat} (d : BitVec n) : Nat := fld d 7 0
def frLayers {n : Nat} (d : BitVec n) : Nat := fld d 15 8
def frGen {n : Nat} (d : BitVec n) : Nat := fld d 31 16
def frCtxPolicy {n : Nat} (d : BitVec n) : Nat := fld d 32 32
def frTolRel {n : Nat} (d : BitVec n) : Nat := fld d 63 48
def frTolAbs {n : Nat} (d : BitVec n) : Nat := fld d 79 64
def frBaseMacs {n : Nat} (d : BitVec n) : Nat := fld d 191 128
def frBaseRate {n : Nat} (d : BitVec n) : Nat := fld d 223 192
def frTenonBytes {n : Nat} (d : BitVec n) : Nat := fld d 255 224
def frTeUnits {n : Nat} (d : BitVec n) : Nat := fld d 271 256
def frLayerMap {n : Nat} (d : BitVec n) : Nat := fld d 331 288
def frOwner {n : Nat} (d : BitVec n) : Nat := fld d 357 352

/-! ## Table 10-2: context descriptor -/

def cxContextId {n : Nat} (d : BitVec n) : Nat := fld d 15 0
def cxOwner {n : Nat} (d : BitVec n) : Nat := fld d 21 16
def cxFrame {n : Nat} (d : BitVec n) : Nat := fld d 31 24
def cxState {n : Nat} (d : BitVec n) : Nat := fld d 34 32
def cxKgen {n : Nat} (d : BitVec n) : Nat := fld d 35 35
def cxEpoch {n : Nat} (d : BitVec n) : Nat := fld d 36 36
def cxWPlank {n : Nat} (d : BitVec n) : Nat := fld d 37 37
def cxWFmt {n : Nat} (d : BitVec n) : Nat := fld d 41 38
def cxScale {n : Nat} (d : BitVec n) : Nat := fld d 63 48
def cxRanks {n : Nat} (d : BitVec n) : Nat := fld d 99 64
def cxFrameGen {n : Nat} (d : BitVec n) : Nat := fld d 115 100
def cxSlice0 {n : Nat} (d : BitVec n) : Nat := fld d 171 128
def cxSliceStride {n : Nat} (d : BitVec n) : Nat := fld d 195 172
def cxSlice1 {n : Nat} (d : BitVec n) : Nat := fld d 239 196
def cxOptAddr {n : Nat} (d : BitVec n) : Nat := fld d 299 256
def cxOptStride {n : Nat} (d : BitVec n) : Nat := fld d 323 300
def cxWatchFirst {n : Nat} (d : BitVec n) : Nat := fld d 335 324
def cxWatchCount {n : Nat} (d : BitVec n) : Nat := fld d 347 336
def cxProbeAddr {n : Nat} (d : BitVec n) : Nat := fld d 427 384
def cxProbeRows {n : Nat} (d : BitVec n) : Nat := fld d 434 428
def cxRefs {n : Nat} (d : BitVec n) : Nat := fld d 719 704
def cxUser {n : Nat} (d : BitVec n) : Nat := fld d 1023 960

/-! ## Table 7-1: watch entry -/

def weElems {n : Nat} (d : BitVec n) : Nat := fld d 47 0
def weZeros {n : Nat} (d : BitVec n) : Nat := fld d 95 48
def weSats {n : Nat} (d : BitVec n) : Nat := fld d 143 96
def weNonfin {n : Nat} (d : BitVec n) : Nat := fld d 191 144
def weRecomps {n : Nat} (d : BitVec n) : Nat := fld d 207 192
def weStillSat {n : Nat} (d : BitVec n) : Nat := fld d 223 208
def weAmaxRun {n : Nat} (d : BitVec n) : Nat := fld d 239 224
def weBootLeft {n : Nat} (d : BitVec n) : Nat := fld d 255 240
def weEnable {n : Nat} (d : BitVec n) : Nat := fld d 256 256
def weRecomp {n : Nat} (d : BitVec n) : Nat := fld d 257 257
def weK {n : Nat} (d : BitVec n) : Nat := fld d 261 258
def weThresh {n : Nat} (d : BitVec n) : Nat := fld d 265 262
def weCloseExp {n : Nat} (d : BitVec n) : Nat := fld d 273 266
def weMargin {n : Nat} (d : BitVec n) : Nat := fld d 277 274
def wePolicy {n : Nat} (d : BitVec n) : Nat := fld d 278 278
def weHistPtr {n : Nat} (d : BitVec n) : Nat := fld d 283 280
def weHistN {n : Nat} (d : BitVec n) : Nat := fld d 288 284
def weBootN {n : Nat} (d : BitVec n) : Nat := fld d 307 292
def weTemPart {n : Nat} (d : BitVec n) : Nat := fld d 313 308
def weTemOff {n : Nat} (d : BitVec n) : Nat := fld d 344 320
def weHistory {n : Nat} (d : BitVec n) : Nat := fld d 639 384

end Sys2Proof.Machine
end

