-- ==== Sys2Proof/Machine/Numbers.lean ====
section
/-! DEFINITION. The number formats, exact arithmetic, the two rounding methods, saturation, the generator of the stochastic
bits, and the functions of the vector engine (R67 to R84, R97). Values are exact; a value that is no dyadic rational is held
as its truncation to many more bits than any format keeps, with a sticky last bit, so that each rounding below decides as the
exact value would (log entry 7). -/

namespace Sys2Proof.Machine

/-! ## Formats (Tables 3-1 and 3-2) -/

/-- How a format uses its largest exponent: infinities and NaN, one NaN, nothing, or it is two's complement. -/
inductive Specials where
  | ieee | nanOnly | none | integer
  deriving DecidableEq, Repr

structure Fmt where
  bits : Nat
  ebits : Nat
  mbits : Nat
  bias : Int
  special : Specials
  deriving DecidableEq, Repr

def fp32 : Fmt := ⟨32, 8, 23, 127, .ieee⟩
def bf16 : Fmt := ⟨16, 8, 7, 127, .ieee⟩
def fp16 : Fmt := ⟨16, 5, 10, 15, .ieee⟩
/-- Open precision (R73). -/
def op24 : Fmt := ⟨24, 8, 15, 127, .ieee⟩

/-- Format of a code; none for a reserved code (R67). -/
def fmt? : Nat → Option Fmt
  | 0x0 => some fp32
  | 0x1 => some bf16
  | 0x2 => some fp16
  | 0x3 => some ⟨8, 4, 3, 7, .nanOnly⟩
  | 0x4 => some ⟨8, 5, 2, 15, .ieee⟩
  | 0x5 => some ⟨6, 3, 2, 3, .none⟩
  | 0x6 => some ⟨6, 2, 3, 1, .none⟩
  | 0x7 => some ⟨4, 2, 1, 1, .none⟩
  | 0x8 => some ⟨8, 0, 6, 0, .integer⟩
  | 0x9 => some ⟨4, 0, 2, 0, .integer⟩
  | _ => none

/-- The format of a code that a check has accepted. -/
def fmtOf (c : Nat) : Fmt := (fmt? c).getD fp32

/-- Formats 0x3 to 0x9 carry plank scales. -/
def isPlanked (c : Nat) : Bool := decide (3 ≤ c) && decide (c ≤ 9)

/-- BF16 or FP16. -/
def is16 (c : Nat) : Bool := decide (c = 1) || decide (c = 2)

/-- Elements of a plank (R71). -/
def plankSize (bit : Nat) : Nat := if bit = 0 then 32 else 16

/-! ## Exact values -/

def Val.zero : Val := .num false 0 0

def Val.ofInt (i : Int) (e : Int) : Val := .num (decide (i < 0)) i.natAbs e

def Val.isNan : Val → Bool
  | .nan => true
  | _ => false

def Val.isFinite : Val → Bool
  | .num _ _ _ => true
  | _ => false

def Val.isZero : Val → Bool
  | .num _ 0 _ => true
  | _ => false

def Val.isNeg : Val → Bool
  | .nan => false
  | .inf n => n
  | .num n _ _ => n

def Val.neg : Val → Val
  | .nan => .nan
  | .inf n => .inf (!n)
  | .num n m e => .num (!n) m e

def Val.abs : Val → Val
  | .nan => .nan
  | .inf _ => .inf false
  | .num _ m e => .num false m e

/-- Signed mantissa. -/
def signed (n : Bool) (m : Nat) : Int := if n then -(m : Int) else m

/-- Exact sum; a sum whose exact value is zero is +0 (R69). -/
def Val.add : Val → Val → Val
  | .nan, _ => .nan
  | _, .nan => .nan
  | .inf a, .inf b => if a = b then .inf a else .nan
  | .inf a, _ => .inf a
  | _, .inf b => .inf b
  | .num na ma ea, .num nb mb eb =>
    let e := min ea eb
    let x := signed na (ma * 2 ^ (ea - e).toNat) + signed nb (mb * 2 ^ (eb - e).toNat)
    .num (decide (x < 0)) x.natAbs e

def Val.sub (a b : Val) : Val := a.add b.neg

/-- Exact product; a zero or infinite factor follows IEEE 754 (R97). -/
def Val.mul : Val → Val → Val
  | .nan, _ => .nan
  | _, .nan => .nan
  | .inf a, .inf b => .inf (a != b)
  | .inf a, .num n m _ => if m = 0 then .nan else .inf (a != n)
  | .num n m _, .inf b => if m = 0 then .nan else .inf (n != b)
  | .num na ma ea, .num nb mb eb => .num (na != nb) (ma * mb) (ea + eb)

/-- Order of two values that are not NaN, zeros equal: is a below b? -/
def Val.lt : Val → Val → Bool
  | .nan, _ => false
  | _, .nan => false
  | .inf a, .inf b => a && !b
  | .inf a, _ => a
  | _, .inf b => !b
  | .num na ma ea, .num nb mb eb =>
    let e := min ea eb
    decide (signed na (ma * 2 ^ (ea - e).toNat) < signed nb (mb * 2 ^ (eb - e).toNat))

/-- Exponent of a nonzero finite magnitude: floor(log2 |v|). -/
def Val.log2 : Val → Int
  | .num _ m e => (Nat.log2 m : Int) + e
  | _ => 0

/-- Value times a power of two. -/
def Val.scale (v : Val) (k : Int) : Val :=
  match v with
  | .num n m e => .num n m (e + k)
  | x => x

/-- Sum of a list from +0, exact. -/
def Val.sum (vs : List Val) : Val := vs.foldl Val.add Val.zero

/-! ## Decoding -/

def Fmt.emax (f : Fmt) : Nat := 2 ^ f.ebits - 1

/-- The Table 3-2 value of a code. -/
def Fmt.decode (f : Fmt) (c : Nat) : Val :=
  match f.special with
  | .integer => Val.ofInt (toSigned f.bits (c % 2 ^ f.bits)) (-(f.mbits : Int))
  | sp =>
    let n := decide (c / 2 ^ (f.bits - 1) % 2 = 1)
    let e := c / 2 ^ f.mbits % 2 ^ f.ebits
    let m := c % 2 ^ f.mbits
    if sp = .ieee ∧ e = f.emax then (if m = 0 then .inf n else .nan)
    else if sp = .nanOnly ∧ e = f.emax ∧ m = 2 ^ f.mbits - 1 then .nan
    else if e = 0 then .num n m (1 - f.bias - f.mbits)
    else .num n (m + 2 ^ f.mbits) ((e : Int) - f.bias - f.mbits)

/-- Value of an element under a plank scale code (R71, R72). -/
def scaled (v : Val) (code : Nat) : Val := if code = 255 then .nan else v.scale ((code : Int) - 127)

/-! ## Rounding (R81, R82) -/

/-- Exponent of the smallest step of a format: the subnormal step, or the integer step. -/
def Fmt.minStep (f : Fmt) : Int :=
  match f.special with
  | .integer => -(f.mbits : Int)
  | _ => 1 - f.bias - f.mbits

/-- Step at a nonzero magnitude m × 2^e. -/
def Fmt.step (f : Fmt) (m : Nat) (e : Int) : Int :=
  match f.special with
  | .integer => -(f.mbits : Int)
  | _ => max ((Nat.log2 m : Int) + e - f.mbits) f.minStep

/-- A magnitude in steps of 2^u: the truncated count, the discarded part and its length in bits. -/
def inSteps (m : Nat) (e u : Int) : Nat × Nat × Nat :=
  if u ≤ e then (m * 2 ^ (e - u).toNat, 0, 0) else let k := (u - e).toNat; (m / 2 ^ k, m % 2 ^ k, k)

/-- Nearest, ties to even: the count of steps. -/
def rneCount (m : Nat) (e u : Int) : Nat :=
  let (q, r, k) := inSteps m e u
  if k = 0 then q
  else if 2 ^ (k - 1) < r then q + 1
  else if r = 2 ^ (k - 1) then q + q % 2
  else q

/-- Stochastic: the discarded part to 16 fraction bits against the 16 random bits (R82). -/
def srCount (m : Nat) (e u : Int) (rand : Nat) : Nat :=
  let (q, r, k) := inSteps m e u
  if rand < r * 2 ^ 16 / 2 ^ k then q + 1 else q

/-- Largest finite magnitude as count and step. -/
def Fmt.maxFinite (f : Fmt) : Nat × Int :=
  match f.special with
  | .integer => (2 ^ (f.bits - 1) - 1, -(f.mbits : Int))
  | .ieee => (2 ^ (f.mbits + 1) - 1, (f.emax : Int) - 1 - f.bias - f.mbits)
  | .nanOnly => (2 ^ (f.mbits + 1) - 2, (f.emax : Int) - f.bias - f.mbits)
  | .none => (2 ^ (f.mbits + 1) - 1, (f.emax : Int) - f.bias - f.mbits)

/-- Does a magnitude q × 2^u exceed the largest finite one? -/
def Fmt.beyond (f : Fmt) (q : Nat) (u : Int) : Bool :=
  let (mq, mu) := f.maxFinite
  if q = 0 then false
  else
    let e := min u mu
    decide (mq * 2 ^ (mu - e).toNat < q * 2 ^ (u - e).toNat)

/-- Code of a magnitude q × 2^u on the format's own grid, with its sign. -/
def Fmt.encode (f : Fmt) (n : Bool) (q : Nat) (u : Int) : Nat :=
  match f.special with
  | .integer => ofSigned f.bits (signed n q)
  | _ =>
    let sign := b2n n * 2 ^ (f.bits - 1)
    if q = 0 then sign
    else if q < 2 ^ f.mbits then sign + q
    else if q = 2 ^ (f.mbits + 1) then sign + ((u + 1 + f.bias + f.mbits).toNat) * 2 ^ f.mbits
    else sign + ((u + f.bias + f.mbits).toNat) * 2 ^ f.mbits + (q - 2 ^ f.mbits)

def Fmt.infCode (f : Fmt) (n : Bool) : Nat := b2n n * 2 ^ (f.bits - 1) + f.emax * 2 ^ f.mbits

def Fmt.maxCode (f : Fmt) (n : Bool) : Nat := let (q, u) := f.maxFinite; f.encode n q u

/-- The canonical NaN (R70). -/
def Fmt.nanCode (f : Fmt) : Nat :=
  if f.bits = 8 then 0x7F else f.emax * 2 ^ f.mbits + 2 ^ (f.mbits - 1)

/-- Has the format a NaN of its own? -/
def Fmt.hasNan (f : Fmt) : Bool := decide (f.special = .ieee) || decide (f.special = .nanOnly)

/-- A stored element: its code, whether a finite value overflowed, whether it was NaN, and whether its plank turns NaN (R74). -/
structure Stored where
  code : Nat
  sat : Bool
  nan : Bool
  plankNan : Bool
  deriving DecidableEq, Repr

/-- Round a value with the given count and apply the saturation mode of Table 3-3. -/
def Fmt.store (f : Fmt) (sat : Nat) (count : Nat → Int → Int → Nat) (v : Val) : Stored :=
  match v with
  | .nan =>
    if sat = 0 then ⟨0, false, true, false⟩
    else if f.hasNan then ⟨f.nanCode, false, true, false⟩
    else ⟨0, false, true, true⟩
  | .inf n => ⟨if sat = 2 then f.infCode n else f.maxCode n, false, false, false⟩
  | .num n m e =>
    if m = 0 then ⟨f.encode n 0 0, false, false, false⟩
    else
      let u := f.step m e
      let q := count m e u
      if f.beyond q u then ⟨if sat = 2 then f.infCode n else f.maxCode n, true, false, false⟩
      else ⟨f.encode n q u, false, false, false⟩

/-- Nearest-even storage. -/
def Fmt.rne (f : Fmt) (sat : Nat) (v : Val) : Stored := f.store sat rneCount v

/-- Stochastic storage under a random value (R82). -/
def Fmt.sr (f : Fmt) (sat rand : Nat) (v : Val) : Stored := f.store sat (fun m e u => srCount m e u rand) v

/-- Round to OP24 (R73): an infinity beyond the range. -/
def rne24 (v : Val) : Op24 := BitVec.ofNat 24 (op24.rne 2 v).code

/-- Value of an OP24 code. -/
def val24 (x : Op24) : Val := op24.decode x.toNat

/-- rn32: round an exact value to FP32, infinities and NaN kept (R98, R99). -/
def rn32 (v : Val) : Val := fp32.decode (fp32.rne 2 v).code

/-! ## The generator (R83, R84) -/

def mask32 (x : Nat) : Nat := x % 2 ^ 32

/-- One round of Philox-4×32. -/
def philoxRound (c : Nat × Nat × Nat × Nat) (k : Nat × Nat) : Nat × Nat × Nat × Nat :=
  let p0 := 0xD2511F53 * c.1
  let p1 := 0xCD9E8D57 * c.2.2.1
  (Nat.xor (Nat.xor (p1 / 2 ^ 32) c.2.1) k.1, mask32 p1, Nat.xor (Nat.xor (p0 / 2 ^ 32) c.2.2.2) k.2, mask32 p0)

def philox : Nat → Nat × Nat × Nat × Nat → Nat × Nat → Nat × Nat × Nat × Nat
  | 0, c, _ => c
  | n + 1, c, k => philox n (philoxRound c k) (mask32 (k.1 + 0x9E3779B9), mask32 (k.2 + 0xBB67AE85))

/-- The 16 random bits of an element. -/
def random16 (seed step rtid idx : Nat) : Nat :=
  let o := philox 10 (mask32 (idx / 8), mask32 rtid, mask32 step, mask32 (step / 2 ^ 32)) (mask32 seed, mask32 (seed / 2 ^ 32))
  let lane := idx % 8
  let w := match lane / 2 with
    | 0 => o.1
    | 1 => o.2.1
    | 2 => o.2.2.1
    | _ => o.2.2.2
  w / 2 ^ (16 * (lane % 2)) % 2 ^ 16

/-! ## Functions (R97 to R100) -/

/-- A positive quotient a / b of naturals at exponent e, truncated to at least 64 bits with a sticky last bit. -/
def quotient (n : Bool) (a b : Nat) (e : Int) : Val :=
  if a = 0 ∨ b = 0 then .num n 0 0
  else
    let l := 64 + Nat.log2 b
    let q := a * 2 ^ l / b
    .num n (2 * q + b2n (decide (a * 2 ^ l % b ≠ 0))) (e - l - 1)

/-- a / b, with the IEEE 754 special cases. -/
def Val.div : Val → Val → Val
  | .nan, _ => .nan
  | _, .nan => .nan
  | .inf _, .inf _ => .nan
  | .inf a, .num n _ _ => .inf (a != n)
  | .num n _ _, .inf b => .num (n != b) 0 0
  | .num na ma ea, .num nb mb eb =>
    if mb = 0 then (if ma = 0 then .nan else .inf (na != nb)) else quotient (na != nb) ma mb (ea - eb)

/-- Integer square root, one bit of the result at a time from bit n − 1. -/
def isqrtFrom : Nat → Nat → Nat → Nat
  | 0, _, r => r
  | n + 1, x, r => let t := r + 2 ^ n; isqrtFrom n x (if t * t ≤ x then t else r)

def isqrt (x : Nat) : Nat := isqrtFrom (Nat.log2 x / 2 + 1) x 0

/-- The square root of m × 2^e, truncated with a sticky bit. -/
def sqrtOf (m : Nat) (e : Int) : Val :=
  if m = 0 then .num false 0 0
  else
    let shift : Nat := 128 + ((e % 2).toNat)
    let x := m * 2 ^ shift
    let r := isqrt x
    .num false (2 * r + b2n (decide (r * r ≠ x))) ((e - shift) / 2 - 1)

/-- Square root with the IEEE 754 special cases. -/
def Val.sqrt : Val → Val
  | .nan => .nan
  | .inf n => if n then .nan else .inf false
  | .num n m e => if m = 0 then .num n 0 0 else if n then .nan else sqrtOf m e

/-- Reciprocal (R97). -/
def Val.recip (a : Val) : Val := (Val.num false 1 0).div a

/-- Reciprocal square root (R97): of −0 minus infinity, as IEEE 754 has it. -/
def Val.rsqrt : Val → Val
  | .nan => .nan
  | .inf n => if n then .nan else .num false 0 0
  | .num n m e =>
    if m = 0 then .inf n
    else if n then .nan
    else
      -- 1/√(m 2^e) = √(2^(2l) / m) 2^(-(e/2) - l) with e made even
      let odd := (e % 2).toNat
      let m' := m * 2 ^ odd
      let l := 128 + Nat.log2 m'
      let r := isqrt (2 ^ (2 * l) / m')
      .num false (2 * r + b2n (decide (r * r * m' ≠ 2 ^ (2 * l)))) (-((e - odd) / 2) - l - 1)

/-- Fraction bits of the fixed-point arithmetic behind exp. -/
def expBits : Nat := 640

/-- m × 2^e as a fixed-point number with expBits fraction bits, truncated towards minus infinity. -/
def toFixed (n : Bool) (m : Nat) (e : Int) : Int :=
  let k := e + expBits
  let x : Int := signed n m
  if 0 ≤ k then x * 2 ^ k.toNat else x / 2 ^ (-k).toNat

/-- Product of two fixed-point numbers. -/
def fixMul (a b : Int) : Int := a * b / 2 ^ expBits

/-- Taylor terms of exp, from the term of index i: sum of x^i/i! + …, fuel terms. -/
def expTaylor : Nat → Nat → Int → Int → Int → Int
  | 0, _, _, _, acc => acc
  | n + 1, i, x, term, acc => let t := fixMul term x / (i : Int); expTaylor n (i + 1) x t (acc + t)

def fixSquare : Nat → Int → Int
  | 0, x => x
  | n + 1, x => fixSquare n (fixMul x x)

/-- exp of a fixed-point number: argument divided by 2^16, 48 terms, squared 16 times. -/
def expFixed (x : Int) : Int :=
  let one : Int := 2 ^ expBits
  fixSquare 16 (expTaylor 48 1 (x / 2 ^ 16) one one)

/-- exp of a value, with a sticky bit: the exponential of a nonzero rational is never a dyadic number. -/
def Val.exp : Val → Val
  | .nan => .nan
  | .inf n => if n then .num false 0 0 else .inf false
  | .num n m e =>
    if m = 0 then .num false 1 0
    else if (Val.num false 128 0).lt (.num n m e) then .num false 1 200
    else if (Val.num n m e).lt (.num true 128 0) then .num false 1 (-400)
    else .num false (2 * (expFixed (toFixed n m e)).toNat + 1) (-(expBits : Int) - 1)

/-- Arctangent of 1/d in fixed point, from the term of index i (d2 = d²), fuel terms. -/
def atanInv : Nat → Nat → Int → Int → Int
  | 0, _, _, _ => 0
  | n + 1, i, d2, p => (if i % 2 = 0 then p / (2 * i + 1) else -(p / (2 * i + 1))) + atanInv n (i + 1) d2 (p / d2)

/-- π in fixed point: 16 atan(1/5) − 4 atan(1/239). -/
def piFixed : Int :=
  let one : Int := 2 ^ expBits
  16 * atanInv 150 0 25 (one / 5) - 4 * atanInv 60 0 57121 (one / 239)

/-- 2√(2/π) in fixed point. -/
def twoRootTwoOverPi : Int := 2 * ((isqrt ((2 * 2 ^ (3 * expBits)) / piFixed.toNat) : Nat) : Int)

/-- a / (1 + exp(−w)) for the value a = ±m 2^e and a fixed-point w. -/
def sigmoidTimes (n : Bool) (m : Nat) (e : Int) (w : Int) : Val :=
  let one : Int := 2 ^ expBits
  if w ≤ -(400 * one) then .num n 1 (-2000)
  else if 400 * one ≤ w then .num n (m * 2 ^ 64 - 1) (e - 64)
  else
    let d := one + expFixed (-w)
    .num n (2 * (m * 2 ^ (3 * expBits) / d.toNat) + 1) (e - 2 * expBits - 1)

/-- ACT FUNC 1: 0.5 a (1 + tanh z) = a / (1 + exp(−2z)) with z = √(2/π) (a + 0.044715 a³). -/
def actTanh (n : Bool) (m : Nat) (e : Int) : Val :=
  if (Val.num false 64 0).lt (.num false m e) then
    (if n then .num true 1 (-2000) else .num false (m * 2 ^ 64 - 1) (e - 64))
  else
    let a := toFixed n m e
    let cube := fixMul (fixMul a a) a
    sigmoidTimes n m e (fixMul twoRootTwoOverPi (a + cube * 44715 / 1000000))

/-- ACT FUNC 2: a / (1 + exp(−a)). -/
def actSigmoid (n : Bool) (m : Nat) (e : Int) : Val :=
  if (Val.num false 400 0).lt (.num false m e) then
    (if n then .num true 1 (-2000) else .num false (m * 2 ^ 64 - 1) (e - 64))
  else sigmoidTimes n m e (toFixed n m e)

/-- ACT (Table 3-7). FUNC 1 and 2 at minus infinity are not stated: a free value (log entry 8). -/
def Val.act (func : Nat) (a : Val) : Val :=
  match a with
  | .nan => .nan
  | .inf n => if func = 0 then (if n then Val.zero else .inf false)
              else if n then fp32.decode (Config.actNegInf func % 2 ^ 32) else .inf false
  | .num n m e =>
    if func = 0 then (if n || decide (m = 0) then Val.zero else .num n m e)
    else if m = 0 then .num n 0 0
    else if func = 1 then actTanh n m e
    else actSigmoid n m e

/-- The larger of two values (R97). -/
def Val.max2 (a b : Val) : Val :=
  if a.isNan || b.isNan then .nan
  else if a.isZero && b.isZero then .num (a.isNeg && b.isNeg) 0 0
  else if a.lt b then b else a

/-- The smaller of two values (R97). -/
def Val.min2 (a b : Val) : Val :=
  if a.isNan || b.isNan then .nan
  else if a.isZero && b.isZero then .num (a.isNeg || b.isNeg) 0 0
  else if b.lt a then b else a

end Sys2Proof.Machine
end

