-- ==== Sys2Proof/Machine/Operands.lean ====
section
/-! DEFINITION. Operands: which descriptor a command carries and the checks before dispatch (R421, R422), the forms in which
operations name memory (R195, R196, R203, R223), tensors and their plank scales (R95, R96, R210), holds (R124), and the watch
table (R177 to R182). -/

namespace Sys2Proof.Machine

/-! ## The descriptor of a command -/

/-- The descriptor a command carries, with the CLASS, OP and selection that make it this command (Tables 17-3, 5-6, 6-3). -/
def carried : Instr → Option (QueueId × Desc × Nat × Nat × Bool)
  | .convert q d _ => some (q, d, 1, 0x01, true)
  | .add q d _ => some (q, d, 1, 0x02, true)
  | .sub q d _ => some (q, d, 1, 0x03, true)
  | .mul q d _ => some (q, d, 1, 0x04, true)
  | .vectorMax q d _ => some (q, d, 1, 0x05, true)
  | .vectorMin q d _ => some (q, d, 1, 0x06, true)
  | .axpy q d _ => some (q, d, 1, 0x07, true)
  | .exp q d _ => some (q, d, 1, 0x08, true)
  | .recip q d _ => some (q, d, 1, 0x09, true)
  | .rsqrt q d _ => some (q, d, 1, 0x0A, true)
  | .act q d _ => some (q, d, 1, 0x0B, true)
  | .rowOp q d _ => some (q, d, 1, 0x0C, true)
  | .rowReduce q d _ => some (q, d, 1, 0x0D, true)
  | .rowNorm q d _ => some (q, d, 1, 0x0E, true)
  | .normStats q d _ => some (q, d, 1, 0x0F, true)
  | .adam q d _ => some (q, d, 1, 0x10, true)
  | .routeTopk q d _ => some (q, d, 1, 0x18, true)
  | .matrixOperation q d => some (q, d, 0, 0x00, true)
  | .trussSum q d => some (q, d, 4, 0x01, decide (trKind d = 0) || decide (5 ≤ trKind d))
  | .trussMax q d => some (q, d, 4, 0x01, decide (trKind d = 1))
  | .trussMin q d => some (q, d, 4, 0x01, decide (trKind d = 2))
  | .maxIdx q d => some (q, d, 4, 0x01, decide (trKind d = 3))
  | .minIdx q d => some (q, d, 4, 0x01, decide (trKind d = 4))
  | .down q d _ => some (q, d, 2, 0x00, decide (tnMode d = 0) || decide (6 ≤ tnMode d))
  | .up q d _ => some (q, d, 2, 0x00, decide (tnMode d = 1))
  | .downT q d _ => some (q, d, 2, 0x00, decide (tnMode d = 2))
  | .upT q d _ => some (q, d, 2, 0x00, decide (tnMode d = 3))
  | .wgradA q d _ => some (q, d, 2, 0x00, decide (tnMode d = 4))
  | .wgradB q d _ => some (q, d, 2, 0x00, decide (tnMode d = 5))
  | .moveOperation q d _ => some (q, d, 3, 0x00, true)
  | .reduce q d => some (q, d, 4, 0x02, true)
  | .shardGather q d => some (q, d, 4, 0x03, true)
  | .stageSend q d => some (q, d, 4, 0x04, true)
  | .scarf q d => some (q, d, 4, 0x05, true)
  | .beatWait q d => some (q, d, 5, 0x00, true)
  | .loadPlan q d => some (q, d, 6, 0x01, true)
  | .loadClass q d => some (q, d, 6, 0x02, true)
  | .setSeed q d => some (q, d, 6, 0x03, true)
  | .setMode q d => some (q, d, 6, 0x04, true)
  | .setWatch q d => some (q, d, 6, 0x10, true)
  | .writeWatch q d => some (q, d, 6, 0x11, true)
  | .readWatch q d => some (q, d, 6, 0x12, true)
  | .rollHistory q d => some (q, d, 6, 0x13, true)
  | .loadHistory q d => some (q, d, 6, 0x14, true)
  | .configurePartition q d => some (q, d, 6, 0x20, true)
  | .setWindow q d => some (q, d, 6, 0x21, true)
  | .retireSlot q d => some (q, d, 6, 0x22, true)
  | .claim q d => some (q, d, 6, 0x23, true)
  | .share q d => some (q, d, 6, 0x24, true)
  | .unshare q d => some (q, d, 6, 0x25, true)
  | .release q d => some (q, d, 6, 0x26, true)
  | .readDirectory q d => some (q, d, 6, 0x27, true)
  | .defineFrame q d => some (q, d, 6, 0x30, true)
  | .configureContext q d => some (q, d, 6, 0x31, true)
  | .activate q d => some (q, d, 6, 0x32, true)
  | .beginTraining q d => some (q, d, 6, 0x33, true)
  | .endTraining q d => some (q, d, 6, 0x34, true)
  | .relocate q d => some (q, d, 6, 0x35, true)
  | .promote q d => some (q, d, 6, 0x36, true)
  | .probeCheck q d => some (q, d, 6, 0x37, true)
  | .releaseContext q d => some (q, d, 6, 0x38, true)
  | .readContext q d => some (q, d, 6, 0x39, true)
  | .replaceFrame q d => some (q, d, 6, 0x3A, true)
  | .passBegin q d => some (q, d, 6, 0x3B, true)
  | .passEnd q d => some (q, d, 6, 0x3C, true)
  | .setSwapPolicy q d => some (q, d, 6, 0x3D, true)
  | .measureFrame q d => some (q, d, 6, 0x3E, true)
  | .setJobMap q d => some (q, d, 6, 0x40, true)
  | .setStageQueue q d => some (q, d, 6, 0x41, true)
  | .stageFree q d => some (q, d, 6, 0x42, true)
  | .saveCheckpoint q d => some (q, d, 6, 0x43, true)
  | .restoreCheckpoint q d => some (q, d, 6, 0x44, true)
  | .setEpochPair q d => some (q, d, 6, 0x45, true)
  | .reportReady q d => some (q, d, 6, 0x46, true)
  | .createFunction q d => some (q, d, 6, 0x50, true)
  | .resize q d => some (q, d, 6, 0x51, true)
  | .freeze q d => some (q, d, 6, 0x52, true)
  | .thaw q d => some (q, d, 6, 0x53, true)
  | .restore q d => some (q, d, 6, 0x54, true)
  | .disable q d => some (q, d, 6, 0x55, true)
  | .readCounters q d => some (q, d, 6, 0x56, true)
  | .bindFrame q d => some (q, d, 6, 0x57, !flag d 144)
  | .unbind q d => some (q, d, 6, 0x57, flag d 144)
  | .setMortiseRange q d => some (q, d, 6, 0x58, true)
  | .setAperture q d => some (q, d, 6, 0x59, !flag d 180)
  | .extension q d => some (q, d, 6, 0x59, flag d 180)
  | .setQueue q d => some (q, d, 6, 0x5A, true)
  | .setCoalesce q d => some (q, d, 6, 0x5B, true)
  | .setEventVector q d => some (q, d, 6, 0x5C, true)
  | .report q d => some (q, d, 6, 0x60, true)
  | .channelOpen q d => some (q, d, 6, 0x61, true)
  | .channelMessage q d => some (q, d, 6, 0x62, true)
  | .getCertificates q d => some (q, d, 6, 0x63, true)
  | .measureRegion q d => some (q, d, 6, 0x64, true)
  | .unmeasure q d => some (q, d, 6, 0x65, true)
  | .rotateKey q d => some (q, d, 6, 0x66, true)
  | .setCap q d => some (q, d, 6, 0x70, true)
  | .setPowerGroup q d => some (q, d, 6, 0x71, true)
  | .retrainStack q d _ _ => some (q, d, 6, 0x72, true)
  | .marginSweep q d _ _ _ _ => some (q, d, 6, 0x73, true)
  | .coreSelfTest q d _ => some (q, d, 6, 0x74, true)
  | .vectorEntry _ _ _ _ _ => none
  | .stationaryRowWrite _ _ _ _ _ _ => none
  | .close _ _ _ _ => none
  | .operationRetire _ _ => none
  | .trussLeafRead _ _ _ _ => none
  | .joinTimeout _ _ => none
  | .rowRepair _ _ => none
  | .pageReplacement _ => none
  | .scarfRound _ => none
  | .slotDrained _ _ => none
  | .pageLeavesOwner _ => none
  | .pageScrub _ _ => none
  | .directoryChangeApply _ => none
  | .frameDigest _ => none
  | .contextScrub _ _ => none
  | .layerSwap _ => none
  | .drainLimitExpiry _ => none
  | .jobReg _ _ => none
  | .resizeEffect _ => none
  | .resizeLapsed _ => none
  | .drainBeatsExpiry _ => none
  | .functionScrubbing _ => none
  | .functionOff _ => none
  | .memKey _ _ => none
  | .imageKey _ _ => none
  | .linkKey _ _ _ _ => none
  | .linkDrop _ _ _ => none
  | .confidential _ => none
  | .closeSession _ => none
  | .sessionExpiry _ => none
  | .keySweepPage _ => none
  | .pwrSlack _ => none
  | .pwrShift _ _ => none
  | .tailWrite _ _ => none
  | .cplHeadWrite _ _ => none
  | .coalesceTimer _ => none
  | .companionLineWrite _ _ => none
  | .snoop _ => none
  | .flit _ _ => none
  | .darlekLinkLoss => none
  | .beatEdge => none
  | .releaseEvent _ _ => none
  | .collectiveEvent _ _ => none
  | .moveEvent _ _ => none
  | .commitEvent _ _ => none
  | .powerRamp _ _ => none
  | .shim _ _ => none
  | .resizeEvent _ _ => none
  | .deadline _ _ => none
  | .coreMove _ _ => none
  | .plannedMoveComplete _ => none
  | .reduceTimeout _ _ => none
  | .sync _ _ _ => none
  | .syncSend _ => none
  | .epoch _ _ => none
  | .holdReq _ => none
  | .holdGrant _ _ => none
  | .ready _ => none
  | .vote _ => none
  | .decisionEcho _ _ _ => none
  | .echoTimeout _ => none
  | .commit _ _ => none
  | .abort _ _ => none
  | .decideLost _ => none
  | .holdover => none
  | .backupTakeover => none
  | .cadInPulse _ => none
  | .cadInMissing => none
  | .delay _ _ _ _ => none
  | .delayRemeasure _ _ => none
  | .lctrl _ _ => none
  | .lctrlSend _ => none
  | .hello _ _ => none
  | .helloSend _ => none
  | .portTraining _ _ _ => none
  | .portRetry _ => none
  | .fabricLinkLost _ => none
  | .data _ _ => none
  | .redWindow _ _ => none
  | .redPartial _ _ _ => none
  | .redResult _ _ => none
  | .redResend _ _ => none
  | .managementOrderEffect _ _ => none
  | .cellMapChange => none
  | .coreScrub _ _ => none
  | .governorStep _ _ => none
  | .dieSensorRead _ _ _ => none
  | .stackTemperatureRead _ _ => none
  | .telemetryCalibration _ _ => none
  | .ageingMonitorRead _ _ _ => none
  | .marginPlan _ => none
  | .activeTest _ _ => none
  | .testDue _ _ => none
  | .pohRecord => none
  | .calibrationRecordWrite _ _ _ _ => none
  | .storeCompaction => none
  | .avsRetry _ _ => none
  | .powerOnReset _ _ _ => none
  | .railLoss _ => none
  | .devRstN _ _ => none
  | .refclkStop _ => none
  | .refclkReturn _ => none
  | .go _ => none
  | .warm _ _ _ => none
  | .pkcFailure => none
  | .errClear _ _ => none
  | .irqStatWrite _ _ _ => none
  | .lock _ _ _ => none
  | .rcRead _ _ => none
  | .lowWordRead _ _ => none
  | .apply => none
  | .cmapOrder _ => none
  | .chipIdWrite _ => none
  | .epochEdgeWrite _ => none
  | .beatCfgWrite _ => none
  | .planCtrlStart _ => none
  | .marginCtrlStart _ _ _ _ => none
  | .portRetrain _ _ => none
  | .govCfgWrite _ => none
  | .rdSeqWrite _ _ => none
  | .registerWrite _ _ _ _ => none
  | .getState => none
  | .getThermal => none
  | .getPower => none
  | .getEvents => none
  | .mctpControl _ _ => none
  | .bypass => none
  | .idcode => none
  | .samplePreload _ => none
  | .extest => none
  | .decisionMessage _ _ _ _ _ _ _ => none
  | .darlekPortLoss _ _ => none
  | .droppedFrame _ _ _ => none
  | .partitionScrub _ _ => none

/-! ## The header checks (R421) -/

/-- Reserved bit ranges of the body of a control operation (Table 17-9); none for a reserved code (Table 17-3). -/
def controlReserved : Nat → Option (List (Nat × Nat))
  | 0x01 => some [(511, 108)]
  | 0x02 => some [(511, 108)]
  | 0x03 => some [(511, 128)]
  | 0x04 => some [(511, 65)]
  | 0x10 => some [(511, 108)]
  | 0x11 => some [(127, 108), (511, 152)]
  | 0x12 => some [(127, 108), (511, 154)]
  | 0x13 => some [(127, 64), (511, 152)]
  | 0x14 => some [(127, 108), (511, 152)]
  | 0x20 => some [(127, 64), (511, 136)]
  | 0x21 => some [(127, 108), (511, 132)]
  | 0x22 => some [(127, 64), (511, 131)]
  | 0x23 => some [(127, 108), (511, 160)]
  | 0x24 => some [(127, 108), (511, 168)]
  | 0x25 => some [(127, 108), (511, 160)]
  | 0x26 => some [(127, 108), (511, 160)]
  | 0x27 => some [(127, 108), (191, 160), (511, 236)]
  | 0x30 => some [(511, 108)]
  | 0x31 => some [(127, 108), (511, 144)]
  | 0x32 => some [(127, 64), (511, 144)]
  | 0x33 => some [(127, 64), (511, 144)]
  | 0x34 => some [(127, 64), (511, 144)]
  | 0x35 => some [(127, 108), (159, 144), (511, 184)]
  | 0x36 => some [(127, 64), (511, 160)]
  | 0x37 => some [(127, 64), (511, 168)]
  | 0x38 => some [(127, 64), (511, 144)]
  | 0x39 => some [(127, 108), (511, 144)]
  | 0x3A => some [(127, 108), (159, 136), (511, 192)]
  | 0x3B => some [(127, 64), (511, 137)]
  | 0x3C => some [(127, 64), (136, 136), (511, 138)]
  | 0x3D => some [(127, 64), (159, 129), (511, 192)]
  | 0x3E => some [(127, 64), (511, 136)]
  | 0x40 => some [(511, 108)]
  | 0x41 => some [(511, 108)]
  | 0x42 => some [(127, 64), (159, 134), (511, 192)]
  | 0x43 => some [(127, 108), (511, 189)]
  | 0x44 => some [(127, 108), (511, 177)]
  | 0x45 => some [(127, 108), (511, 204)]
  | 0x46 => some [(511, 65)]
  | 0x50 => some [(127, 108), (511, 134)]
  | 0x51 => some [(127, 108), (143, 134), (191, 160), (511, 256)]
  | 0x52 => some [(127, 108), (511, 135)]
  | 0x53 => some [(127, 64), (191, 134), (511, 256)]
  | 0x54 => some [(127, 108), (191, 134), (511, 256)]
  | 0x55 => some [(127, 64), (159, 135), (511, 192)]
  | 0x56 => some [(127, 108), (511, 150)]
  | 0x57 => some [(127, 64), (135, 134), (511, 146)]
  | 0x58 => some [(127, 64), (135, 134), (511, 157)]
  | 0x59 => some [(127, 108), (135, 134), (143, 140), (511, 181)]
  | 0x5A => some [(511, 108)]
  | 0x5B => some [(127, 64), (511, 152)]
  | 0x5C => some [(127, 107), (511, 160)]
  | 0x60 => some [(127, 108), (511, 190)]
  | 0x61 => some [(127, 108), (511, 160)]
  | 0x62 => some [(127, 108), (511, 188)]
  | 0x63 => some [(127, 108), (511, 160)]
  | 0x64 => some [(127, 108), (159, 135), (511, 192)]
  | 0x65 => some [(127, 64), (511, 134)]
  | 0x66 => some [(127, 64), (511, 134)]
  | 0x70 => some [(127, 64), (511, 140)]
  | 0x71 => some [(127, 64), (511, 169)]
  | 0x72 => some [(127, 64), (511, 133)]
  | 0x73 => some [(127, 64), (511, 139)]
  | 0x74 => some [(127, 64), (511, 133)]
  | _ => none

/-- Reserved bit ranges of the body of a descriptor; none for a reserved CLASS or OP. -/
def bodyReserved (cls op : Nat) : Option (List (Nat × Nat)) :=
  match cls with
  | 0 => if op = 0 then some [(271, 271), (511, 481)] else none
  | 1 => if (1 ≤ op ∧ op ≤ 0x10) ∨ op = 0x18 then some [(405, 405), (511, 494)] else none
  | 2 => if op = 0 then some [(239, 238), (511, 500)] else none
  | 3 => if op = 0 then some [(183, 182), (511, 277)] else none
  | 4 =>
    match op with
    | 1 => some [(247, 245), (511, 401)]
    | 2 => some [(511, 460)]
    | 3 => some [(511, 219)]
    | 4 => some [(511, 184)]
    | 5 => some [(511, 205)]
    | _ => none
  | 5 => if op = 0 then some [(511, 128)] else none
  | 6 => controlReserved op
  | _ => none

/-- Operations that only a management queue may carry (Table 17-3, starred). -/
def starred (op : Nat) : Bool :=
  op ∈ [0x30, 0x50, 0x51, 0x52, 0x53, 0x54, 0x55, 0x57, 0x58, 0x59, 0x66, 0x70, 0x71, 0x72, 0x73, 0x74]

/-- Control operations that name a scratchpad offset, whose CORE says whose scratchpad it is (R431). -/
def namesScratchpad (op : Nat) : Bool := op ∈ [0x12, 0x37, 0x43, 0x44, 0x56, 0x60, 0x64]

/-- The function a descriptor acts for: the queue's owner, or on a management queue the function a report names. -/
def State.actsFor (s : State) (q : QueueId) (d : Desc) : FnId :=
  let x := s.queue q.val
  if x.mgmt && decide (hdClass d = 6) && decide (hdOp d = 0x60) then fnId (fld d 133 128) else x.owner

/-- The cause of the header checks, 0 when they pass (R421). -/
def State.headerCause (s : State) (q : QueueId) (d : Desc) : Nat :=
  let cls := hdClass d
  let op := hdOp d
  let x := s.queue q.val
  let f := s.fn (s.actsFor q d)
  match bodyReserved cls op with
  | none => 0xC0
  | some rs =>
    firstCause [
      (rs.any (fun r => decide (fld d r.1 r.2 ≠ 0)) || decide (fld d 63 59 ≠ 0)
        || (decide (hdSclass d ≠ 0) && !(decide (cls = 6) && decide (op = 0x3B) && flag d 136))
        || (decide (cls = 5) && decide (fld d 127 64 ≠ 0) && decide (hdTag d ≠ 0)), 0xC0),
      ((if cls = 3 ∨ (cls = 6 ∧ !namesScratchpad op) then decide (hdCore d ≠ 0)
        else !x.mgmt && decide (f.cores ≤ hdCore d)) || (decide (hdEngine d = 1) && decide (cls ≠ 0)), 0xC1),
      (decide (cls = 6) && !x.mgmt && (starred op || (decide (op = 0x60) && decide (fld d 133 128 ≠ x.owner.val))), 0xC2)]

/-! ## Reading and dispatch -/

/-- Outstanding operations of a function's queues, and of the management queues (R422). -/
def State.outstandingOf (s : State) (mgmt : Bool) (f : FnId) : Nat :=
  (s.ops.filter (fun o => let m := (s.queue o.queue.val).mgmt; if mgmt then m else !m && decide ((s.queue o.queue.val).owner = f))).length
  + sumNat (s.queues.map (fun x => if (if mgmt then x.2.mgmt else !x.2.mgmt && decide (x.2.owner = f)) then x.2.waiting.length else 0))

/-- Operations reserved for a function or for the management queues (R422). -/
def State.reserveOf (s : State) (mgmt : Bool) (f : FnId) : Nat := if mgmt then 384 else 800 * (s.fn f).cores

/-- Whether one more descriptor may be read (R422): within the own reserve, or within what the reserves leave. -/
def State.room (s : State) (mgmt : Bool) (f : FnId) : Bool :=
  let total := s.ops.length + sumNat (s.queues.map (fun x => x.2.waiting.length))
  let mine := s.outstandingOf mgmt f
  let reserved := 384 + sumNat (allFns.map (fun g => 800 * (s.fn g).cores))
  let beyond := (s.outstandingOf true f - 384) + sumNat (allFns.map (fun g => s.outstandingOf false g - 800 * (s.fn g).cores))
  decide (total < 16384) && (decide (mine < s.reserveOf mgmt f) || decide (beyond + reserved < 16384))

/-- Does the device read descriptors from this queue: enabled, at READY, and for a function's queue the function RUNNING and no
device fault (R332, R433, R455). -/
def State.dispatching (s : State) (q : QueueId) : Bool :=
  let x := s.queue q.val
  x.enabled && decide (s.boot.st = 8) && s.boot.powered && (x.mgmt || (decide ((s.fn x.owner).st = .running) && (s.fn x.owner).mapOp.isNone && !s.boot.fault && ((s.fn x.owner).resize.isNone || (s.fn x.owner).hasQueue q.val)))

/-- Does an operation already read go on to issue: as above, and while its function drains (R343)? -/
def State.issuing (s : State) (q : QueueId) : Bool :=
  let x := s.queue q.val
  s.dispatching q || (x.enabled && decide (s.boot.st = 8) && s.boot.powered && !s.boot.fault && decide ((s.fn x.owner).st = .draining))

/-- Operations of a queue read before this one. -/
def State.before (s : State) (o : Op) : List Op := (s.ops.takeWhile (fun x => !x.is o.ref)).filter (fun x => decide (x.queue = o.queue))

/-- Is an operation held at dispatch: behind a beat-wait, behind an operation of its queue that has not issued (dispatch keeps the
order of each queue, R137), or by its own FENCE (R423, Table 17-2)? -/
def State.blocked (s : State) (o : Op) : Bool :=
  let b := s.before o
  b.any (fun x => decide (hdClass x.desc = 5) || decide (x.stage = .dispatched) || decide (x.stage = .held))
  || (decide (hdFence o.desc = 1) && !b.isEmpty)

/-- Keep a command until its condition holds (log entry 5). -/
def State.park (s : State) (i : Instr) (o : Op) : State :=
  { s.modOp o.ref (fun x => { x with stage := .held }) with parked := s.parked ++ [i] }

/-- Take an operation to issue. The descriptor is one the watcher has read, or it is read now; a header check that fails
completes it; a condition of dispatch that does not hold keeps it. Answers the operation where it issues. -/
def State.accept (s : State) (i : Instr) (q : QueueId) (d : Desc) : Option Op × State :=
  let x := s.queue q.val
  let f := s.actsFor q d
  if !s.issuing q then (none, s)
  else
    let old := s.ops.find? (fun o => decide (o.queue = q) && decide (o.desc = d) && (decide (o.stage = .dispatched) || decide (o.stage = .held)))
    match old with
    | some o =>
      if s.blocked o then (none, s.park i o)
      else
        let o := { o with stage := .inflight, issued := s.beatNow, event := x.event }
        (some o, s.modOp o.ref (fun _ => o))
    | none =>
      if x.stopped || !s.dispatching q then (none, s)
      else if !s.room x.mgmt x.owner then (none, (s.wait (pageDlk 0 + 0x54)).blame x)
      else
        let o : Op := { Op.new q s.nextOp d f with readBeat := s.beatNow }
        let s := s.addOp o
        let c := s.headerCause q d
        if c ≠ 0 then (none, s.faultOp o c)
        else if s.blocked o then (none, s.park i o)
        else
          let o := { o with stage := .inflight, issued := s.beatNow, event := x.event }
          (some o, s.modOp o.ref (fun _ => o))

/-- The open step of a job's function has issued an operation (R321): a control operation is none of the step's (log entry 44). -/
def State.markIssued (s : State) (o : Op) : State :=
  if hdClass o.desc ≤ 4 ∧ (s.fn o.fn).job.st ≠ 0 then s.modFn o.fn (fun x => { x with step := { x.step with issued := true } }) else s

/-- Issue a command's operation: a descriptor that does not spell the command is no such command and does nothing. -/
def State.issue (s : State) (i : Instr) (k : Op → State → State) : State :=
  match carried i with
  | none => s
  | some (q, d, cls, op, sel) =>
    if hdClass d = cls ∧ hdOp d = op ∧ sel then
      match s.accept i q d with
      | (none, s) => s
      | (some o, s) => k o (s.markIssued o)
    else s

/-- Does a waiting command carry this operation? -/
def parkedFor (o : Op) (i : Instr) : Bool :=
  match carried i with
  | some (q, d, _) => decide (q = o.queue) && decide (d = o.desc)
  | none => false

/-- End an operation that may still wait at dispatch: its waiting command goes with it. -/
def State.kill (s : State) (o : Op) (status cause : Nat) : State :=
  { s with parked := (takeFirst (parkedFor o) s.parked).2 }.complete o status cause 0 0

def State.killAll (s : State) (os : List Op) (status : Nat) : State := os.foldl (fun s o => s.kill o status 0) s

/-- Is a waiting command's operation still held (log entry 5)? -/
def State.waits (s : State) (i : Instr) : Bool :=
  s.ops.any (fun o => parkedFor o i && (decide (o.stage = .held) || decide (o.stage = .dispatched)))

/-- Does the operation come from a management queue? -/
def State.isMgmt (s : State) (o : Op) : Bool := (s.queue o.queue.val).mgmt

/-- Physical core that runs an operation: CORE of its function (R12). -/
def State.coreOf (s : State) (o : Op) : Option CoreId := s.phys? o.fn (hdCore o.desc)

/-- Is a logical core of a function held at operation boundaries by a planned move (R27)? -/
def State.moving (s : State) (f : FnId) (logical : Nat) : Bool :=
  match s.phys? f logical with
  | some c => (s.cell c).moveTo.isSome
  | none => false

/-- Issue on a core: an operation addressed to a logical core that no physical core in service carries completes with status
core unavailable, or quarantined where the core that carries the number is under that order (R22, R28, R29); it waits for a planned
move. -/
def State.issueOnCore (s : State) (i : Instr) (k : CoreId → Op → State → State) : State :=
  s.issue i (fun o s =>
    match s.coreOf o with
    | some c => if (s.cell c).quarantining then s.complete o 3 0 0 0
      else if s.moving o.fn (hdCore o.desc) then s.park i o else k c o s
    | none => s.complete o 4 0 0 0)

/-- Replace the stored copy of an operation. -/
def State.putOp (s : State) (o : Op) : State := s.modOp o.ref (fun _ => o)

/-! ## Holds (R124) -/

def overlaps (a n b m : Nat) : Bool := decide (a < b + m) && decide (b < a + n) && decide (0 < n) && decide (0 < m)

/-- Where a measured region lies in memory: a scratchpad region is kept by its logical core, at 2^45 + core × 2^24 (R353). -/
def State.measuredAt (s : State) (f : FnId) (m : Nat × Nat) : Option (Nat × Nat) :=
  if m.1 < 2 ^ 45 then some m else (s.phys? f ((m.1 - 2 ^ 45) / 2 ^ 24)).map (fun c => (spKey c.val (m.1 % 2 ^ 24), m.2))

/-- Measured regions of a function, which are held until an unmeasure (R353). -/
def State.measuredKeys (s : State) (f : FnId) : List (Nat × Nat) := (s.fn f).sec.measured.filterMap (fun m => s.measuredAt f m.2)

/-- Does a range overlap a held source range of a function, other than one operation's own, or a measured region? -/
def State.heldBy (s : State) (f : FnId) (own : Option OpRef) (a n : Nat) : Bool :=
  (s.measuredKeys f).any (fun h => overlaps h.1 h.2 a n) ||
  s.heldOps.any (fun h => decide (h.fn = f) && h.ranges.any (fun r => overlaps r.1 r.2 a n))
  || s.ops.any (fun o => decide (o.fn = f) && (match own with | some r => !o.is r | none => true)
    && o.holds.any (fun h => overlaps h.1 h.2 a n))

/-- Slots of a function's receiving stage queues whose message has not arrived: memory key and length (R218, R291). -/
def State.emptySlots (s : State) (f : FnId) : List (Nat × Nat) :=
  (s.fn f).job.stages.flatMap (fun e => match e.2 with
    | none => []
    | some q =>
      let r := q.record
      let base := if sqSp r = 1 then (s.phys? f (sqCore r)).map (fun c => spKey c.val (sqBase r % 2 ^ 24)) else some (sqBase r)
      match base with
      | none => []
      | some b => if sqEnd r = 1 then []
        else ((List.range (sqDepthM1 r + 1)).filter (fun k => q.held.all (fun m => decide (m % (sqDepthM1 r + 1) ≠ k)))).map (fun k =>
          (b + k * sqSlotBytes r * 128, sqSlotBytes r * 128)))

/-- Does an operation read a stage slot whose message has not arrived (R291, R293)? -/
def State.stageWait (s : State) (f : FnId) (ranges : List (Nat × Nat)) : Bool :=
  (s.emptySlots f).any (fun e => ranges.any (fun r => overlaps e.1 e.2 r.1 r.2))

/-- An operation waits for a stage slot. -/
def State.parkStage (s : State) (i : Instr) (o : Op) : State := (s.wait (pageJobf o.fn.val + 0x50)).park i o

/-! ## Where memory lies (R195, R196) -/

/-- Scratchpad bytes of a core. -/
def spSize : Nat := 0xC00000

/-- Is a range of scratchpad offsets within the 12 MiB? -/
def spOk (off n : Nat) : Bool := decide (off + n ≤ spSize)

/-- Regions of the device address map (Table 8-1). -/
inductive Region where
  | hbm (stack : Nat)
  | llm
  | companion
  | hole
  deriving DecidableEq, Repr

def region (a : Nat) : Region :=
  if a < 0x18000000000 then (if a % 2 ^ 36 < 0xC00000000 then .hbm (a / 2 ^ 36) else .hole)
  else if 0x20000000000 ≤ a ∧ a < 0x20080000000 then .llm
  else if 0x80000000000 ≤ a ∧ a < 0x100000000000 then .companion
  else .hole

/-- Does a whole range lie in one region? -/
def sameRegion (a n : Nat) : Bool := decide (n = 0) || (decide (region a ≠ .hole) && decide (region a = region (a + n - 1)))

/-- Device address of an LLM partition's offset. -/
def llmAddr (part off : Nat) : Nat := 0x20000000000 + part * 2 ^ 25 + off

/-- LLM partitions that a range of LLM addresses touches. -/
def partsOf (a n : Nat) : List Nat := if n = 0 then [] else (List.range ((a + n - 1) / 2 ^ 25 - a / 2 ^ 25 + 1)).map (fun i => (i + a / 2 ^ 25) % 64)

/-- Page number of a device address. -/
def pageOf (a : Nat) : Nat := a / 65536

/-- Pages that a range touches. -/
def pagesOf (a n : Nat) : List Nat := if n = 0 then [] else (List.range ((a + n - 1) / 65536 - a / 65536 + 1)).map (· + a / 65536)

/-! ## Directory entries (Table 8-3) -/

def pgTier (e : BitVec 64) : Nat := fld e 1 0
def pgOwner (e : BitVec 64) : Nat := fld e 7 2
def pgShared (e : BitVec 64) : Bool := flag e 8
def pgKgen (e : BitVec 64) : Nat := fld e 9 9
def pgFrame (e : BitVec 64) : Nat := fld e 17 10
def pgRef (e : BitVec 64) : Nat := fld e 25 18
def pgMove (e : BitVec 64) : Nat := fld e 28 26
def pgPartner (e : BitVec 64) : Nat := fld e 63 36

/-- Is a function bound to a frame (R242)? -/
def State.bound (s : State) (f : FnId) (frame : Nat) : Bool := decide (frame ∈ (s.fn f).frames)

/-- The aperture of a function that holds a companion byte (R223). -/
def State.aperture? (s : State) (f : FnId) (a : Nat) : Option Aperture :=
  let c := a - 2 ^ 43
  ((s.fn f).apertures.map (·.2)).find? (fun x => x.enable && decide (x.base ≤ c) && decide (c < x.base + x.units * 65536))

/-- The management region of companion memory: whatever no aperture of a function covers (log entry 25). DESIGN CHOICE. -/
def State.mgmtRegion (s : State) (a : Nat) : Bool := allFns.all (fun f => (s.aperture? f a).isNone)

/-- Cause of one page's access by a function, 0 when it may (R203, R205): companion pages through an aperture with the bit the
access needs, then the entry of an HBM or tiered page; in confidential mode, no write to an untiered page (R369). -/
def State.pageCause (s : State) (f : FnId) (page : Nat) (write : Bool) : Nat :=
  let e := s.page page
  let entry : Nat :=
    if pgTier e = 0 ∨ pgTier e = 3 then 0x43
    else if pgOwner e ≠ f.val ∧ (write ∨ !(pgShared e && s.bound f (pgFrame e))) then 0x42
    else if pgMove e = 2 then 0x44
    else 0
  match region (page * 65536) with
  | .companion =>
    match s.aperture? f (page * 65536) with
    | none => 0x42
    | some x =>
      if !(if write then x.write else x.read) then 0x42
      else if x.tiered then entry
      else if write && (s.fn f).sec.confidential then 0xA4
      else 0
  | .hbm _ => entry
  | _ => 0

/-- Cause of an access by a function to a range of device addresses: the region, then an owned SCRATCH partition, then each
page (R195, R203). -/
def State.accessCause (s : State) (f : FnId) (a n : Nat) (write : Bool) : Nat :=
  if !sameRegion a n then 0x40
  else
    match region a with
    | .llm => lowestCause ((partsOf a n).flatMap (fun p =>
        let x := s.part p
        [(!s.hasPart f p, 0x42), (s.hasPart f p && decide (x.mode ≠ 0), 0x48)]))
    | .hole => 0x40
    | _ => lowestCause ((pagesOf a n).map (fun p => let c := s.pageCause f p write; (decide (c ≠ 0), c)))

/-- Cause of a management access: companion memory of the management region (R431). -/
def State.mgmtCause (s : State) (a n : Nat) : Nat :=
  if !sameRegion a n then 0x40
  else match region a with
    | .companion => if (pagesOf a n).all (fun p => s.mgmtRegion (p * 65536)) then 0 else 0x42
    | _ => 0x42

/-- Access of an operation to a device range: the management region for a management queue. -/
def State.opAccess (s : State) (o : Op) (a n : Nat) (write : Bool) : Nat :=
  if s.isMgmt o then s.mgmtCause a n else s.accessCause o.fn a n write

/-- Must an access to a page wait: another operation fills it, or it is being relocated (R205)? -/
def pgWaits (e : BitVec 64) : Bool := decide (pgMove e = 1) || decide (pgMove e = 3)

/-- Pages a device write meets that a sweep has still to re-encrypt (R361). -/
def State.oldKeyPages (s : State) (pages : List Nat) : List Nat :=
  pages.filter (fun p => let e := s.page p; let x := (s.fn (fnId (pgOwner e))).sec
    (decide (pgTier e = 1) || decide (pgTier e = 2)) && x.sweep && decide (pgKgen e ≠ x.keyGen.toNat % 2))

/-- A write waits while the sweep takes its pages next; KEY_WAIT counts it (R361). -/
def State.keyWait (s : State) (i : Instr) (o : Op) (pages : List Nat) : State :=
  let dir := pages.foldl (fun m p => let e := SMap.get dirReset m p; if pgMove e = 0 then SMap.put dirReset m p (withFld e 28 26 3) else m) s.dir
  ({ s with dir := dir }.wait (pageSec + 0x5C)).park i o

/-- A counter of free cycles whose first count after a read sets an event bit. -/
def State.waitRaise (s : State) (page off bit : Nat) : State :=
  let first := decide (s.reg 0 (page + off) = 0)
  let s := s.wait (page + off)
  if first then s.raise page bit else s

/-- Fill moves of a window slot in flight. -/
def State.fillsOf (s : State) (f : FnId) (slot : Nat) : List Op :=
  s.ops.filter (fun o => decide (o.fn = f) && decide (hdClass o.desc = 3) && decide (mvWfill o.desc = 1) && decide (mvWslot o.desc = slot)
    && decide (o.stage = .inflight ∨ o.stage = .stored))

/-- An operation waits for a window slot: WIN_STALL, and the counters of the sources that still have bytes outstanding (R220). -/
def State.winStall (s : State) (f : FnId) (slot : Nat) : State :=
  let pg := pageMemf f.val
  let s := s.waitRaise pg 0x48 0
  let s : State := (s.fillsOf f slot).foldl (fun s o =>
    match region (mvSrcAddr o.desc) with
    | .hbm st => if mvSrcSp o.desc = 1 then s else s.wait (pg + 0x60 + 4 * st)
    | .companion => if mvSrcSp o.desc = 1 then s else s.wait (pg + 0x4C)
    | _ => s.wait (pg + 0x50)) s
  if s.ops.any (fun o => decide (o.fn = f) && decide (hdClass o.desc = 3) && decide (mvWfill o.desc = 1) && decide (mvWslot o.desc = slot)
      && decide (o.stage = .held)) then s.wait (pg + 0x54) else s

/-- Slot of a streaming window that a partition belongs to (R217). -/
def Fn.windowSlot? (f : Fn) (part : Nat) : Option Nat := f.window.findIdx? (fun w => w.mask.testBit part)

/-- The window slot an access to partitions has to wait for: one of theirs that is not READY (R219). -/
def State.windowWait? (s : State) (f : FnId) (parts : List Nat) : Option Nat :=
  let x := s.fn f
  (parts.filterMap x.windowSlot?).find? (fun j => decide ((x.window[j]?.map (·.st)) ≠ some 2))

/-- ADDR of a control operation (R431). -/
def ctAddr (d : Desc) : Nat := fld d 107 64

/-- The check of a record that ADDR names: on a 64-byte boundary and readable (R431). -/
def State.recordCause (s : State) (o : Op) (a n : Nat) : Nat := if a % 64 ≠ 0 then 0xC0 else s.opAccess o a n false

/-! ## Tensors (R95, R96, R210) -/

/-- Bytes of a packed row. -/
def rowBytes (f : Fmt) (cols : Nat) : Nat := (f.bits * cols + 7) / 8

/-- Code of element c of a packed row of memory. -/
def elemAt (m : List Host.Cell) (row : Nat) (bits c : Nat) : Nat :=
  let b := bits * c
  let n := (b % 8 + bits + 7) / 8
  ofBytes (memBytes m (row + b / 8) n) / 2 ^ (b % 8) % 2 ^ bits

/-- A packed row of codes as bytes. -/
def packRow (f : Fmt) (codes : List Nat) : List Byte :=
  leBytes (rowBytes f codes.length) (codes.foldr (fun c acc => c + acc * 2 ^ f.bits) 0)

/-- Scale bytes of a planked operand lie after its rows: address of the run of row r (R96). -/
def scaleRun (base rows pitch cols plank r : Nat) : Nat := base + rows * pitch * 128 + r * (cols / plank)

/-- Element (r, c) of a tensor in memory, its plank's scale applied (R79, R95, R96). -/
def tensorAt (m : List Host.Cell) (base pitch rows cols fc plank r c : Nat) : Val :=
  let f := fmtOf fc
  let v := f.decode (elemAt m (base + r * pitch * 128) f.bits c)
  if isPlanked fc then scaled v (memByte m (scaleRun base rows pitch cols plank r + c / plank)).toNat else v

/-- All rows of a tensor. -/
def tensorRows (m : List Host.Cell) (base pitch rows cols fc plank : Nat) : List (List Val) :=
  (List.range rows).map (fun r => (List.range cols).map (tensorAt m base pitch rows cols fc plank r))

/-- Bytes a tensor covers from its address (R95, R96). -/
def tensorSpan (pitch rows cols fc plank : Nat) : Nat :=
  if isPlanked fc then rows * pitch * 128 + rows * (cols / plank) else (rows - 1) * pitch * 128 + rowBytes (fmtOf fc) cols

/-- Pieces of at most n items. -/
def chunksOf {α : Type} (n : Nat) : Nat → List α → List (List α)
  | 0, _ => []
  | _, [] => []
  | fuel + 1, xs => xs.take n :: chunksOf n fuel (xs.drop n)

def chunks {α : Type} (n : Nat) (xs : List α) : List (List α) := chunksOf n xs.length xs

/-! ## The watch table (R177 to R188) -/

/-- Largest finite magnitude of some values, zero when there is none. -/
def amaxOf (vs : List Val) : Val := vs.foldl (fun a v => if v.isFinite && a.lt v.abs then v.abs else a) Val.zero

/-- A finite magnitude rounded to BF16 toward plus infinity, as a code (Table 7-1, AMAX_RUN). -/
def bf16Up (v : Val) : Nat :=
  match v with
  | .num _ m e =>
    if m = 0 then 0
    else
      let u := bf16.step m e
      let (q, r, _) := inSteps m e u
      let q := if r = 0 then q else q + 1
      if bf16.beyond q u then bf16.infCode false else bf16.encode false q u
  | _ => 0

/-- What one site counts for the elements it stores (R181). -/
structure Counts where
  elems : Nat
  zeros : Nat
  sats : Nat
  nonfin : Nat
  amax : Val
  deriving DecidableEq, Repr

def Counts.none : Counts := { elems := 0, zeros := 0, sats := 0, nonfin := 0, amax := Val.zero }

/-- Count one stored element, from the value before rounding and what was stored. -/
def Counts.add (f : Fmt) (c : Counts) (v : Val) (st : Stored) : Counts :=
  let amax := if v.isFinite && c.amax.lt v.abs then v.abs else c.amax
  let c := { c with elems := c.elems + 1, amax := amax }
  if !v.isFinite then { c with nonfin := c.nonfin + 1 }
  else if st.sat then { c with sats := c.sats + 1 }
  else if st.code % 2 ^ (f.bits - 1) = 0 then { c with zeros := c.zeros + 1 }
  else c

/-- Address of a watch entry, none without a table or past its end (R178). -/
def Fn.watchEntry? (f : Fn) (id : Nat) : Option Nat :=
  match f.watch with
  | some (part, off, n) => if id < n then some (llmAddr part off + 128 * id) else none
  | none => none

/-- A watch entry as it stands. -/
def State.watchRead (s : State) (addr : Nat) : BitVec 1024 := BitVec.ofNat 1024 (s.nat addr 128)

def State.watchWrite (s : State) (addr : Nat) (e : BitVec 1024) : State := s.write addr (leBytes 128 e.toNat)

/-- A field of an entry raised by n, stopping at its largest value (log entry 26). DESIGN CHOICE. -/
def bumpFld (e : BitVec 1024) (hi lo n : Nat) : BitVec 1024 := withFld e hi lo (min (fld e hi lo + n) (2 ^ (hi + 1 - lo) - 1))

/-- Scale step K and threshold of an entry (Table 7-1). -/
def weStep (e : BitVec 1024) : Nat := max (weK e) 1

def weShare (e : BitVec 1024) : Nat := max (weThresh e) 4

/-- CLOSE_EXP as a signed number. -/
def weExp (e : BitVec 1024) : Int := toSigned 8 (weCloseExp e)

/-- Is a tile of e stored elements with n saturations over the threshold (R184)? -/
def overThreshold (entry : BitVec 1024) (elems sats : Nat) : Bool := decide (elems < sats * 2 ^ weShare entry)

/-- Report a stored tile into its entry and the HLTH page (R181, R182, R184). `over` tells whether the first forming was over
the threshold, `lowered` whether it was stored lowered, `still` whether it was over after that. -/
def State.watchReport (s : State) (f : FnId) (id : Nat) (c : Counts) (beyond lowered still : Bool) : State :=
  match (s.fn f).watchEntry? id with
  | none => s
  | some a =>
    let e := s.watchRead a
    let e := bumpFld (bumpFld (bumpFld (bumpFld e 47 0 c.elems) 95 48 c.zeros) 143 96 c.sats) 191 144 c.nonfin
    let e := if lowered then bumpFld e 207 192 1 else e
    let e := if still then bumpFld e 223 208 1 else e
    let e := if (bf16.decode (weAmaxRun e)).lt c.amax then withFld e 239 224 (bf16Up c.amax) else e
    let s := s.watchWrite a e
    let pg := pageHlth f.val
    let s := if c.nonfin ≠ 0 ∧ !(s.reg 0 (pg + 0x48)).testBit 31 then (s.setReg 0 (pg + 0x48) (id + 2 ^ 31)).raise pg 0 else s
    let s := if beyond then s.count (pg + 0x4C) else s
    let s := if lowered then s.count (pg + 0x50) else s
    if still then (s.count (pg + 0x54)).raise pg 1 else s

/-- Roll one entry (R188). -/
def rollEntry (e : BitVec 1024) : BitVec 1024 :=
  let p := weHistPtr e
  let e := withFld e (399 + 16 * p) (384 + 16 * p) (weAmaxRun e)
  let e := withFld e 283 280 ((p + 1) % 16)
  let e := withFld e 288 284 (min 16 (weHistN e + 1))
  let e := withFld e 239 224 0
  withFld e 255 240 (weBootLeft e - 1)

/-- Forget an entry's history (R190). -/
def loseHistory (e : BitVec 1024) : BitVec 1024 := withFld (withFld (withFld e 288 284 0) 283 280 0) 255 240 (weBootN e)

/-- The entry after a set-watch (Table 7-1): K 1, THRESH 12, BOOT_N and BOOT_LEFT 16. -/
def watchReset : BitVec 1024 := BitVec.ofNat 1024 (16 * 2 ^ 240 + 1 * 2 ^ 258 + 12 * 2 ^ 262 + 16 * 2 ^ 292)

/-- Change entries of a function's table. -/
def State.mapWatch (s : State) (f : FnId) (ids : List Nat) (g : BitVec 1024 → BitVec 1024) : State :=
  ids.foldl (fun s id => match (s.fn f).watchEntry? id with
    | some a => s.watchWrite a (g (s.watchRead a))
    | none => s) s

/-- The largest valid history entry of a watch entry, zero when there is none (R190). -/
def weLargest (e : BitVec 1024) : Val :=
  ((List.range (weHistN e)).map (fun i => bf16.decode (fld e (399 + 16 * i) (384 + 16 * i)))).foldl
    (fun a v => if a.lt v then v else a) Val.zero

/-- Bytes the manual leaves undefined: each holds a free value of its own (R493, log entry 1). -/
def State.scramble (s : State) (a n : Nat) : State :=
  { (s.write a ((List.range n).map (fun i => BitVec.ofNat 8 (Config.freeValue (s.fresh + i))))) with fresh := s.fresh + n }

end Sys2Proof.Machine
end

