-- ==== Sys2Proof/Machine/Links.lean ====
section
/-! DEFINITION. Frames and links: CRC-32C (R229, R261), the frame header (Table 11-2), credits and the replay buffer (R263,
R264), routing (R265), beat messages and the beat tree (R268, R270), management messages, and sealing (R366). -/

namespace Sys2Proof.Machine

/-! ## CRC-32C (R229) -/

def crcBit (c : Nat) : Nat := if c % 2 = 1 then (c / 2) ^^^ 0x82F63B78 else c / 2

def crcByte (c : Nat) (b : Byte) : Nat := Nat.repeat crcBit 8 (c ^^^ b.toNat)

def crc32c (bs : List Byte) : Nat := (bs.foldl crcByte 0xFFFFFFFF) ^^^ 0xFFFFFFFF

/-! ## Frames (Table 11-2) -/

def fhType {n : Nat} (d : BitVec n) : Nat := fld d 3 0
def fhVc {n : Nat} (d : BitVec n) : Nat := fld d 5 4
def fhSealed {n : Nat} (d : BitVec n) : Bool := flag d 6
def fhLast {n : Nat} (d : BitVec n) : Bool := flag d 7
def fhSeq {n : Nat} (d : BitVec n) : Nat := fld d 19 8
def fhLen {n : Nat} (d : BitVec n) : Nat := fld d 26 20
def fhChannel {n : Nat} (d : BitVec n) : Nat := fld d 30 27
def fhDestPos {n : Nat} (d : BitVec n) : Nat := fld d 61 32
def fhDestChip {n : Nat} (d : BitVec n) : Nat := fld d 77 62
def fhSrcChip {n : Nat} (d : BitVec n) : Nat := fld d 93 78
def fhKeySlot {n : Nat} (d : BitVec n) : Nat := fld d 95 94
def fhCrc {n : Nat} (d : BitVec n) : Nat := fld d 127 96

/-- Virtual channel of a frame type; LCTRL and the reserved types have none (Table 11-3). -/
def vcOf (type : Nat) : Option Nat :=
  if 1 ≤ type ∧ type ≤ 3 then some 0
  else if 4 ≤ type ∧ type ≤ 7 then some 1
  else if type = 8 then some 2
  else if type = 9 then some 3
  else none

/-- CRC of a frame: header bits [95:0] and the payload (R261). -/
def frameCrc (f : Frame) : Nat := crc32c (leBytes 12 (f.hdr.toNat % 2 ^ 96) ++ f.payload)

/-- A frame without SEQ and CRC, its payload padded to 16-byte units. -/
def mkFrame (type : Nat) (last : Bool) (channel destPos destChip srcChip : Nat) (payload : List Byte) : Frame :=
  let units := (payload.length + 15) / 16
  let payload := payload ++ List.replicate (16 * units - payload.length) 0
  { hdr := BitVec.ofNat 128 (type + ((vcOf type).getD 0) * 2 ^ 4 + b2n last * 2 ^ 7 + (units % 128) * 2 ^ 20
      + (channel % 16) * 2 ^ 27 + (destPos % 2 ^ 30) * 2 ^ 32 + (destChip % 2 ^ 16) * 2 ^ 62 + (srcChip % 2 ^ 16) * 2 ^ 78),
    payload := payload }

/-- The frame with its SEQ and CRC, as it leaves on a link. -/
def stampFrame (f : Frame) (seq : Nat) : Frame :=
  let f := { f with hdr := withFld f.hdr 19 8 seq }
  { f with hdr := withFld f.hdr 127 96 (frameCrc f) }

/-- Credit pool of a frame: VC0, VC2, VC3, then one for each reduction channel (Table 11-4). -/
def poolOf (f : Frame) : Nat :=
  match fhVc f.hdr with
  | 0 => 0
  | 2 => 1
  | 3 => 2
  | _ => 3 + fhChannel f.hdr

/-- Credits a frame consumes (R264). -/
def frameCredits (f : Frame) : Nat := (16 + 16 * fhLen f.hdr + 63) / 64

/-- Is the header one a receiver takes: no reserved type, VC matching, reserved bit clear, CHANNEL zero outside VC1, LEN in
range and of the payload's length (R261)? -/
def headerOk (f : Frame) : Bool :=
  decide (vcOf (fhType f.hdr) = some (fhVc f.hdr)) && !flag f.hdr 31 && decide (fhLen f.hdr ≤ 96)
    && (decide (fhVc f.hdr = 1) || decide (fhChannel f.hdr = 0)) && decide (f.payload.length = 16 * fhLen f.hdr)

/-! ## The package and its ports -/

/-- CHIP_ID (Table 20-3). -/
def State.chip (s : State) : Nat := s.reg 0 (pagePkc + 0x5C) % 2 ^ 16

/-- Position and axis lengths minus one that the package announces (Table 11-6, log entry 13). -/
def State.pos (s : State) : Nat := s.boot.pos

def State.lenM1 (s : State) : Nat := s.boot.lenM1

/-- Coordinate of one axis: 0 T, 1 S, 2 P, 3 D, 4 X. -/
def coord (pos axis : Nat) : Nat := field pos (6 * axis + 5) (6 * axis)

def withCoord (pos axis v : Nat) : Nat := withField pos (6 * axis + 5) (6 * axis) v

/-- PORT_CFG of a port: axis, direction, enable (Table 11-10). -/
def State.portCfg (s : State) (p : Nat) : Nat := s.reg 0 (pageFab p + 0x40)

def State.portAxis (s : State) (p : Nat) : Nat := s.portCfg p % 8

def State.portDir (s : State) (p : Nat) : Nat := s.portCfg p / 8 % 2

def State.portEnabled (s : State) (p : Nat) : Bool := (s.portCfg p).testBit 5

/-- Is a port used by a job: its axis is longer than 1 in the map of a function's job (R273)? -/
def State.usedPort (s : State) (p : Nat) : Bool :=
  allFns.any (fun f => let j := (s.fn f).job; decide (j.st ≠ 0) && decide (coord (jmLenM1 j.map) (s.portAxis p) ≠ 0))

/-- Is a port in the topology in force: of some job that uses it, or in PARTNER where none does (R273)? -/
def State.inForce (s : State) (p : Nat) : Bool :=
  if s.usedPort p then allFns.any (fun f => let j := (s.fn f).job; decide (j.st ≠ 0) && j.topo.testBit p) else decide ((s.port p).st = 3)

/-- Mask of the ports in PARTNER, and of those in the topology in force. -/
def State.partnerMask (s : State) : Nat := sumNat ((List.range 12).map (fun p => if (s.port p).st = 3 then 2 ^ p else 0))

def State.forceMask (s : State) : Nat := sumNat ((List.range 12).map (fun p => if s.inForce p then 2 ^ p else 0))

/-- The topology a function's collectives and routes use. -/
def State.topoOf (s : State) (f : FnId) : Nat := let j := (s.fn f).job; if j.st ≠ 0 then j.topo else s.forceMask

/-- Ports of one direction of an axis within a topology, ascending (R265, R273). -/
def State.portsToward (s : State) (mask axis dir : Nat) : List Nat :=
  (List.range 12).filter (fun p => decide (s.portAxis p = axis) && decide (s.portDir p = dir) && mask.testBit p)

/-- Direction on a ring: the shorter way, plus on a tie (R265, R308): 0 plus, 1 minus. -/
def shorterWay (own dest len : Nat) : Nat :=
  let d := (dest + len - own) % len
  if d ≤ len - d then 0 else 1

/-- Ports that lead to a position: dimension order, the shorter way, the other way where that direction has no partner (R265).
The answer is empty where there is no path, and none at the position itself. -/
def State.route (s : State) (mask dest : Nat) : Option (List Nat) :=
  let own := s.pos
  match (List.range 5).find? (fun a => decide (coord own a ≠ coord dest a)) with
  | none => none
  | some a =>
    let dir := shorterWay (coord own a) (coord dest a) (coord s.lenM1 a + 1)
    let ps := s.portsToward mask a dir
    some (if ps.isEmpty then s.portsToward mask a (1 - dir) else ps)

/-! ## Sending (R263, R264) -/

def listSet (xs : List Nat) (i : Nat) (g : Nat → Nat) : List Nat := xs.mapIdx (fun j v => if j = i then g v else v)

/-- Can a frame leave now: credit in its pool, and room in the replay buffer of 512 KiB and 2,048 frames? -/
def Port.canSend (x : Port) (f : Frame) : Bool :=
  decide (frameCredits f ≤ x.credits.getD (poolOf f) 0) && decide (x.replay.length < 2048)
    && decide (sumNat (x.replay.map (fun g => 16 + g.payload.length)) + 16 + f.payload.length ≤ 524288)

/-- The frame leaves: it takes the next SEQ and its credits, and stays in the replay buffer until it is acknowledged. -/
def Port.transmit (x : Port) (f : Frame) : Port :=
  { x with replay := x.replay ++ [stampFrame f x.txSeq], txSeq := (x.txSeq + 1) % 4096,
           credits := listSet x.credits (poolOf f) (fun v => v - frameCredits f) }

/-- Send one frame on a port, or keep it until it can leave; a port that carries no frames discards it (R274), and a
device in fault sends no job frames (R433). -/
def State.sendOn (s : State) (p : Nat) (f : Frame) : State :=
  let x := s.port p
  if s.boot.fault ∧ 4 ≤ fhType f.hdr ∧ fhType f.hdr ≤ 8 then s
  else if x.st = 3 ∨ (x.st ≠ 0 ∧ x.st ≠ 1 ∧ fhType f.hdr = 1) then
    if x.queued.any (fun g => decide (poolOf g = poolOf f)) || !x.canSend f then
      (s.setPort p { x with queued := x.queued ++ [f] }).wait (pageFab p + 0x6C)
    else s.setPort p (x.transmit f)
  else s

/-- Send what can leave of the frames that wait, VC0 first (R264). -/
def drainQueued : Nat → Port → Port
  | 0, x => x
  | n + 1, x =>
    let ready := fun f => x.canSend f && !(x.queued.takeWhile (fun g => decide (g ≠ f))).any (fun g => decide (poolOf g = poolOf f))
    match takeFirst (fun f => decide (fhVc f.hdr = 0) && ready f) x.queued with
    | (some f, rest) => drainQueued n ({ x with queued := rest }.transmit f)
    | (none, _) =>
      match takeFirst ready x.queued with
      | (some f, rest) => drainQueued n ({ x with queued := rest }.transmit f)
      | (none, _) => x

/-! ## Sealing (R366) -/

/-- The function's newest link slot in force for its job. -/
def State.sealSlot (s : State) (f : FnId) : Option Nat :=
  let job := jmJobId (s.fn f).job.map
  ((List.range 4).filter (fun i => let l := s.link i; l.inForce && decide (l.job.toNat = job) && decide (job ≠ 0))).foldl
    (fun (best : Option Nat) i => match best with
      | none => some i
      | some b => if (s.link b).activation ≤ (s.link i).activation then some i else some b) none

/-- Nonce of a sealed payload: its block's low 96 bits. -/
def nonceOf (payload : List Byte) : Nat := ofBytes (payload.take 12)

/-- Additional data of a sealed frame: header bits [95:0] with SEQ zero. -/
def sealHeader (hdr : BitVec 128) : List Byte := leBytes 12 ((withFld hdr 19 8 0).toNat % 2 ^ 96)

/-- Seal a VC1 or VC2 frame of a function's job, where sealing is in force. -/
def State.sealFrame (s : State) (f : FnId) (fr : Frame) : Frame × State :=
  match s.sealSlot f with
  | none => (fr, s)
  | some i =>
    let l := s.link i
    let block := leBytes 16 (s.chip + (l.counter % 2 ^ 80) * 2 ^ 16)
    let units := (16 + fr.payload.length + 16) / 16
    let hdr := withFld (withFld (withFld fr.hdr 6 6 1) 26 20 units) 95 94 i
    let ct := Config.gcmSeal l.key (nonceOf block) (sealHeader hdr) fr.payload
    ({ hdr := hdr, payload := (block ++ ct).take (16 * units) ++ List.replicate (16 * units - (16 + ct.length)) 0 },
      s.setLink i { l with counter := l.counter + 1 })

/-- Open a sealed frame: none where the slot is unknown or the tag fails. -/
def State.openFrame (s : State) (fr : Frame) : Option Frame :=
  if !fhSealed fr.hdr then some fr
  else
    let l := s.link (fhKeySlot fr.hdr)
    if l.job = 0 then none
    else
      match Config.gcmOpen l.key (nonceOf fr.payload) (sealHeader fr.hdr) (fr.payload.drop 16) with
      | none => none
      | some p => some { hdr := withFld (withFld fr.hdr 6 6 0) 26 20 (p.length / 16), payload := p }

/-! ## Receiving (R261 to R264) -/

/-- Does a port take this frame: it has a partner, the header is one a receiver takes, of the type expected, and no other SEQ than
the one asked for while a NAK is outstanding (log entry 57)? -/
def State.takes (s : State) (p : Nat) (fr : Frame) (type : Nat) : Bool :=
  let x := s.port p
  decide (x.st = 3) && headerOk fr && decide (fhType fr.hdr = type) && (!x.nak || decide (fhSeq fr.hdr = x.rxSeq))

/-- The frame leaves the receive buffer: its SEQ is the last one taken, and its credits go back with the next LCTRL. -/
def Port.accept (x : Port) (fr : Frame) : Port :=
  { x with rxSeq := (fhSeq fr.hdr + 1) % 4096, nak := false, owed := listSet x.owed (poolOf fr) (fun v => v + frameCredits fr) }

/-- The frame stays in the receive buffer: no credit goes back yet (R318). -/
def Port.keep (x : Port) (fr opened : Frame) : Port :=
  { x with rxSeq := (fhSeq fr.hdr + 1) % 4096, nak := false, kept := x.kept ++ [(fhChannel fr.hdr, opened)] }

/-- A frame whose command carries no header is the next in SEQ order and frees its credits (log entry 57). -/
def State.took (s : State) (p pool units : Nat) : State :=
  let x := s.port p
  s.setPort p { x with rxSeq := (x.rxSeq + 1) % 4096, nak := false, owed := listSet x.owed pool (fun v => v + (16 + 16 * units + 63) / 64) }

/-- A sealed frame fails its tag or names an unknown slot: dropped, counted and logged (R366). -/
def State.sealFail (s : State) (p : Nat) (fr : Frame) : State :=
  ((s.count (pageSec + 0x70)).raise pageSec 1).logPkg 0x8381 0 p (fhSrcChip fr.hdr)

/-- Frames kept for the channels of a function are dropped and their credits go back. -/
def State.dropKept (s : State) (f : FnId) : State :=
  (List.range 12).foldl (fun (s : State) p =>
    let x := s.port p
    let mine := fun (k : Nat × Frame) => ((s.fn f).channels p).testBit k.1
    let owed := (x.kept.filter mine).foldl (fun o k => listSet o (poolOf k.2) (fun v => v + frameCredits k.2)) x.owed
    s.setPort p { x with kept := x.kept.filter (fun k => !mine k), owed := owed }) s

/-! ## DATA messages (R265, Table 11-3, log entry 56) -/

/-- Sub-header of a DATA frame without its offset: destination address, kind (0 shard, 1 stage message, 2 stage credit, 3 scarf
piece) and message id. -/
def dataSub (addr kind id : Nat) : Nat := addr % 2 ^ 44 + kind * 2 ^ 44 + (id % 2 ^ 32) * 2 ^ 64

/-- Fields of a sub-header; the byte offset is counted in 16-byte units. -/
def dsAddr (x : Nat) : Nat := field x 43 0
def dsKind (x : Nat) : Nat := field x 45 44
def dsId (x : Nat) : Nat := field x 95 64
def dsOffset (x : Nat) : Nat := field x 127 96 * 16

/-- Send one DATA message of a function on a port, in frames of the largest payload; the last one stands for it until it is
acknowledged. -/
def State.sendMessage (s : State) (f : FnId) (r : OpRef) (port pos chip sub : Nat) (body : List Byte) : State :=
  let size := if (s.sealSlot f).isSome then 1488 else 1520
  let parts := if body.isEmpty then [[]] else chunks size body
  let n := parts.length
  parts.zipIdx.foldl (fun s b =>
    let payload := leBytes 16 (sub + b.2 * (size / 16) * 2 ^ 96) ++ b.1
    let (fr, s) := s.sealFrame f (mkFrame 8 (decide (b.2 + 1 = n)) 0 pos chip s.chip payload)
    let s := s.sendOn port fr
    if b.2 + 1 = n then { s with outbox := s.outbox ++ [{ op := r, port := port, last := fr }] } else s) s

/-- A frame as it was before it took a SEQ and its CRC. -/
def unstamp (f : Frame) : Frame := { f with hdr := withFld (withFld f.hdr 19 8 0) 127 96 0 }

/-- Is a message still under way: its last frame waits, or has not been acknowledged? -/
def State.underway (s : State) (o : Outbound) : Bool :=
  let x := s.port o.port
  x.queued.contains o.last || x.replay.any (fun g => decide (unstamp g = o.last))

/-- Messages of an operation under way. -/
def State.sending (s : State) (r : OpRef) : Bool := s.outbox.any (fun o => decide (o.op = r) && s.underway o)

/-- Bytes of a message so far, with a further frame's. -/
def addInbound (src sub : Nat) (bytes : List Byte) : List Inbound → List Inbound
  | [] => [{ src := src, sub := sub, bytes := bytes }]
  | x :: xs => if x.src = src ∧ x.sub = sub then { x with bytes := x.bytes ++ bytes } :: xs else x :: addInbound src sub bytes xs

/-- One DATA frame of a message arrives: the message where it is the last one. -/
def State.assemble (s : State) (fr : Frame) : Option (Nat × List Byte) × State :=
  let head := ofBytes (fr.payload.take 16)
  let sub := head % 2 ^ 96
  let src := fhSrcChip fr.hdr
  let all := addInbound src sub (fr.payload.drop 16) s.inbox
  if fhLast fr.hdr then
    (some (sub, ((all.find? (fun x => decide (x.src = src) && decide (x.sub = sub))).map (·.bytes)).getD []),
      { s with inbox := all.filter (fun x => !(decide (x.src = src) && decide (x.sub = sub))) })
  else (none, { s with inbox := all })

/-! ## Beat messages (Table 11-5) -/

def bmKind {n : Nat} (d : BitVec n) : Nat := fld d 3 0
def bmPeriod {n : Nat} (d : BitVec n) : Nat := fld d 7 4
def bmNumber {n : Nat} (d : BitVec n) : Nat := fld d 95 32
def bmArg1 {n : Nat} (d : BitVec n) : Nat := fld d 127 96
def bmArg2 {n : Nat} (d : BitVec n) : Nat := fld d 159 128
def bmOrigin {n : Nat} (d : BitVec n) : Nat := fld d 175 160
def bmMaster {n : Nat} (d : BitVec n) : Nat := fld d 191 176

/-- A beat message of this package. -/
def State.beatMsg (s : State) (kind number arg1 arg2 origin : Nat) : BitVec 256 :=
  BitVec.ofNat 256 (kind + (s.beat.period % 16) * 2 ^ 4 + (number % 2 ^ 64) * 2 ^ 32 + (arg1 % 2 ^ 32) * 2 ^ 96
    + (arg2 % 2 ^ 32) * 2 ^ 128 + (origin % 2 ^ 16) * 2 ^ 160 + s.beat.master.toNat * 2 ^ 176)

/-- SOURCE of BEAT_CFG: 0 local, 1 CAD_IN, 2 fabric (Table 20-4). -/
def State.beatSource (s : State) : Nat := s.reg 0 (pageBeat + 0x40) / 16 % 4

/-- Does any port have a partner? -/
def State.hasPartner (s : State) : Bool := (List.range 12).any (fun p => decide ((s.port p).st = 3))

/-- Is this package the cadence master: the member MASTER_NOW names, or a package on its local reference with no partner
(Table 2-2)? -/
def State.isMaster (s : State) : Bool :=
  (decide (s.beat.master.toNat = s.chip) && decide (s.chip ≠ 0xFFFF)) || (decide (s.beatSource = 0) && !s.hasPartner)

def State.isBackup (s : State) : Bool := decide (s.beat.backup.toNat = s.chip) && decide (s.chip ≠ 0xFFFF)

/-- The partner's HELLO fields (Table 11-6). -/
def heChip {n : Nat} (d : BitVec n) : Nat := fld d 15 0
def hePort {n : Nat} (d : BitVec n) : Nat := fld d 19 16
def heAxis {n : Nat} (d : BitVec n) : Nat := fld d 22 20
def heDir {n : Nat} (d : BitVec n) : Nat := fld d 23 23
def hePos {n : Nat} (d : BitVec n) : Nat := fld d 53 24
def heLenM1 {n : Nat} (d : BitVec n) : Nat := fld d 83 54
def hePeriod {n : Nat} (d : BitVec n) : Nat := fld d 95 92
def heEligible {n : Nat} (d : BitVec n) : Bool := flag d 96
def heInDomain {n : Nat} (d : BitVec n) : Bool := flag d 97
def heMaster {n : Nat} (d : BitVec n) : Nat := fld d 119 104
def heDist {n : Nat} (d : BitVec n) : Nat := fld d 127 120

/-- A BEAT frame to the partner on a port. -/
def State.beatFrame (s : State) (p : Nat) (msg : BitVec 256) : Frame :=
  let h := (s.port p).hello
  mkFrame 2 true 0 (hePos h) (heChip h) s.chip (leBytes 32 msg.toNat)

/-- Ports away from the master: partners other than the parent that stand further from it (R270). -/
def State.childPorts (s : State) : List Nat :=
  (List.range 12).filter (fun p => let x := s.port p
    decide (x.st = 3) && decide (s.beat.parent.map (·.val) ≠ some p) && decide (s.beat.dist < heDist x.hello))

def State.sendDown (s : State) (msg : BitVec 256) : State := s.childPorts.foldl (fun s p => s.sendOn p (s.beatFrame p msg)) s

/-- Send a message toward the master through the parent; without one it goes nowhere. -/
def State.sendUpTree (s : State) (msg : BitVec 256) : State :=
  match s.beat.parent with
  | some p => s.sendOn p.val (s.beatFrame p.val msg)
  | none => s

/-- The beat tree (R270): parent is the partner with the lowest DIST, lower port on a tie; DIST is one more, 0 at the master. -/
def State.rebuildTree (s : State) : State :=
  if s.isMaster then { s with beat := { s.beat with parent := none, dist := 0 } }
  else
    let best := (List.finRange 12).foldl (fun (b : Option PortId) p =>
      let x := s.port p.val
      if x.st = 3 ∧ heDist x.hello < 0xFF then
        match b with
        | none => some p
        | some q => if heDist x.hello < heDist (s.port q.val).hello then some p else some q
      else b) none
    match best with
    | some p => { s with beat := { s.beat with parent := some p, dist := min (heDist (s.port p.val).hello + 1) 0xFF } }
    | none => { s with beat := { s.beat with parent := none, dist := 0xFF } }

/-! ## Master and backup (R40) -/

/-- Least of some chip ids, 0xFFFF for none. -/
def leastChip (xs : List Nat) : Nat := xs.foldl min 0xFFFF

/-- Members known to be eligible: this package, its partners as their HELLOs say, and the masters those follow (R40). -/
def State.eligible (s : State) : List Nat :=
  (if (s.reg 0 (pageBeat + 0x40)).testBit 7 ∧ s.chip ≠ 0xFFFF then [s.chip] else [])
  ++ (List.range 12).flatMap (fun p => let x := s.port p
    if x.st = 3 then (if heEligible x.hello then [heChip x.hello] else []) ++ (if heMaster x.hello ≠ 0xFFFF then [heMaster x.hello] else [])
    else [])

/-- A value of MASTER_ID or BACKUP_ID that names a member; a package with no partner has no member but itself (R40). -/
def State.namedChip (s : State) (v : Nat) : Option Nat :=
  if v = 0xFFFF ∨ (!s.hasPartner ∧ v ≠ s.chip) then none else some v

/-- The backup: the one named unless it has failed, else the lowest eligible member that is not the master and has not failed. -/
def State.pickBackup (s : State) (master : Nat) : Nat :=
  let failed := fun (c : Nat) => s.beat.failedBackups.any (fun b => decide (b.toNat = c))
  match (s.namedChip (s.reg 0 (pageBeat + 0x48) / 2 ^ 16)).filter (fun c => !failed c && decide (c ≠ master)) with
  | some c => c
  | none => leastChip (s.eligible.filter (fun c => !failed c && decide (c ≠ master)))

/-- A change of master is logged and raised once there was one before (Tables 18-4, 20-4). -/
def State.newMaster (s : State) (master : Nat) : State :=
  let old := s.beat.master
  let s := { s with beat := { s.beat with master := BitVec.ofNat 16 master } }
  if old.toNat = master ∨ old = 0xFFFF then s else (s.raise pageBeat 1).logPkg 0x9303 0 master 0

/-- Elect master and backup (R40), and build the tree anew (R270). -/
def State.elect (s : State) : State :=
  let master := (s.namedChip (s.reg 0 (pageBeat + 0x48) % 2 ^ 16)).getD (leastChip s.eligible)
  let s := s.newMaster master
  let s := { s with beat := { s.beat with backup := BitVec.ofNat 16 (s.pickBackup master) } }
  s.rebuildTree

/-! ## Management messages (R265) -/

/-- The partner that has a chip id. -/
def State.portOfChip (s : State) (chip : Nat) : Option Nat :=
  (List.range 12).find? (fun p => let x := s.port p; decide (x.st = 3) && decide (heChip x.hello = chip))

/-- Position of a chip: a partner's as its HELLO says, else as the package has learnt it (log entry 12). -/
def State.posOfChip (s : State) (chip : Nat) : Nat :=
  match s.portOfChip chip with
  | some p => hePos (s.port p).hello
  | none => (Config.posOf chip).toNat

/-- Chip id of the package at a position. -/
def State.chipAtPos (s : State) (pos : Nat) : Nat :=
  if pos = s.pos then s.chip
  else match (List.range 12).find? (fun p => let x := s.port p; decide (x.st = 3) && decide (hePos x.hello = pos)) with
    | some p => heChip (s.port p).hello
    | none => (Config.chipAt pos).toNat

/-- Send a management message; one without a path is dropped and not logged (R265). -/
def State.sendMgmt (s : State) (chip : Nat) (payload : List Byte) : State :=
  let pos := s.posOfChip chip
  match s.route s.forceMask pos with
  | some (p :: _) => s.sendOn p (mkFrame 9 true 0 pos chip s.chip payload)
  | _ => s

/-! ## HELLO (Table 11-6) -/

/-- Up to four job ids the package takes part in, ascending by function (R271). -/
def State.jobIds (s : State) : List Nat :=
  ((allFns.filter (fun f => decide ((s.fn f).job.st ≠ 0))).map (fun f => jmJobId (s.fn f).job.map)).eraseDups.take 4

/-- This package's HELLO payload for a port. -/
def State.helloFields (s : State) (p : Nat) : BitVec 512 :=
  let jobs := (s.jobIds ++ [0, 0, 0, 0]).take 4
  BitVec.ofNat 512 (s.chip + p * 2 ^ 16 + s.portAxis p * 2 ^ 20 + s.portDir p * 2 ^ 23 + s.pos * 2 ^ 24 + s.lenM1 * 2 ^ 54
    + 0xA1 * 2 ^ 84 + (s.beat.period % 16) * 2 ^ 92 + b2n ((s.reg 0 (pageBeat + 0x40)).testBit 7) * 2 ^ 96
    + b2n s.beat.inDomain * 2 ^ 97 + s.beat.master.toNat * 2 ^ 104 + (s.beat.dist % 256) * 2 ^ 120
    + (jobs.foldr (fun j acc => j % 2 ^ 32 + acc * 2 ^ 32) 0) * 2 ^ 128)

/-- Send a HELLO on a port whose link is up. -/
def State.sendHello (s : State) (p : Nat) : State :=
  let x := s.port p
  if x.st < 2 then s else s.sendOn p (mkFrame 1 true 0 (hePos x.hello) (heChip x.hello) s.chip (leBytes 64 (s.helloFields p).toNat))

def State.sendHellos (s : State) : State := (List.range 12).foldl State.sendHello s

end Sys2Proof.Machine
end

