-- ==== Sys2Proof/Machine/Commit.lean ====
section
/-! DEFINITION. Step commit: epoch pairs (R321), failing the step and voting (R322, R326), the master's decisions (R324, R325,
R328), applying a decision at the step boundary with the boundary rules (R273, R281, R285, R292, R299, R327), and the
completion of an operation that faults. -/

namespace Sys2Proof.Machine

/-! ## Epoch pairs (R321) -/

/-- An epoch pair in force: sides 0 and 1, bytes, and the epoch that selects. -/
structure Pair where
  side0 : Nat
  side1 : Nat
  bytes : Nat
  epoch : Bool
  deriving DecidableEq, Repr

/-- The pairs of a function: those registered, and the slices of its contexts in training under their own EPOCH. -/
def State.pairs (s : State) (f : FnId) : List Pair :=
  let st := (s.fn f).step
  st.pairs.map (fun p => { side0 := p.1, side1 := p.2.1, bytes := p.2.2, epoch := st.epoch })
  ++ (s.ctxs.filter (fun c => decide (cxOwner c.2 = f.val) && decide (cxState c.2 = 3))).map (fun c =>
    { side0 := cxSlice0 c.2, side1 := cxSlice1 c.2, bytes := frLayers (s.frame (cxFrame c.2)).record * cxSliceStride c.2 * 128,
      epoch := decide (cxEpoch c.2 = 1) })

/-- Does a range lie partly inside side 0 of a pair and partly outside it? -/
def State.epochSpan (s : State) (f : FnId) (a n : Nat) : Bool :=
  (s.pairs f).any (fun p => overlaps a n p.side0 p.bytes && !(decide (p.side0 ≤ a) && decide (a + n ≤ p.side0 + p.bytes)))

/-- Where an access to a range goes: side 0 of a pair stands for side E when read, side 1 − E when written. -/
def State.epochAddr (s : State) (f : FnId) (write : Bool) (a : Nat) : Nat :=
  match (s.pairs f).find? (fun p => decide (p.side0 ≤ a) && decide (a < p.side0 + p.bytes)) with
  | none => a
  | some p => if p.epoch != write then p.side1 + (a - p.side0) else a

def State.readAddr (s : State) (f : FnId) (a : Nat) : Nat := s.epochAddr f false a

def State.writeAddr (s : State) (f : FnId) (a : Nat) : Nat := s.epochAddr f true a

/-- Does a range touch an epoch pair, or the slices of a training context of the function (R327)? -/
def State.touchesShadow (s : State) (f : FnId) (a n : Nat) : Bool :=
  (s.pairs f).any (fun p => overlaps a n p.side0 p.bytes || overlaps a n p.side1 p.bytes)

/-- Is an access held until the decision is applied (R327)? -/
def State.decideHold (s : State) (f : FnId) (ranges : List (Nat × Nat)) : Bool :=
  (s.fn f).step.sent && ranges.any (fun r => s.touchesShadow f r.1 r.2)

/-! ## The job -/

/-- Functions of this package in a job. -/
def State.jobFns (s : State) (job : Nat) : List FnId :=
  allFns.filter (fun f => let j := (s.fn f).job; decide (j.st ≠ 0) && decide (jmJobId j.map = job) && decide (job ≠ 0))

def State.mapped (s : State) (f : FnId) : Bool := let j := (s.fn f).job; decide (j.st ≠ 0) && decide (jmJobId j.map ≠ 0)

/-- The number of the open step (R323). -/
def State.openStep (s : State) (f : FnId) : Nat := ((s.fn f).step.step + 1).toNat

def Fn.modJob (x : Fn) (g : JobState → JobState) : Fn := { x with job := g x.job }

def Fn.modStep (x : Fn) (g : StepState → StepState) : Fn := { x with step := g x.step }

def Fn.modSec (x : Fn) (g : SecState → SecState) : Fn := { x with sec := g x.sec }

def State.modJob (s : State) (f : FnId) (g : JobState → JobState) : State := s.modFn f (fun x => x.modJob g)

def State.modStep (s : State) (f : FnId) (g : StepState → StepState) : State := s.modFn f (fun x => x.modStep g)

def State.modSec (s : State) (f : FnId) (g : SecState → SecState) : State := s.modFn f (fun x => x.modSec g)

/-- Set JOB_STATE to BROKEN (R298, R328). -/
def State.breakJob (s : State) (f : FnId) : State :=
  if (s.fn f).job.st = 3 then s
  else (s.modJob f (fun j => { j with st := 3, remapped := false, scarf := none })).raise (pageJobf f.val) 1

/-- Is an operation of the collective class other than a truss (R327)? -/
def Op.collective (o : Op) : Bool := decide (hdClass o.desc = 4) && decide (hdOp o.desc ≠ 1)

/-! ## The scarf's pieces (Table 12-7) -/

/-- An entry of a piece table. -/
structure Piece where
  addr : Nat
  bytes : Nat
  partner : Nat
  incoming : Bool
  reserved : Bool
  round : Nat
  id : Nat
  deriving DecidableEq, Repr

/-- The piece table of a scarf, in the scratchpad of its core. -/
def State.pieces (s : State) (f : FnId) (d : Desc) : List Piece :=
  match s.phys? f (sfPcore d) with
  | none => []
  | some c => (List.range (sfPiecesM1 d + 1)).map (fun i =>
      let e := s.nat (spKey c.val (sfPieceAddr d) + 16 * i) 16
      { addr := field e 43 0, bytes := (field e 63 44 + 1) * 128, partner := field e 93 64, incoming := decide (field e 94 94 = 1),
        reserved := decide (field e 95 95 = 1), round := field e 103 96, id := field e 127 104 })

/-- A scarf that ends before its commit leaves its pieces undefined (R298, R493). -/
def State.spoilScarf (s : State) (f : FnId) : State :=
  match (s.fn f).job.scarf with
  | none => s
  | some z => (s.pieces f z.desc).foldl (fun (s : State) p =>
      let a := s.writeAddr f p.addr
      { s with mem := memWrite s.mem a ((List.range p.bytes).map (fun i => BitVec.ofNat 8 (Config.freeValue (s.fresh + i)))), fresh := s.fresh + p.bytes }) s

/-- Slots of links whose job has no function on the package any more are zeroed (R365). -/
def State.dropLinks (s : State) (job : Nat) : State :=
  if (s.jobFns job).isEmpty then
    (List.range 4).foldl (fun s i => if (s.link i).job.toNat = job ∧ job ≠ 0 then s.setLink i LinkSlot.reset else s) s
  else s

/-! ## Checkpoints (R299, R300) -/

/-- The list a save or restore names in a scratchpad: device address, bytes, tensor id. -/
def State.regionList (s : State) (key n : Nat) : List (Nat × Nat × Nat) :=
  (List.range n).map (fun i => let e := s.nat (key + 16 * i) 16; (field e 43 0, field e 95 64 * 128, field e 127 96))

/-- Offsets of region bytes, each on a 128-byte boundary. -/
def regionOffsets : Nat → List (Nat × Nat × Nat) → List Nat
  | _, [] => []
  | off, r :: rs => off :: regionOffsets (off + (r.2.1 + 127) / 128 * 128) rs

def pad128 (bs : List Byte) : List Byte := bs ++ List.replicate ((128 - bs.length % 128) % 128) 0

/-- The bytes of the record of Table 12-8: the committed epoch, the watch entries, the job map and seed. -/
def State.checkpointBytes (s : State) (f : FnId) (list : List (Nat × Nat × Nat)) (first count : Nat) : List Byte :=
  let x := s.fn f
  let watch := (List.range count).flatMap (fun i => match x.watchEntry? (first + i) with
    | some a => s.bytes a 128
    | none => List.replicate 128 0)
  let start := (256 + 32 * list.length + 128 * count + 127) / 128 * 128
  let bodies := list.map (fun r => (List.range r.2.1).map (fun i => memByte s.mem (s.readAddr f (r.1 + i))))
  let offs := regionOffsets start list
  let table := (list.zip (offs.zip bodies)).flatMap (fun e =>
    leBytes 32 (e.1.1 + e.1.2.1 * 2 ^ 64 + e.2.1 * 2 ^ 112 + e.1.2.2 * 2 ^ 160 + crc32c e.2.2 * 2 ^ 192))
  let rest := pad128 (table ++ watch) ++ bodies.flatMap pad128
  let digest := Config.shake256 rest 256 % 2 ^ 256
  let job := if s.mapped f then x.job.map.toNat else 0
  let step := x.step.step.toNat
  leBytes 256 (1 + f.val * 2 ^ 16 + (job % 2 ^ 32) * 2 ^ 32 + step * 2 ^ 64 + x.seed.toNat * 2 ^ 128 + s.chip * 2 ^ 192
    + list.length * 2 ^ 208 + count * 2 ^ 224 + job * 2 ^ 256 + digest * 2 ^ 768
    + (step % 2 ^ 32 + list.length * 2 ^ 32 + 0xC7A1 * 2 ^ 48) * 2 ^ 1984) ++ rest

/-- Fields of a save or restore: scratchpad offset of the list, entries, first watch entry. -/
def ckOff (d : Desc) : Nat := fld d 151 128
def ckRegions (d : Desc) : Nat := fld d 163 152 + 1

/-- Write a checkpoint record and complete the save. -/
def State.runSave (s : State) (o : Op) (d : Desc) : State :=
  let f := o.fn
  match s.phys? f (hdCore d) with
  | none => s.complete o 4 0 0 0
  | some c =>
    let list := s.regionList (spKey c.val (ckOff d)) (ckRegions d)
    let s := s.write (ctAddr d) (s.checkpointBytes f list (fld d 175 164) (fld d 188 176))
    let s := s.modJob f (fun j => { j with ckptStep := (s.fn f).step.step, save := none })
    (s.done o).raise (pageJobf f.val) 2

/-! ## The step boundary -/

/-- Empty a stage queue: MB 0, full credit (R291, R292). -/
def StageQ.clear (q : StageQ) : StageQ := { q with credits := sqDepthM1 q.record + 1, nextMb := 0, held := [] }

/-- Messages discarded at a commit: their stage-free operations complete with status discarded (R292). -/
def State.discardStages (s : State) (f : FnId) : State :=
  let qs := (s.fn f).job.stages.filterMap (fun e => e.2.map (fun q => (e.1, q)))
  let left := sumNat (qs.map (fun e => e.2.held.length))
  let frees := s.ops.filter (fun o => decide (o.fn = f) && decide (hdClass o.desc = 6) && decide (hdOp o.desc = 0x42)
    && qs.any (fun e => decide (e.1 = fld o.desc 133 128) && decide (fld o.desc 191 160 ∈ e.2.held)))
  let s := s.killAll frees 10
  if left = 0 then s else s.count (pageJobf f.val + 0x54) left

/-- The ports of a function's topology follow discovery at its boundary (R273). -/
def State.refreshTopology (s : State) (f : FnId) : State := s.modJob f (fun j => { j with topo := s.partnerMask })

/-- A pending job map takes effect; JOB_ID 0 leaves the job (R281). A BROKEN job stays BROKEN until a restore. -/
def State.takeMap (s : State) (f : FnId) (m : BitVec 512) : State :=
  let old := jmJobId (s.fn f).job.map
  let s := s.modJob f (fun j => if jmJobId m = 0 then { j with map := 0, st := 0, pendingMap := none }
    else { j with map := m, pendingMap := none, st := if j.st = 3 then 3 else 1, remapped := true, topo := s.partnerMask })
  (s.dropLinks old).sendHellos

/-- Rules that hold at every step boundary of a function: topology, tag slots, stage queues, job map, sealing, a save. -/
def State.boundary (s : State) (f : FnId) : State :=
  let s := s.refreshTopology f
  let s := { s with redDone := s.redDone.filter (fun t => decide (t.1 ≠ f.val)) }
  let s := s.modJob f (fun j => { j with tags := [], stages := j.stages.map (fun e => (e.1, e.2.map StageQ.clear)) })
  let s := match (s.fn f).job.pendingMap with
    | some m => s.takeMap f m
    | none => s
  let job := jmJobId (s.fn f).job.map
  let openNow := s.openStep f
  let s := (List.range 4).foldl (fun (s : State) i => let l := s.link i
    if l.job.toNat = job ∧ job ≠ 0 ∧ l.activation.toNat ≤ openNow then s.setLink i { l with inForce := true } else s) s
  match (s.fn f).job.save with
  | some (r, d) => match s.op? r with
    | some o => s.runSave o d
    | none => s
  | none => s

/-- Every watch entry of a function, changed. -/
def State.allWatch (s : State) (f : FnId) (g : BitVec 1024 → BitVec 1024) : State :=
  match (s.fn f).watch with
  | some (_, _, n) => s.mapWatch f (List.range n) g
  | none => s

/-- End-training takes effect at the boundary: training contexts named become live (R248). -/
def State.endTrainings (s : State) (f : FnId) : State :=
  let s := (s.fn f).step.ending.foldl (fun s c => if cxState (s.ctx c) = 3 then s.setCtx c (withFld (s.ctx c) 34 32 2) else s) s
  s.modStep f (fun st => { st with ending := [] })

/-- The step state after a COMMIT: E flips and S advances (R327). -/
def StepState.committed (st : StepState) : StepState :=
  { st with epoch := !st.epoch, step := st.step + 1, fail := false, sent := false, issued := false, decision := none,
            aborts := 0, commitBeat := none, ready := false }

/-- The step state after an ABORT: E and S stay (R327, R328). -/
def StepState.aborted (st : StepState) (d : Decision) : StepState :=
  { st with fail := false, sent := false, issued := false, decision := none, aborts := d.aborts.toNat,
            lastCause := d.cause.toNat, commitBeat := none, ready := false }

/-- A scarf whose rounds are complete completes at the commit (R297). -/
def State.endScarf (s : State) (f : FnId) : State :=
  match (s.fn f).job.scarf with
  | none => s
  | some z =>
    let s := s.modJob f (fun j => { j with scarf := none, st := if j.st = 2 then 1 else j.st })
    match s.op? z.op with
    | some o => s.done o
    | none => s

/-- Apply the decision a function holds (R327, R328). -/
def State.applyDecision (s : State) (f : FnId) (d : Decision) : State :=
  let job := jmJobId (s.fn f).job.map
  let s := s.setJob job { s.job job with closed := false }
  if d.isCommit then
    let s := s.modStep f StepState.committed
    let ctxs := s.ctxs.map (fun c => if cxOwner c.2 = f.val ∧ cxState c.2 = 3
      then (c.1, withFld c.2 36 36 (1 - cxEpoch c.2)) else c)
    let s := { s with ctxs := ctxs }
    let s := (s.endTrainings f).endScarf f
    let s := s.allWatch f (fun e => if weEnable e = 1 then rollEntry e else e)
    let s := s.count (pageStepf f.val + 0x4C)
    (s.discardStages f).boundary f
  else
    let s := s.modStep f (fun st => st.aborted d)
    let s := s.endTrainings f
    let s := s.allWatch f (fun e => withFld e 239 224 0)
    let s := { s with mail := s.mail.filter (fun m => decide (m.job ≠ job)) }
    let s := (s.count (pageStepf f.val + 0x50)).raise (pageStepf f.val) 0
    let s := s.logFn (0x3440 + d.cause.toNat % 64) f 0 d.step.toNat job
    let s := if d.final then
        ((s.breakJob f).raise (pageStepf f.val) 1).logFn 0x6441 f 0 d.step.toNat job
      else s
    s.boundary f

/-- Hold a decision on every function of the job whose open step it names; an ABORT ends the step's collectives at once
(R327). A decision that comes after the COMMIT event is applied at once. An ABORT counts only once: its abort count must
exceed the member's (log entry 11). -/
def State.holdDecision (s : State) (job : Nat) (d : Decision) : State :=
  (s.jobFns job).foldl (fun s f =>
    let st := (s.fn f).step
    if s.openStep f ≠ d.step.toNat ∨ st.decision.isSome ∨ (!d.isCommit ∧ d.aborts.toNat ≤ st.aborts) then s
    else
      let s := s.modStep f (fun st => { st with decision := some d })
      let s := if d.isCommit then s
        else
          let scarf := (s.fn f).job.scarf.isSome
          let s := { s with reduces := s.reduces.filter (fun r => decide (r.fn ≠ f)) }.dropKept f
          let s := s.killAll (s.ops.filter (fun o => decide (o.fn = f) && o.collective)) 8
          if scarf then (s.spoilScarf f).breakJob f else s
      if st.commitBeat.isSome then s.applyDecision f d else s) s

/-! ## The master (R324, R325, R328) -/

/-- Broadcast a decision down the tree, and hold it here. -/
def State.broadcast (s : State) (job : Nat) (d : Decision) : State :=
  let arg2 := if d.isCommit then 0 else d.cause.toNat + d.aborts.toNat * 2 ^ 8 + b2n d.final * 2 ^ 16
  let s := s.sendDown (s.beatMsg (if d.isCommit then 6 else 7) d.step.toNat job arg2 s.chip)
  s.holdDecision job d

/-- Payload of the management message that carries a decision to the backup: the fields of Table 13-2 laid out as a beat
message (log entry 12). DESIGN CHOICE. -/
def State.decisionPayload (s : State) (job : Nat) (d : Decision) : List Byte :=
  leBytes 32 (s.beatMsg (if d.isCommit then 6 else 7) d.step.toNat job (d.cause.toNat + d.aborts.toNat * 2 ^ 8 + b2n d.final * 2 ^ 16)
    s.chip).toNat

/-- Is there a backup to echo decisions? -/
def State.hasBackup (s : State) : Bool := decide (s.beat.backup ≠ 0xFFFF) && decide (s.beat.backup.toNat ≠ s.chip)

/-- The decision on a step; the fourth abort of one step is final (R328). -/
def decisionFor (step : Nat) (isCommit : Bool) (cause aborts : Nat) : Decision :=
  { isCommit := isCommit, step := BitVec.ofNat 64 step, cause := BitVec.ofNat 8 cause, aborts := BitVec.ofNat 8 aborts,
    final := !isCommit && decide (4 ≤ aborts) }

/-- The master's record of a job after a decision. -/
def MasterJob.decided (j : MasterJob) (d : Decision) (now : Nat) (backup : Bool) : MasterJob :=
  { j with decision := some d, lastStep := d.step, aborts := d.aborts.toNat, readies := [], closed := true, sentBeat := now,
           echoed := !backup }

/-! ## Power shifting (R388 to R390) -/

/-! PWR_SLACK: job, step, slack in plan beats, what the member can give and take in 5 W units, chip id. -/
def psJob {n : Nat} (d : BitVec n) : Nat := fld d 31 0
def psStep {n : Nat} (d : BitVec n) : Nat := fld d 95 32
def psSlack {n : Nat} (d : BitVec n) : Nat := fld d 111 96
def psDown {n : Nat} (d : BitVec n) : Nat := 5 * fld d 119 112
def psUp {n : Nat} (d : BitVec n) : Nat := 5 * fld d 127 120
def psChip {n : Nat} (d : BitVec n) : Nat := fld d 143 128

/-- Insert by a strict order. -/
def insertBy {α : Type} (lt : α → α → Bool) (x : α) : List α → List α
  | [] => [x]
  | y :: ys => if lt x y then x :: y :: ys else y :: insertBy lt x ys

def sortBy {α : Type} (lt : α → α → Bool) (xs : List α) : List α := xs.foldr (insertBy lt) []

/-- Largest slack first, then chip id. -/
def donorFirst (a b : BitVec 256) : Bool := decide (psSlack b < psSlack a) || (decide (psSlack a = psSlack b) && decide (psChip a < psChip b))

/-- Least slack first, then chip id. -/
def takerFirst (a b : BitVec 256) : Bool := decide (psSlack a < psSlack b) || (decide (psSlack a = psSlack b) && decide (psChip a < psChip b))

/-- The pairs that shift power, with the watts each shifts (R389). -/
def shiftPairs (rs : List (BitVec 256)) : List (Nat × Nat × Nat) :=
  let smin := rs.foldl (fun m r => min m (psSlack r)) 65535
  let donors := sortBy donorFirst (rs.filter (fun r => decide (smin + 8 ≤ psSlack r) && decide (5 ≤ psDown r)))
  let takers := sortBy takerFirst (rs.filter (fun r => decide (psSlack r ≤ smin + 2) && decide (5 ≤ psUp r)))
  (donors.zip takers).map (fun p => (psChip p.1, psChip p.2, min 25 (min (psDown p.1) (psUp p.2))))

/-- Offset of a member as the master holds it: 0 before any shift; for a master that took the job over, the offset the member holds,
which no message tells it, is open (log entry 46). -/
def State.offsetOf (s : State) (j : MasterJob) (chip : Nat) : Int × State :=
  match j.offsets.find? (fun o => decide (o.1 = chip)) with
  | some o => (o.2, s)
  | none =>
    if chip = s.chip then (s.power.offset, s)
    else if j.adopted then let (v, s) := s.draw; (toSigned 12 (v % 4096), s)
    else (0, s)

/-- A member's new offset, kept for the first beat boundary after the COMMIT has been applied (R390). -/
def State.takeShift (s : State) (job : Nat) (offset : Int) : State :=
  if s.power.groupOn ∧ s.power.groupJob.toNat = job then { s with power := { s.power with nextOffset := some offset } } else s

/-- Change one member's offset and tell it. -/
def State.shiftMember (s : State) (job chip : Nat) (w : Int) : State :=
  let j := s.job job
  let (old, s) := s.offsetOf j chip
  let now := old + w
  let s := s.setJob job { j with offsets := (chip, now) :: j.offsets.filter (fun o => decide (o.1 ≠ chip)) }
  if chip = s.chip then s.takeShift job now
  else s.sendMgmt chip (leBytes 16 (job % 2 ^ 32 + ofSigned 12 now * 2 ^ 32))

/-- New offsets when the master decides COMMIT and holds a PWR_SLACK for that step from every group member it knows: those that
have reported before (log entry 45). DEDUCED. -/
def State.shiftPower (s : State) (job step : Nat) : State :=
  let j := s.job job
  let rs := j.slacks.filter (fun r => decide (psStep r = step))
  if rs.isEmpty || j.offsets.any (fun o => !rs.any (fun r => decide (psChip r = o.1))) then s
  else (shiftPairs rs).foldl (fun s p => (s.shiftMember job p.1 (-p.2.2)).shiftMember job p.2.1 p.2.2) s

/-- A PWR_SLACK at the master. -/
def State.onSlack (s : State) (msg : BitVec 256) : State :=
  let job := psJob msg
  let j := s.job job
  let kept := j.slacks.filter (fun r => decide (psChip r ≠ psChip msg))
  let known := j.offsets.any (fun o => decide (o.1 = psChip msg))
  let (off, s) := s.offsetOf j (psChip msg)
  s.setJob job { j with slacks := kept ++ [msg], offsets := if known then j.offsets else j.offsets ++ [(psChip msg, off)] }

/-! ## Deciding -/

/-- Decide one step of a job: to the backup first, broadcast once it has echoed; at once where no backup can be chosen. -/
def State.decideStep (s : State) (job step : Nat) (isCommit : Bool) (cause : Nat) : State :=
  let j := s.job job
  let prior := if j.lastStep.toNat = step then j.aborts else 0
  let aborts := if isCommit then 0 else prior + 1
  let d := decisionFor step isCommit cause aborts
  let s := s.setJob job (j.decided d s.beatNow s.hasBackup)
  let s := if isCommit then s.shiftPower job step else s
  if s.hasBackup then s.sendMgmt s.beat.backup.toNat (s.decisionPayload job d) else s.broadcast job d

/-- Are messages for a step ignored: it is decided, and an abort of it is not yet over here (R325, log entry 11)? -/
def MasterJob.ignores (j : MasterJob) (step : Nat) : Bool :=
  match j.decision with
  | some d => decide (d.step.toNat = step) && (d.isCommit || j.closed)
  | none => false

/-- A READY at the master. -/
def State.onReady (s : State) (job step origin : Nat) : State :=
  let j := s.job job
  if j.members = 0 ∨ j.ignores step then s
  else
    let rs := if j.readies.contains (BitVec.ofNat 16 origin) then j.readies else j.readies ++ [BitVec.ofNat 16 origin]
    let s := s.setJob job { j with readies := rs }
    if j.members ≤ rs.length then s.decideStep job step true 0 else s

/-- A vote at the master: it decides abort at the first one. -/
def State.onVote (s : State) (job step cause : Nat) : State := if (s.job job).ignores step then s else s.decideStep job step false cause

/-- Send a READY or a vote toward the master. -/
def State.toMaster (s : State) (kind step job arg2 : Nat) : State :=
  if s.isMaster then (if kind = 5 then s.onReady job step s.chip else s.onVote job step (arg2 % 256))
  else s.sendUpTree (s.beatMsg kind step job arg2 s.chip)

/-! ## The member (R322, R326) -/

/-- Send a vote for the open step; a function without a job has none to send (log entry 10). -/
def State.vote (s : State) (f : FnId) (cause : Nat) : State :=
  if s.mapped f then (s.modStep f (fun st => { st with sent := true })).toMaster 8 (s.openStep f) (jmJobId (s.fn f).job.map) cause else s

/-- Fail the open step; the first failure sends an abort vote at once. -/
def State.failStep (s : State) (f : FnId) (cause : Nat) : State :=
  if (s.fn f).step.fail then s else (s.modStep f (fun st => { st with fail := true })).vote f cause

/-- Vote cause of a fault cause (Table 13-3). -/
def voteCause (o : Op) (cause : Nat) : Nat :=
  if o.collective then
    match cause with
    | 0x81 => 1
    | 0x82 => 2
    | 0x84 => 2
    | 0x72 => 3
    | 0x6A => 7
    | 0x83 => 8
    | _ => 4
  else 4

/-- A matrix, vector, tenon, move or collective operation that completes with a fault fails the step (R322). -/
def State.fail (s : State) (o : Op) (cause : Nat) (detail : Nat := 0) : State :=
  let s := s.complete o 1 cause 0 detail
  if hdClass o.desc ≤ 4 then s.failStep o.fn (voteCause o cause) else s

/-- End an operation with a fault, its waiting command with it. -/
def State.failHeld (s : State) (o : Op) (cause : Nat) : State :=
  { s with parked := (takeFirst (parkedFor o) s.parked).2 }.fail o cause

end Sys2Proof.Machine
end

