-- ==== Sys2Proof/Machine/Forming.lean ====
section
/-! DEFINITION. Forming stored values: plank scales by SCALE_MODE (Table 3-4, R78, R96, R190), tiles and their lowering (R184,
R185), and row statistics (Table 5-5, R143). -/

namespace Sys2Proof.Machine

/-- Exponent of the largest finite value of a planked format (R78). -/
def emaxOf (fc : Nat) : Int :=
  match fc with
  | 3 => 8
  | 4 => 15
  | 5 => 4
  | 6 => 2
  | 7 => 2
  | _ => 0

/-- Scale code for a largest magnitude, with a margin (R78, R190). -/
def scaleCodeFor (fc : Nat) (a : Val) (margin : Int) : Nat :=
  if a.isZero then 127 else (max 0 (min 254 (a.log2 - emaxOf fc + 127 + margin))).toNat

/-- A plank as stored: element codes and scale byte. -/
structure Plank where
  codes : List Nat
  scale : Nat
  counts : Counts
  deriving DecidableEq, Repr

/-- Counts of a plank whose elements all read as NaN: only the elements that were NaN or infinite count as such (R75). -/
def lostCounts (vs : List Val) : Counts :=
  vs.foldl (fun c v => { c with elems := c.elems + 1, nonfin := c.nonfin + b2n (!v.isFinite) }) { Counts.none with amax := amaxOf vs }

/-- Store one plank at a scale code; a NaN under SAT_PROP without a NaN code turns the whole plank NaN (Table 3-3). -/
def formPlank (fc sat scale : Nat) (vs : List Val) : Plank :=
  let f := fmtOf fc
  if scale = 255 then
    { codes := vs.map (fun _ => 0), scale := 255,
      counts := { Counts.none with elems := vs.length, nonfin := vs.length, amax := amaxOf vs } }
  else
    let sts := vs.map (fun v => f.rne sat (v.scale (127 - (scale : Int))))
    if sts.any (fun st => st.plankNan) then { codes := vs.map (fun _ => 0), scale := 255, counts := lostCounts vs }
    else
      { codes := sts.map (fun st => st.code), scale := scale,
        counts := (vs.zip sts).foldl (fun c x => Counts.add f c x.1 x.2) Counts.none }

def Counts.join (a b : Counts) : Counts :=
  { elems := a.elems + b.elems, zeros := a.zeros + b.zeros, sats := a.sats + b.sats, nonfin := a.nonfin + b.nonfin,
    amax := if a.amax.lt b.amax then b.amax else a.amax }

def joinCounts (ps : List Plank) : Counts := ps.foldl (fun c p => c.join p.counts) Counts.none

/-- What one tile leaves: its planks, its counts, whether its first forming was over the threshold, whether it was stored
lowered, and whether it was still over then. -/
structure Tile where
  planks : List Plank
  counts : Counts
  beyond : Bool
  lowered : Bool
  still : Bool
  deriving DecidableEq, Repr

/-- Form a tile of planks with given scale codes, lowering it where the entry asks for it (R184, R185). -/
def formTile (fc sat : Nat) (lower : Option (BitVec 1024)) (planks : List (List Val × Nat)) : Tile :=
  let form := fun (raise : Nat) => planks.map (fun p => formPlank fc sat (if p.2 = 255 then 255 else min 254 (p.2 + raise)) p.1)
  let first := form 0
  let c := joinCounts first
  match lower with
  | some e =>
    if overThreshold e c.elems c.sats then
      let again := form (weStep e)
      let d := joinCounts again
      { planks := again, counts := d, beyond := true, lowered := true, still := overThreshold e d.elems d.sats }
    else { planks := first, counts := c, beyond := false, lowered := false, still := false }
  | none => { planks := first, counts := c, beyond := false, lowered := false, still := false }

/-- The scale code of a tile under SCALE_MODE 3 (R190): delayed, or just in time. -/
def historyCode (fc : Nat) (e : BitVec 1024) (vs : List Val) : Nat :=
  let margin := (weMargin e : Int)
  if weHistN e > 0 ∧ weBootLeft e = 0 then scaleCodeFor fc (weLargest e) margin else scaleCodeFor fc (amaxOf vs) margin

/-- Form every tile of a planked destination. `array` is the scale array of mode 2, one byte per plank. -/
def formPlanked (fc sat mode code plank : Nat) (array : List Nat) (entry : Option (BitVec 1024)) (lower : Bool) (rows : List (List Val)) :
    List Tile :=
  let planks := rows.flatMap (chunks plank)
  let numbered := planks.zip (array ++ List.replicate (planks.length - array.length) 0)
  (chunks (32768 / plank) numbered).map (fun tile =>
    let vs := tile.flatMap (·.1)
    let codes := tile.map (fun p =>
      match mode with
      | 0 => scaleCodeFor fc (amaxOf p.1) 0
      | 1 => code
      | 2 => p.2
      | _ => match entry with
        | some e => historyCode fc e vs
        | none => 127)
    formTile fc sat (if lower then entry.filter (fun e => weRecomp e = 1) else none) ((tile.map (·.1)).zip codes))

/-! ## Row statistics (Table 5-5, R143) -/

/-- The winning column and value of a row: NaN wins, ties go to the lowest column. -/
def rowBest (max : Bool) (vs : List Val) : Nat × Val :=
  match vs with
  | [] => (0, Val.zero)
  | v :: rest =>
    let r := rest.foldl (fun (acc : Nat × Nat × Val) x =>
      let (i, best, b) := acc
      let wins := if b.isNan then false else if x.isNan then true else if max then b.lt x else x.lt b
      if wins then (i + 1, i, x) else (i + 1, best, b)) (1, 0, v)
    (r.2.1, r.2.2)

/-- A sum in ascending column order, each addition rounded to OP24. -/
def sum24 (vs : List Val) : Val := vs.foldl (fun acc v => val24 (rne24 (acc.add v))) Val.zero

/-- The 32-bit record of a row under an epilogue code 1 to 5. -/
def rowRecord (f : Fmt) (sat epi : Nat) (vs : List Val) : Nat :=
  let code := fun v => (f.rne sat v).code
  match epi with
  | 1 => code (rowBest true vs).2
  | 2 => code (rowBest true vs).2 + code (sum24 vs) * 2 ^ 16
  | 3 => code (sum24 vs) + code (sum24 (vs.map (fun v => v.mul v))) * 2 ^ 16
  | 4 => let b := rowBest true vs; code b.2 + b.1 % 2 ^ 16 * 2 ^ 16
  | 5 => let b := rowBest false vs; code b.2 + b.1 % 2 ^ 16 * 2 ^ 16
  | _ => 0

/-- The statistic values a record stores, each with what it became, for the watch counts (log entry 27). -/
def rowStats (f : Fmt) (sat epi : Nat) (vs : List Val) : List (Val × Stored) :=
  let one := fun v => (v, f.rne sat v)
  match epi with
  | 1 => [one (rowBest true vs).2]
  | 2 => [one (rowBest true vs).2, one (sum24 vs)]
  | 3 => [one (sum24 vs), one (sum24 (vs.map (fun v => v.mul v)))]
  | 4 => [one (rowBest true vs).2]
  | 5 => [one (rowBest false vs).2]
  | _ => []

/-- An exact zero sum is +0 (R69). -/
def plusZero (v : Val) : Val := if v.isZero then Val.zero else v

end Sys2Proof.Machine
end

