-- ==== Sys2Proof/Machine/Tiles.lean ====
section
/-! DEFINITION. Accumulator tile slots (R131 to R141): opening, adding result rows in the order their vectors entered, joined
tenon contributions (R160, R164), readiness, freeing and discarding. -/

namespace Sys2Proof.Machine

/-- Matrix-engine instance of a core's engine e. -/
def meInst (c e : Nat) : Nat := 2 * c + e

def Me.slot (m : Me) (i : Nat) : Slot := SMap.get Slot.reset m.slots i

def Me.setSlot (m : Me) (i : Nat) (x : Slot) : Me := { m with slots := SMap.put Slot.reset m.slots i x }

def State.modMe (s : State) (i : Nat) (g : Me → Me) : State := s.setMe i (g (s.me i))

def State.modSlot (s : State) (i k : Nat) (g : Slot → Slot) : State := s.modMe i (fun m => m.setSlot k (g (m.slot k)))

/-! ## The shape of a matrix operation (Table 4-1, R121) -/

def is4bit (c : Nat) : Bool := decide (c = 7) || decide (c = 9)

/-- Pairing: 0 narrow, 1 byte, 2 half, 3 single. -/
def pairingOf (x w : Nat) : Nat :=
  if x = 0 ∨ w = 0 then 3 else if is16 x || is16 w then 2 else if is4bit x && is4bit w then 0 else 1

def mxPairing (d : Desc) : Nat := pairingOf (mxXFmt d) (mxWFmt d)

/-- Cycles a vector holds the entry edge. -/
def entryInterval (pairing : Nat) : Nat :=
  match pairing with
  | 2 => 2
  | 3 => 32
  | _ => 1

def mxRows (d : Desc) : Nat := mxRowsM1 d + 1
def mxSegs (d : Desc) : Nat := mxSegsM1 d + 1
def mxKlast (d : Desc) : Nat := mxKlastM1 d + 1

/-- Column width C: 1,024 in the narrow pairing. -/
def mxWidth (d : Desc) : Nat := if mxPairing d = 0 then 1024 else 512

/-- Slots of each row group. -/
def mxPerGroup (d : Desc) : Nat := mxWidth d / 512

/-- Row groups of 64 rows. -/
def groupsOf (rows : Nat) : Nat := (rows + 63) / 64

/-- Slots an operation uses, ascending. -/
def mxSlots (d : Desc) : List Nat := (List.range (groupsOf (mxRows d) * mxPerGroup d)).map (· + mxTile d)

/-- First row and first column that a slot of the operation holds. -/
def mxOrigin (d : Desc) (slot : Nat) : Nat × Nat := ((slot - mxTile d) / mxPerGroup d * 64, (slot - mxTile d) % mxPerGroup d * 512)

/-! ## Opening and adding -/

/-- The rows of a slot opened by ACC 0: +0 everywhere. -/
def zeroTile : List (List Op24) := List.replicate 64 (List.replicate 512 0)

/-- The rows of a slot opened from INIT: each value widened exactly from DST_FMT (Table 5-1); rows beyond the count hold +0. -/
def State.initTile (s : State) (core : Nat) (d : Desc) (slot : Nat) : List (List Op24) :=
  let (r0, c0) := mxOrigin d slot
  (List.range 64).map (fun j =>
    if r0 + j < mxRows d then
      (List.range 512).map (fun n =>
        rne24 ((fmtOf (mxDstFmt d)).decode (s.nat (spKey core (mxInitAddr d + (r0 + j) * mxDstPitch d * 128 + 2 * (c0 + n))) 2)))
    else List.replicate 512 0)

/-- Open a free slot for an operation with ACC 0 or 1. -/
def State.openSlot (s : State) (core inst slot : Nat) (d : Desc) : State :=
  let tile := if mxAcc d = 1 then s.initTile core d slot else zeroTile
  s.modSlot inst slot (fun x => { x with st := .opened, mismatch := false, vals := tile, closer := none })

/-- acc = rne24(acc + v) along a row. -/
def addRow (row : List Op24) (vs : List Val) : List Op24 := List.zipWith (fun a v => rne24 (plusZero ((val24 a).add v))) row vs

def setAt {α : Type} (xs : List α) (i : Nat) (g : α → α) : List α := xs.mapIdx (fun j x => if j = i then g x else x)

/-- Contributions that joined tenon operations add to one row of a slot, in issue order (R160, R164). -/
def Te.joinRows (t : Te) (r : OpRef) (d : Desc) (slot row : Nat) : List (List Op24) :=
  (t.joined.filter (fun j => decide (j.1 = r) && (decide (mxPerGroup d = 1) || decide (j.2.block % 2 = (slot - mxTile d) % 2)))).flatMap
    (fun j => (j.2.contrib.filter (fun c => decide (c.1 = j.2.rowBase + row))).map (·.2))

/-- A mismatch that a joined operation recorded in forming the contribution for a row of the slot (R175). -/
def Te.joinMismatch (t : Te) (r : OpRef) (d : Desc) (slot row : Nat) : Bool :=
  t.joined.any (fun j => decide (j.1 = r) && decide (j.2.mismatch = some (j.2.rowBase + row)) && (decide (mxPerGroup d = 1) || decide (j.2.block % 2 = (slot - mxTile d) % 2)))

/-- Add rows one after the other into slot row j. -/
def Slot.addRows (x : Slot) (j : Nat) (bad : Bool) (rows : List (List Val)) : Slot :=
  { x with mismatch := x.mismatch || bad, vals := setAt x.vals j (fun row => rows.foldl addRow row) }

/-- Add one result row to an open slot; after the last segment the joined contributions follow; the last row of a closing
operation makes the slot ready. -/
def State.addArrival (s : State) (inst slot : Nat) (d : Desc) (a : Arrival) : State :=
  let last := decide (a.seg = mxSegsM1 d)
  let j := a.row % 64
  let t := s.te (inst / 2)
  let joins := if last then t.joinRows a.op d slot a.row else []
  let bad := a.mismatch || (last && t.joinMismatch a.op d slot a.row)
  let s := s.modSlot inst slot (fun x => x.addRows j bad (a.sums :: joins.map (fun c => c.map val24)))
  let end_ := decide (a.row + 1 = mxRows d) || decide (j = 63)
  if last && end_ && decide (mxClose d = 1) then
    (s.modSlot inst slot (fun x => { x with st := .closing, closer := some a.op })).modMe inst (fun m => { m with ready := m.ready ++ [slot] })
  else s

/-- Does a result row have to wait for the slot's earlier contents (R139)? -/
def Slot.holdsBack (x : Slot) (r : OpRef) : Bool := !x.arrivals.isEmpty || x.openers.contains r || decide (x.st = .closing)

/-- A result row reaches its slot. -/
def State.arrive (s : State) (inst slot : Nat) (d : Desc) (a : Arrival) : State :=
  let x := (s.me inst).slot slot
  if x.holdsBack a.op then
    (s.modSlot inst slot (fun x => { x with arrivals := x.arrivals ++ [a] })).wait (pageMe inst + 0x5C)
  else s.addArrival inst slot d a

/-- Add waiting rows to a slot until it closes again or none is left. -/
def drainRows (inst slot : Nat) : List Arrival → State → State
  | [], s => s.modSlot inst slot (fun x => { x with arrivals := [] })
  | a :: rest, s =>
    let x := (s.me inst).slot slot
    if x.st ≠ .opened ∨ x.openers.contains a.op then s.modSlot inst slot (fun x => { x with arrivals := a :: rest })
    else
      match s.op? a.op with
      | some o => drainRows inst slot rest (s.addArrival inst slot o.desc a)
      | none => drainRows inst slot rest s

/-- The line of a slot without the truss operation that reads the contents its head opens. -/
def State.dropReader (s : State) : List OpRef → List OpRef
  | [] => []
  | r :: rest => match s.op? r with
    | some o => if hdClass o.desc = 4 then rest else r :: rest
    | none => r :: rest

/-- A slot has become free: the next opener opens it and its waiting rows enter, until that opener's contents end. -/
def State.reopen (s : State) (inst slot : Nat) : State :=
  let x := (s.me inst).slot slot
  match x.openers with
  | [] => s
  | r :: rest =>
    let s := s.modSlot inst slot (fun x => { x with openers := s.dropReader rest })
    match s.op? r with
    | none => s
    | some o => drainRows inst slot x.arrivals (s.openSlot (inst / 2) inst slot o.desc)

/-- Free a slot, keeping what later operations have projected and sent. -/
def State.freeSlot (s : State) (inst slot : Nat) : State :=
  let s := s.modSlot inst slot (fun x => { x with st := .free, mismatch := false, vals := [], closer := none })
  (s.modMe inst (fun m => { m with ready := m.ready.filter (· ≠ slot) })).reopen inst slot

/-! ## Holds, settling, retirement -/

/-- A slot an operation added to has closed: the operation's holds end with the last of them (R124). -/
def Held.minus (h : Held) (k : Nat × Nat) : Option Held :=
  let added := h.added.filter (fun x => decide (x ≠ k))
  if added.isEmpty then none else some { h with added := added }

def Op.minus (o : Op) (k : Nat × Nat) : Op :=
  let added := o.added.filter (fun x => decide (x ≠ k))
  { o with added := added, slots := o.slots.filter (fun x => decide (x ≠ k)),
           holds := if o.added.contains k && added.isEmpty then [] else o.holds }

def State.slotClosed (s : State) (inst slot : Nat) : State :=
  { s with heldOps := s.heldOps.filterMap (fun h => h.minus (inst, slot)), ops := s.ops.map (fun o => o.minus (inst, slot)) }

/-- Matrix operations of an engine whose rows are all in their slots and whose slots are all closed stand stored; so do the
tenon operations joined to them. -/
def State.settle (s : State) (inst : Nat) : State :=
  let m := s.me inst
  let busy := fun (r : OpRef) => m.passes.any (fun p => decide (p.op = r)) || m.slots.any (fun x => x.2.arrivals.any (fun a => decide (a.op = r)))
  let finished := fun (o : Op) => decide (hdClass o.desc = 0) && decide (o.stage = .inflight) && decide (hdEngine o.desc = inst % 2)
    && o.added.all (fun k => decide (k.1 = inst)) && !busy o.ref && (decide (mxClose o.desc = 0) || o.slots.isEmpty)
    && decide ((s.coreOf o).map (·.val) = some (inst / 2))
  let refs := (s.ops.filter finished).map Op.ref
  let t := s.te (inst / 2)
  let tenons := (t.joined.filter (fun j => refs.contains j.1)).map (fun j => j.2.op)
  let s := s.setTe (inst / 2) { t with joined := t.joined.filter (fun j => !refs.contains j.1) }
  { s with ops := s.ops.map (fun o => if refs.contains o.ref || tenons.contains o.ref then { o with stage := .stored } else o) }

/-! ## Withdrawing and discarding (R117, R141) -/

/-- Has a vector of the operation entered? -/
def Me.entered (m : Me) (r : OpRef) : Bool :=
  match m.passes.find? (fun p => decide (p.op = r)) with
  | some p => decide (p.left < p.total) || decide (0 < p.seg)
  | none => true

/-- Withdraw an operation's passes; the bank that its next pass was loading becomes empty (R117). -/
def Me.withdraw (m : Me) (r : OpRef) : Me :=
  let mine := m.passes.filter (fun p => decide (p.op = r))
  let m := { m with passes := m.passes.filter (fun p => !decide (p.op = r)) }
  match mine with
  | p :: _ =>
    if p.loads && p.bank = 0 then { m with bank0 := .empty, staged0 := 0, rows0 := 0, lastWrite0 := 0 }
    else if p.loads then { m with bank1 := .empty, staged1 := 0, rows1 := 0, lastWrite1 := 0 }
    else m
  | [] => m

/-- An operation leaves its slots' projections: a slot it would open or close is as it was before. -/
def Slot.without (x : Slot) (r : OpRef) : Slot :=
  { x with openers := x.openers.filter (fun o => decide (o ≠ r)), arrivals := x.arrivals.filter (fun a => decide (a.op ≠ r)) }

/-- A tenon engine without an operation, neither as a join nor as what is joined. -/
def Te.without (t : Te) (r : OpRef) : Te :=
  { t with unjoined := t.unjoined.filter (fun j => decide (j.op ≠ r)),
           joined := t.joined.filter (fun j => decide (j.1 ≠ r) && decide (j.2.op ≠ r)) }

/-- Forget what an operation had still to do on a core's engines. With a status, tenon operations joined to it complete with
it too (R165). -/
def State.forgetWork (s : State) (c : Nat) (r : OpRef) (status : Option Nat) : State :=
  let clean := fun (m : Me) => let m := m.withdraw r; { m with slots := m.slots.map (fun x => (x.1, x.2.without r)) }
  let s := (s.modMe (meInst c 0) clean).modMe (meInst c 1) clean
  let t := s.te c
  let gone := t.joined.filter (fun j => decide (j.1 = r))
  let s := s.setTe c (t.without r)
  gone.foldl (fun s j => match s.op? j.2.op, status with
    | some o, some st => s.kill o st 0
    | some o, none => s.fail o 0x14
    | none, _ => s) s

/-- Passes whose rows belong to the present contents of a slot: those before the passes of its next opener (R137). -/
def Me.passesNow (m : Me) (slot : Nat) : List Pass :=
  match (m.slot slot).openers with
  | [] => m.passes
  | b :: _ => if m.passes.any (fun p => decide (p.op = b)) then m.passes.takeWhile (fun p => decide (p.op ≠ b)) else []

/-- Contents of a slot: the present ones, or those that a waiting operation is to open (R137, R139). -/
structure Contents where
  inst : Nat
  slot : Nat
  opener : Option OpRef
  deriving DecidableEq, Repr

/-- The rows still to reach a slot's contents, each with its operation, in the order they come: waiting rows, then vectors to enter. -/
def Me.line (m : Me) (slot : Nat) : List OpRef := (m.slot slot).arrivals.map (·.op) ++ m.passes.map (·.op)

/-- The waiting operation whose contents a matrix operation adds to: the last opener whose rows come before its own; none for the present
contents. -/
def Me.opener (m : Me) (slot : Nat) (r : OpRef) : Option OpRef :=
  let line := m.line slot
  let before := fun (b : OpRef) => decide (b = r) || decide (line.findIdx (fun o => decide (o = b)) < line.findIdx (fun o => decide (o = r)))
  if line.contains r then ((m.slot slot).openers.filter before).getLast? else none

def State.contentsOf (s : State) (k : Nat × Nat) (r : OpRef) : Contents := { inst := k.1, slot := k.2, opener := (s.me k.1).opener k.2 r }

/-- Slots of a truss operation whose present contents are its leaves; from the others it goes. -/
def State.leafNow (s : State) (o : Op) : List (Nat × Nat) :=
  o.slots.filter (fun k => !((s.me k.1).slot k.2).openers.contains o.ref)

/-- A truss operation leaves the lines of its slots. -/
def State.forgetTruss (s : State) (o : Op) : State := o.slots.foldl (fun s k => s.modSlot k.1 k.2 (fun x => x.without o.ref)) s

/-- Matrix operations in flight with rows still to add to contents, and the truss operation that is to read them. -/
def State.usersOf (s : State) (x : Contents) : List Op :=
  let m := s.me x.inst
  let waiting := (m.slot x.slot).openers
  s.ops.filter (fun o => decide (o.stage = .inflight) &&
    ((decide (hdClass o.desc = 0) && o.added.contains (x.inst, x.slot) && (m.line x.slot).contains o.ref && decide (m.opener x.slot o.ref = x.opener))
      || (decide (hdClass o.desc = 4) && o.slots.contains (x.inst, x.slot) && (match x.opener with
        | none => !waiting.contains o.ref
        | some b => decide (((waiting.dropWhile (fun r => decide (r ≠ b))).drop 1).head? = some o.ref)))))

/-- Tenon operations joined to an operation that adds to contents. -/
def State.tenonsOf (s : State) (x : Contents) : List Op :=
  ((s.te (x.inst / 2)).joined.filter (fun j => match s.op? j.1 with
    | some o => o.added.contains (x.inst, x.slot) && decide ((s.me x.inst).opener x.slot o.ref = x.opener)
    | none => false)).filterMap (fun j => s.op? j.2.op)

/-- Contents that the operations on discarded contents discard in turn: every leaf slot of a truss operation (R141), and the slots of a
matrix operation with a vector entered (R123). -/
def State.discardsNext (s : State) (x : Contents) : List Contents :=
  (s.usersOf x).flatMap (fun o =>
    if hdClass o.desc = 4 then (s.leafNow o).map (fun k => { inst := k.1, slot := k.2, opener := none })
    else if (s.me x.inst).entered o.ref then o.added.map (fun k => s.contentsOf k o.ref) else [])

/-- Contents to discard and all they lead to; a free slot has none. -/
def State.discardReach (s : State) : Nat → List Contents → List Contents → List Contents
  | 0, _, seen => seen
  | _, [], seen => seen
  | n + 1, x :: rest, seen =>
    if seen.contains x || (x.opener.isNone && decide (((s.me x.inst).slot x.slot).st = .free)) then s.discardReach n rest seen
    else s.discardReach n (rest ++ s.discardsNext x) (seen ++ [x])

/-- Are contents the newest that a slot is projected to hold? -/
def State.newest (s : State) (x : Contents) : Bool :=
  decide ((((s.me x.inst).slot x.slot).openers.filter (fun r => match s.op? r with
    | some o => decide (hdClass o.desc = 0)
    | none => true)).getLast? = x.opener)

/-- What discarding contents takes: the contents, each with whether the slot is projected to hold them, and the operations in flight that
lose them, each with its core. -/
def State.discardPlan (s : State) (xs : List Contents) : List (Contents × Bool) × List (Nat × OpRef) :=
  let all := s.discardReach 8192 xs []
  (all.map (fun x => (x, s.newest x)), all.flatMap (fun x => (s.usersOf x ++ s.tenonsOf x).map (fun o => (x.inst / 2, o.ref))))

/-- An operation in flight that loses its slot completes with SLOT_DISCARDED. -/
def State.loseSlot (s : State) (c : Nat) (r : OpRef) : State :=
  match s.op? r with
  | some o => (if hdClass o.desc = 4 then s.forgetTruss o else s.forgetWork c r none).fail o 0x14
  | none => s

/-- Discard contents: nothing is written, the holds of every operation that added to them end, and a slot projected to hold them is
projected free. -/
def State.discardOne (s : State) (x : Contents) (newest : Bool) : State :=
  let k := (x.inst, x.slot)
  let s := if newest then s.modSlot x.inst x.slot (fun y => { y with projOpen := false, segs := 0 }) else s
  let s := s.count (pageMe x.inst + 0x74)
  if x.opener.isSome then s
  else
    let ended := fun (o : Op) => o.added.contains k && decide ((s.me x.inst).opener x.slot o.ref = none)
    let ops := s.ops.map (fun o => if ended o then { o with holds := [] } else o)
    ({ s with heldOps := s.heldOps.filter (fun h => !h.added.contains k), ops := ops }).freeSlot x.inst x.slot

/-- Carry a discard out: every later operation in flight that continues the contents, reads them or is joined to one that adds to them
completes with SLOT_DISCARDED, and the slots are free (R141, log entry 111). -/
def State.discardBy (s : State) (plan : List (Contents × Bool) × List (Nat × OpRef)) : State :=
  let s : State := plan.2.foldl (fun s r => s.loseSlot r.1 r.2) s
  let s : State := plan.1.foldl (fun s x => s.discardOne x.1 x.2) s
  (plan.1.map (fun x => x.1.inst)).eraseDups.foldl State.settle s

/-- Discard the present contents of slots and all they lead to. -/
def State.discard (s : State) (ks : List (Nat × Nat)) : State :=
  s.discardBy (s.discardPlan (ks.map (fun k => { inst := k.1, slot := k.2, opener := none })))

end Sys2Proof.Machine
end

