-- ==== Sys2Proof/Machine/Cores.lean ====
section
/-! DEFINITION. Cores under management orders: withdrawing staged work (R117), quarantine (R22,
R28, R29), and the device fault (R433). -/

namespace Sys2Proof.Machine

/-- Discard every open slot of a core; no work is left to project a state. -/
def State.discardCore (s : State) (c : Nat) : State :=
  let s := s.discard ([0, 1].flatMap (fun e => (List.range 32).map (fun i => (meInst c e, i))))
  (s.modMe (meInst c 0) (fun m => { m with slots := [], ready := [] })).modMe (meInst c 1) (fun m => { m with slots := [], ready := [] })

/-- Is a truss operation? -/
def Op.truss (o : Op) : Bool := decide (hdClass o.desc = 4) && decide (hdOp o.desc = 1)

/-- Does a truss operation in flight lie on a core, as a leaf or as the root? -/
def State.trussOn (s : State) (c : Nat) (o : Op) : Bool :=
  o.truss && (o.slots.any (fun k => decide (k.1 / 2 = c)) || decide ((s.phys? o.fn (trRoot o.desc)).map (·.val) = some c))

/-- Is an operation queued at a core: issued to it and not begun; a truss operation, where it names the core (R150)? -/
def State.queuedAt (s : State) (c : Nat) (o : Op) : Bool :=
  decide (o.stage = .inflight) && (s.trussOn c o ||
    (decide (hdClass o.desc ≤ 2) && decide ((s.coreOf o).map (·.val) = some c)
      && !(decide (hdClass o.desc = 0) && (s.me (meInst c (hdEngine o.desc))).entered o.ref)))

/-- End an operation queued at a core with a status: staged work is withdrawn; a truss operation discards every leaf slot on
every core (R150). -/
def State.cancelOp (s : State) (c : Nat) (status : Nat) (o : Op) : State :=
  if o.truss then
    let ks := s.leafNow o
    ((s.forgetTruss o).kill o status 0).discard ks
  else (s.forgetWork c o.ref (some status)).kill o status 0

/-- Operations queued at a core complete with the status of the order; staged ones are withdrawn (Table 1-4). -/
def State.cancelCore (s : State) (c : Nat) (status : Nat) : State :=
  (s.ops.filter (s.queuedAt c)).foldl (fun s o => match s.op? o.ref with
    | some o => s.cancelOp c status o
    | none => s) s

/-- Order a quarantine: it waits for its effect point; the event's cause is 1 check, 2 parity, 3 order, 4 margin (Table 18-4). -/
def State.orderQuarantine (s : State) (c : CoreId) (cause : Nat) : State :=
  let x := s.cell c
  if x.st = .quarantined ∨ x.quarantining then s
  else
    let d0 := (match x.owner with | some f => f.val | none => 0) + x.logical * 2 ^ 8
    (s.setCell c { x with quarantining := true }).logEvent (0x5100 + cause) x.owner c.val (some c) d0 0

/-- A planned move that a quarantine makes void is dropped and logged as superseded; a cell-map change has rank 4 (R21). -/
def State.supersedeMove (s : State) (c : CoreId) : State :=
  let x := s.cell c
  if x.movePending then
    (s.setCell c { x with movePending := false, moveTo := none, moveDone := false }).logEvent 0xB3C1 x.owner 0 (some c) 4 c.val
  else s

/-- Code of a cell-map state (Table 20-5). -/
def cellCode : CellState → Nat
  | .inService => 0
  | .eligible => 1
  | .ineligible => 2
  | .quarantined => 3

/-- Payload of a CELL_MAP record: state and hours since the last active test of each core (log entry 37). DESIGN CHOICE. -/
def State.cellMapPayload (s : State) : List Byte :=
  allCores.flatMap (fun c => let x := s.cell c; leBytes 4 (cellCode x.st + min x.hoursSinceTest 0xFFFF * 2 ^ 16))

/-- The cell map is written to the calibration store at every change (R407). -/
def State.storeCellMap (s : State) : State := s.storeRecord 0x0010 0xFFFF s.cellMapPayload

/-- The quarantine takes effect: queued work completes with status quarantined, open tiles are discarded (Table 1-4). The cell map
changes at the next beat boundary (R24). -/
def State.quarantine (s : State) (c : CoreId) : State :=
  let s := s.supersedeMove c
  let s := (s.cancelCore c.val 3).discardCore c.val
  s.modCell c (fun x => { x with nextSt := some .quarantined })

/-- Cores in service. -/
def State.inService (s : State) : Nat := (allCores.filter (fun c => decide ((s.cell c).st = .inService))).length

/-- Empty engines of a core (R26): a core enters service scrubbed. -/
def State.scrubEngines (s : State) (c : Nat) : State :=
  ((s.setMe (meInst c 0) Me.reset).setMe (meInst c 1) Me.reset).setTe c Te.reset

/-- Zero a core's scratchpad. -/
def State.scrubScratchpad (s : State) (c : Nat) : State :=
  { s with mem := s.mem.filter (fun b => !(decide (spKey c 0 ≤ b.1) && decide (b.1 < spKey c 0 + 2 ^ 24))) }

/-- Clear the registers of a page from 0x040 on, as the management window holds them. -/
def State.clearPage (s : State) (page : Nat) : State :=
  { s with regs := s.regs.filter (fun r => !(decide (page + 0x40 ≤ r.1) && decide (r.1 < page + 0x1000))) }

/-- Clear the block counters of a core, which changes owner (R344). -/
def State.clearCore (s : State) (c : Nat) : State :=
  (((s.clearPage (pageCore c)).clearPage (pageMe (2 * c))).clearPage (pageMe (2 * c + 1))).clearPage (pageTe c)

/-- Cores that accepted resizes will add (R337). -/
def State.reservedCores (s : State) : Nat := sumNat (allFns.map (fun f => let x := s.fn f; x.next.cores - x.cores))

/-- Function that a core belongs to now or from the next beat boundary on. -/
def Cell.holder (x : Cell) : Option FnId := x.owner.or (x.taking.map (·.1))

/-- Is a core free to be taken: no function holds it, and nothing else is to become of it? -/
def State.free (s : State) (c : CoreId) : Bool :=
  let x := s.cell c
  x.holder.isNone && !x.scrubbing && !x.quarantining && x.nextSt.isNone && allCores.all (fun k => decide ((s.cell k).moveTo ≠ some c))

/-- May a free core serve a function: no cluster holds a quiet function's cores beside another's (R345)? -/
def State.placeable (s : State) (f : FnId) (quiet : Bool) (c : CoreId) : Bool :=
  s.free c && allCores.all (fun k => decide (k.val / 3 ≠ c.val / 3) || (match (s.cell k).holder with
      | none => true
      | some g => decide (g = f) || !(quiet || (s.fn g).quiet)))

/-- Eligible reserve cores a function may take, ascending. -/
def State.reserveFor (s : State) (f : FnId) (quiet : Bool) : List CoreId :=
  allCores.filter (fun c => decide ((s.cell c).st = .eligible) && s.placeable f quiet c)

/-- Cores in service that no function has been given (Table 1-5). -/
def State.idleCores (s : State) : List CoreId := allCores.filter (fun c => decide ((s.cell c).st = .inService) && s.free c)

/-- Cores in service now and from the next beat boundary on. -/
def State.serving (s : State) : Nat :=
  (allCores.filter (fun c => let x := s.cell c; decide (x.st = .inService) || (decide (x.st = .eligible) && x.taking.isSome))).length

/-- Cores that a create or a resize may take: those in service that are idle, then reserve cores up to 20 in service (R23,
Table 1-6). -/
def State.poolFor (s : State) (f : FnId) (quiet : Bool) : List CoreId :=
  s.idleCores.filter (s.placeable f quiet) ++ (s.reserveFor f quiet).take (20 - s.serving)

/-- Reserve cores that accepted resizes need beyond the idle ones. -/
def State.reservedReserve (s : State) : Nat := s.reservedCores - s.idleCores.length

/-- A core that is to enter service is scrubbed and its counters are clear (R26, R344). -/
def State.prepareCore (s : State) (c : CoreId) : State := ((s.scrubEngines c.val).scrubScratchpad c.val).clearCore c.val

/-- A prepared core enters service for a logical core. -/
def State.serve (s : State) (f : FnId) (logical : Nat) (c : CoreId) : State :=
  s.modCell c (fun x => { x with st := .inService, owner := some f, logical := logical, taking := none })

/-- A core enters service for a logical core, scrubbed. -/
def State.enterService (s : State) (f : FnId) (logical : Nat) (c : CoreId) : State := (s.prepareCore c).serve f logical c

/-- Map a logical core of a function onto an eligible reserve core, lowest first (R28, R29, log entry 48), none where there is none
that is not reserved, or 20 cores are in service (R23). -/
def State.takeReserve (s : State) (f : FnId) (logical : Nat) : Option State :=
  if 20 ≤ s.serving + s.reservedReserve then none
  else
    match s.reserveFor f (s.fn f).quiet with
    | [] => none
    | c :: rest => if rest.length < s.reservedReserve then none else some (s.enterService f logical c)

/-- A change of the cell map has been applied (R24, Table 20-5). -/
def State.countMapChange (s : State) : State := (s.storeCellMap.count (pageCmap + 0xA4)).raise pageCmap 0

/-- A logical core that a quarantined core carried, or was to carry, goes to an eligible reserve core or becomes unavailable (R28,
R29). -/
def State.replaceCore (s : State) (c : CoreId) (f : FnId) (logical : Nat) : State :=
  match s.takeReserve f logical with
  | some s => s.countMapChange
  | none =>
    let s := s.modFn f (fun y => { y with unavailable := y.unavailable ++ [logical] })
    (s.raiseFn f 1).logEvent 0x5105 (some f) c.val (some c) (f.val + logical * 2 ^ 8) 0

/-- At a beat boundary, a core whose quarantine has taken effect leaves the map, and its logical number is mapped anew; a function
in SCRUBBING takes no other core. -/
def State.replaceQuarantined (s : State) (c : CoreId) : State :=
  let x := s.cell c
  if x.nextSt ≠ some .quarantined then s
  else
    let s := s.setCell c { x with st := .quarantined, quarantining := false, scrubbing := true, nextSt := none, owner := none, taking := none }
    let s := (s.countMapChange.raise (pageCore c.val) 0).raise pageCmap 1
    match (x.owner.map (fun f => (f, x.logical))).or x.taking with
    | some (f, l) => if (s.fn f).st = .scrubbing ∨ (s.fn f).st = .off then s else s.replaceCore c f l
    | none => s

/-- At a beat boundary, a core enters service for the function that was given it. -/
def State.enterTaken (s : State) (c : CoreId) : State :=
  match (s.cell c).taking with
  | some (f, l) => if (s.cell c).quarantining then s else (s.serve f l c).countMapChange
  | none => s

/-- Logical numbers that were unavailable become available again as reserve cores appear (R29). -/
def State.refillCores (s : State) : State :=
  allFns.foldl (fun s f => (s.fn f).unavailable.foldl (fun s l =>
    match s.takeReserve f l with
    | some t => ((t.modFn f (fun y => { y with unavailable := y.unavailable.filter (· ≠ l) })).countMapChange).raiseFn f 1
    | none => s) s) s

/-- Contents of a scratchpad at another core's keys. -/
def moveScratch (m : List Host.Cell) (src dst : Nat) : List Host.Cell :=
  let base := fun (c : Nat) => spKey c 0
  let inside := fun (c : Nat) (b : Host.Cell) => decide (base c ≤ b.1) && decide (b.1 < base c + 2 ^ 24)
  m.filter (fun b => decide (b.1 < base dst))
    ++ (m.filter (inside src)).map (fun b => (b.1 - base src + base dst, b.2))
    ++ m.filter (fun b => decide (base dst + 2 ^ 24 ≤ b.1))

/-- Copy a core's scratchpad and stationary banks to another core. -/
def State.copyCore (s : State) (c dst : CoreId) : State :=
  let s := { s.scrubEngines dst.val with mem := moveScratch s.mem c.val dst.val }
  [0, 1].foldl (fun s e =>
    let m := s.me (meInst c.val e)
    s.setMe (meInst dst.val e) { s.me (meInst dst.val e) with bank0 := m.bank0, bank1 := m.bank1 }) s

/-- A device fault (R433): dispatch stops, queued operations complete with status cancelled, ALERT_N is asserted, and the class
0x7 entry enters every view. -/
def State.deviceFault (s : State) (code inst d0 d1 : Nat) : State :=
  let s := s.logPkg code inst d0 d1
  if s.boot.fault then s
  else
    let s := { s with boot := { s.boot with fault := true, faultCode := BitVec.ofNat 16 code } }
    let s := allCores.foldl (fun s c => s.cancelCore c.val 2) s
    s.killAll (s.ops.filter (fun o => decide (o.stage = .dispatched) || decide (o.stage = .held))) 2

end Sys2Proof.Machine
end

