-- ==== Sys2Proof/Machine/Slices.lean ====
section
/-! DEFINITION. Tenon slices: where the parts of a context's slice lie (R157, R158, R211, R247), their values, the tenon cache
(R167), the cache partitions (R200), and what a write invalidates (R201). -/

namespace Sys2Proof.Machine

/-! ## The parts of a slice -/

/-- One part: target, or 8 + mortise; its offset in the layer's slice; K, rank and N. -/
structure TnPart where
  key : Nat
  off : Nat
  k : Nat
  r : Nat
  n : Nat
  deriving DecidableEq, Repr

/-- A mortise claim of a context: mortise, width, first and last layer (Table 10-2). -/
structure Claim where
  mortise : Nat
  width : Nat
  first : Nat
  last : Nat
  deriving DecidableEq, Repr

/-- The valid claims of a context. -/
def cxClaims (d : BitVec 1024) : List Claim :=
  ((List.range 8).filter (fun i => flag d (448 + 32 * i + 28))).map (fun i =>
    let b := 448 + 32 * i
    { mortise := fld d (b + 5) b, width := 8 * fld d (b + 11) (b + 6), first := fld d (b + 19) (b + 12), last := fld d (b + 27) (b + 20) })

/-- Experts of a context at a layer, in ascending mortise order. -/
def cxExperts (d : BitVec 1024) (layer : Nat) : List Claim :=
  let cs := (cxClaims d).filter (fun c => decide (c.first ≤ layer) && decide (layer ≤ c.last))
  (List.range 64).flatMap (fun m => cs.filter (fun c => decide (c.mortise = m)))

/-- Rank of a target. -/
def cxRank (d : BitVec 1024) (t : Nat) : Nat := 8 * fld d (69 + 6 * t) (64 + 6 * t)

/-- K and N of a target (Table 6-2). -/
def targetShape (fr : FrameState) (t : Nat) : Nat × Nat :=
  (if t = 5 then fr.ffWidth else fr.width, if t = 4 then fr.ffWidth else fr.width)

/-- Input class of a part (Table 6-2). -/
def keyClass (key : Nat) : Nat :=
  if key ≤ 2 then 0 else if key = 3 then 1 else if key = 5 then 3 else 2

/-- Bytes of a matrix of a slice with its scales (R210). -/
def sliceBytes (fc plank rows cols : Nat) : Nat :=
  rows * cols * (fmtOf fc).bits / 8 + (if isPlanked fc then (rows + plank - 1) / plank * cols else 0)

def up128 (n : Nat) : Nat := (n + 127) / 128 * 128

/-- Offset of B in a part, and bytes of the part to the next 128-byte boundary. -/
def partB (fc plank k r : Nat) : Nat := up128 (sliceBytes fc plank k r)

def partBytes (fc plank k r n : Nat) : Nat := partB fc plank k r + up128 (sliceBytes fc plank r n)

def cxPlank (d : BitVec 1024) : Nat := plankSize (cxWPlank d)

/-- Lay parts one after the other. -/
def layParts (fc plank : Nat) : Nat → List (Nat × Nat × Nat × Nat) → List TnPart
  | _, [] => []
  | off, (key, k, r, n) :: rest =>
    { key := key, off := off, k := k, r := r, n := n } :: layParts fc plank (off + partBytes fc plank k r n) rest

/-- The parts of a context's slice at a layer: targets, then experts. -/
def cxParts (fr : FrameState) (d : BitVec 1024) (layer : Nat) : List TnPart :=
  let ts := (List.range 6).filter (fun t => decide (cxRank d t ≠ 0))
  layParts (cxWFmt d) (cxPlank d) 0
    (ts.map (fun t => let s := targetShape fr t; (t, s.1, cxRank d t, s.2))
      ++ (cxExperts d layer).map (fun c => (8 + c.mortise, fr.width, c.width, fr.width)))

/-- Bytes of a whole layer's slice. -/
def cxSliceBytes (fr : FrameState) (d : BitVec 1024) (layer : Nat) : Nat :=
  sumNat ((cxParts fr d layer).map (fun p => partBytes (cxWFmt d) (cxPlank d) p.k p.r p.n))

/-- Device address of a layer's slice in the epoch in force (R247). -/
def cxSliceAddr (d : BitVec 1024) (layer : Nat) : Nat :=
  (if cxEpoch d = 1 then cxSlice1 d else cxSlice0 d) + layer * cxSliceStride d * 128

/-- Element (i, j) of a stored matrix of a slice, its scale applied; the operation's format names how the bits are read. -/
def sliceVal (m : List Host.Cell) (base rows cols fc plank i j : Nat) : Val :=
  let f := fmtOf fc
  let n := f.bits / 8
  let v := f.decode (ofBytes (memBytes m (base + (i * cols + j) * n) n))
  if isPlanked fc then scaled v (memByte m (base + rows * cols * n + i / plank * cols + j)).toNat else v

/-! ## Cache partitions (R200, R201) -/

/-- Partitions of a function in a mode, ascending. -/
def State.partsIn (s : State) (f : FnId) (mode : Nat) : List Nat :=
  (List.range 64).filter (fun p => let x := s.part p; decide (x.owner = some f) && decide (x.mode = mode))

/-- Partition of a function that a line's address falls in. -/
def State.linePart? (s : State) (f : FnId) (a : Nat) : Option Nat :=
  let mode := match region a with
    | .hbm _ => 1
    | _ => 2
  let ps := s.partsIn f mode
  if ps.isEmpty then none else ps[(a / 65536) % ps.length]?

/-- Set of a line. -/
def lineSet (a : Nat) : Nat := a / 128 % 16384

/-- A lookup of a 128-byte line in a function's cache partitions: a hit, or a fill that replaces the least recently used line of
its set. -/
def State.lookupLine (s : State) (f : FnId) (a : Nat) : State :=
  match s.linePart? f a with
  | none => s
  | some p =>
    let lines := (s.fn f).lines
    if lines.contains a then
      (s.modFn f (fun x => { x with lines := a :: x.lines.filter (· ≠ a) })).count (pageLlmp p + 0x44)
    else
      let same := lines.filter (fun b => decide (lineSet b = lineSet a) && decide (s.linePart? f b = some p))
      let out := if same.length < 16 then none else same.getLast?
      let s := s.modFn f (fun x => { x with lines := a :: x.lines.filter (fun b => decide (some b ≠ out)) })
      let s := s.count (pageLlmp p + 0x48)
      if out.isSome then s.count (pageLlmp p + 0x4C) else s

/-- Partition that counts a function's slices: its lowest-numbered one of mode CACHE_TENON (log entry 33). DESIGN CHOICE. -/
def State.slicePart? (s : State) (f : FnId) : Option Nat := (s.partsIn f 3).head?

/-- A written range invalidates every cached line that overlaps it, and every cached slice with a byte in a written page,
whatever function owns the cache (R201). -/
def State.invalidate (s : State) (a n : Nat) : State :=
  if n = 0 then s
  else
    let lo := a / 65536 * 65536
    let hi := (a + n - 1) / 65536 * 65536 + 65536
    allFns.foldl (fun s f =>
      let x := s.fn f
      let ls := x.lines.filter (fun l => overlaps l 128 a n)
      let ss := x.slices.filter (fun c => overlaps c.addr c.bytes lo (hi - lo))
      if ls.isEmpty && ss.isEmpty then s
      else
        let s : State := ls.foldl (fun s l => match s.linePart? f l with
          | some p => s.count (pageLlmp p + 0x50)
          | none => s) s
        let s := match s.slicePart? f with
          | some p => if ss.isEmpty then s else s.count (pageLlmp p + 0x50) ss.length
          | none => s
        s.modFn f (fun x => { x with lines := x.lines.filter (fun l => !ls.contains l), slices := x.slices.filter (fun c => !ss.contains c) })) s

/-- A write to a page of a defined frame marks its digest stale (R354). -/
def State.staleDigests (s : State) (a n : Nat) : State :=
  (pagesOf a n).foldl (fun s p =>
    let e := s.page p
    let fr := s.frame (pgFrame e)
    if pgShared e ∧ fr.defined ∧ fr.digestState ≠ 2 then s.setFrame (pgFrame e) { fr with digestState := 2 } else s) s

/-- Write bytes of device memory, with what the write invalidates. -/
def State.writeDev (s : State) (a : Nat) (bs : List Byte) : State := ((s.write a bs).invalidate a bs.length).staleDigests a bs.length

/-! ## The tenon cache (R167) -/

/-- Does an operation in flight hold a cached slice (R163)? -/
def State.sliceHeld (s : State) (f : FnId) (own : Option OpRef) (c : Slice) : Bool :=
  s.ops.any (fun o => decide (o.fn = f) && decide (hdClass o.desc = 2) && decide (own ≠ some o.ref)
    && decide (o.stage = .inflight ∨ o.stage = .stored) && o.ctxs.contains c.ctx && decide (tnLayer o.desc = c.layer))

/-- How many of some slices, least recent first, have to go for a size to fit; none where all of them are not enough. -/
def makeRoom (cap need : Nat) : List Slice → Option Nat
  | [] => if need ≤ cap then some 0 else none
  | x :: rest =>
    if sumNat ((x :: rest).map (·.bytes)) + need ≤ cap then some 0 else (makeRoom cap need rest).map (· + 1)

/-- Install a slice: it replaces the least recently used slices that no operation holds; held ones are passed over. Answers
whether it was installed. -/
def State.installSlice (s : State) (f : FnId) (own : Option OpRef) (c : Slice) : State × Bool :=
  let cap := (s.partsIn f 3).length * 2 ^ 25
  let xs := (s.fn f).slices
  let held := xs.filter (s.sliceHeld f own)
  let free := (xs.filter (fun x => !s.sliceHeld f own x)).reverse
  match makeRoom (cap - sumNat (held.map (·.bytes))) c.bytes free with
  | none => (s, false)
  | some n =>
    if cap < sumNat (held.map (·.bytes)) + c.bytes then (s, false)
    else
      let gone := free.take n
      let s := match s.slicePart? f with
        | some p => if n = 0 then s else s.count (pageLlmp p + 0x4C) n
        | none => s
      (s.modFn f (fun x => { x with slices := c :: x.slices.filter (fun y => !gone.contains y) }), true)

/-- Is a slice in the cache? -/
def State.sliceCached (s : State) (f : FnId) (c : Slice) : Bool := (s.fn f).slices.contains c

/-- A lookup of the gather unit: a hit, an install, or a bypass; waits count by tier. -/
def State.gatherSlice (s : State) (f : FnId) (core : Nat) (own : Option OpRef) (c : Slice) : State :=
  if s.sliceCached f c then
    (s.modFn f (fun x => { x with slices := c :: x.slices.filter (· ≠ c) })).count (pageTe core + 0x48)
  else
    let s := s.count (pageTe core + 0x4C)
    let s := match region c.addr with
      | .companion => s.wait (pageTe core + 0x58)
      | _ => s.wait (pageTe core + 0x54)
    match s.installSlice f own c with
    | (s, true) => s
    | (s, false) => s.count (pageTe core + 0x50)

end Sys2Proof.Machine
end

