-- ==== Sys2Proof/Machine/Move.lean ====
section
/-! DEFINITION. The move operation (R212 to R215, Table 8-7): its checks, its waits (R205, R219, R253), the copy with poison
(R231 to R233), and what its retirement does to pages and window slots (R217). -/

namespace Sys2Proof.Machine

/-! ## Device-held regions (R199) -/

def Plan.bytes (p : Plan) : Nat := 64 + 32 * p.events.length

/-- The regions of a function that moves must not write: plan copies, the watch table, the tile exponent maps. -/
def State.deviceHeld (s : State) (f : FnId) : List (Nat × Nat) :=
  let x := s.fn f
  let plans := x.active.toList ++ x.pendingPlan.toList
  plans.map (fun p => (p.copy, p.bytes))
  ++ (match x.watch with
    | none => []
    | some (part, off, n) => (llmAddr part off, 128 * n) :: (List.range n).filterMap (fun id =>
        let e := s.watchRead (llmAddr part off + 128 * id)
        if weEnable e = 1 ∧ weRecomp e = 1 then some (llmAddr (weTemPart e) (weTemOff e), Config.mapBytes id) else none))

/-- Does a range overlap a device-held region of a function? -/
def State.inDeviceHeld (s : State) (f : FnId) (a n : Nat) : Bool := (s.deviceHeld f).any (fun r => overlaps r.1 r.2 a n)

/-! ## Shape -/

def mvRow (d : Desc) : Nat := (mvRowM1 d + 1) * 128

def mvRows (d : Desc) : Nat := mvRowsM1 d + 1

/-- Offset or address of row i at a side, before any core. -/
def mvSrcRow (d : Desc) (i : Nat) : Nat := mvSrcAddr d + i * mvSrcPitch d * 128

def mvDstRow (d : Desc) (i : Nat) : Nat := mvDstAddr d + i * mvDstPitch d * 128

/-- Does the move read a source? -/
def mvReads (d : Desc) : Bool := decide (mvZero d = 0)

/-- Device ranges of the source rows; none for a scratchpad source or zeros. -/
def mvSrcDev (d : Desc) : List (Nat × Nat) :=
  if mvReads d ∧ mvSrcSp d = 0 then (List.range (mvRows d)).map (fun i => (mvSrcRow d i, mvRow d)) else []

def mvDstDev (d : Desc) : List (Nat × Nat) :=
  if mvDstSp d = 0 then (List.range (mvRows d)).map (fun i => (mvDstRow d i, mvRow d)) else []

/-- Logical cores of the destination. -/
def mvCores (d : Desc) : List Nat := if mvDstSp d = 1 then setBits 20 (mvDstCores d) else []

/-- Is a field that holds a scratchpad offset out of range, with its rows (R196)? -/
def spRowsBad (addr pitch row rows : Nat) : Bool := decide (2 ^ 24 ≤ addr) || !spOk addr ((rows - 1) * pitch * 128 + row)

/-- Is the source a whole run of pages the function owns (R213)? -/
def State.wholeRun (s : State) (f : FnId) (d : Desc) : Bool :=
  let n := mvRows d * mvRow d
  decide (mvSrcSp d = 0) && decide (mvSrcAddr d % 65536 = 0) && decide (n % 65536 = 0)
    && (decide (mvRows d = 1) || decide (mvSrcPitch d * 128 = mvRow d))
    && (pagesOf (mvSrcAddr d) n).all (fun p => let e := s.page p
        decide (pgTier e = 1 ∨ pgTier e = 2) && decide (pgOwner e = f.val))

/-- Does a fill move name a slot it cannot fill, or a destination outside the slot (R217)? -/
def State.windowBad (s : State) (f : FnId) (d : Desc) : Bool :=
  decide (mvWfill d = 1) &&
    match (s.fn f).window[mvWslot d]? with
    | none => true
    | some w =>
      !(decide (w.st = 0) || (decide (w.st = 1) && decide (w.layer = mvWlayer d)))
      || decide (mvDstSp d = 1)
      || (mvDstDev d).any (fun r => decide (region r.1 ≠ .llm) || (partsOf r.1 r.2).any (fun p => !w.mask.testBit p))

/-- Cause of a list of accesses, the lowest that any of them gives. -/
def State.accessCauses (s : State) (f : FnId) (rs : List (Nat × Nat)) (write : Bool) : Nat :=
  lowestCause (rs.map (fun r => let c := s.accessCause f r.1 r.2 write; (decide (c ≠ 0), c)))

/-- Memory keys and lengths a move writes on its cores and in device memory, before epochs. -/
def State.mvKeys (s : State) (f : FnId) (d : Desc) : List (Nat × Nat) :=
  mvDstDev d ++ (mvCores d).flatMap (fun l => match s.phys? f l with
    | some c => (List.range (mvRows d)).map (fun i => (spKey c.val (mvDstRow d i), mvRow d))
    | none => [])

/-- Memory keys and lengths a move reads, in device memory before epochs. -/
def State.mvSrcKeys (s : State) (f : FnId) (d : Desc) : List (Nat × Nat) :=
  mvSrcDev d ++ (if mvReads d ∧ mvSrcSp d = 1 then
    (match s.phys? f (mvSrcCore d) with
      | some c => (List.range (mvRows d)).map (fun i => (spKey c.val (mvSrcRow d i), mvRow d))
      | none => []) else [])

/-- Cause of the checks at issue, 0 when they pass (R213, Table 8-8, R496). -/
def State.moveCause (s : State) (o : Op) : Nat :=
  let d := o.desc
  let f := o.fn
  let n := (s.fn f).cores
  let srcBad := mvReads d && (decide (mvSrcAddr d % 128 ≠ 0) ||
    (if mvSrcSp d = 1 then spRowsBad (mvSrcAddr d) (mvSrcPitch d) (mvRow d) (mvRows d) else (mvSrcDev d).any (fun r => !sameRegion r.1 r.2)))
  let dstBad := decide (mvDstAddr d % 128 ≠ 0) ||
    (if mvDstSp d = 1 then spRowsBad (mvDstAddr d) (mvDstPitch d) (mvRow d) (mvRows d) else (mvDstDev d).any (fun r => !sameRegion r.1 r.2))
  let src := s.accessCauses f (mvSrcDev d) false
  let dst := s.accessCauses f (mvDstDev d) true
  let span := (mvSrcDev d ++ mvDstDev d).any (fun r => s.epochSpan f r.1 r.2)
  let cause := lowestCause [
    (srcBad || dstBad, 0x40),
    ((mvReads d && decide (mvSrcSp d = 1) && decide (n ≤ mvSrcCore d)) || (decide (mvDstSp d = 1) && (decide (mvDstCores d = 0) || decide (2 ^ n ≤ mvDstCores d))), 0x41),
    (decide (src ≠ 0), src),
    (decide (dst ≠ 0), dst),
    (s.windowBad f d, 0x4A),
    (decide (mvReleaseSrc d = 1) && (decide (mvZero d = 1) || !s.wholeRun f d), 0x4B),
    (span, 0x86)]
  if cause ≠ 0 then cause
  else if (s.mvKeys f d).any (fun r => s.heldBy f (some o.ref) (s.writeAddr f r.1) r.2) then 0x0E
  else if (mvDstDev d).any (fun r => s.inDeviceHeld f r.1 r.2) then 0x47
  else 0

/-! ## Waiting (R205, R219, R253) -/

/-- Pages with a directory entry in some ranges: HBM pages and tiered companion pages. -/
def State.tieredPages (s : State) (f : FnId) (rs : List (Nat × Nat)) : List Nat :=
  (rs.flatMap (fun r => pagesOf r.1 r.2)).eraseDups.filter (fun p =>
    match region (p * 65536) with
    | .hbm _ => true
    | .companion => (match s.aperture? f (p * 65536) with
      | some x => x.tiered
      | none => false)
    | _ => false)

/-- Does an access to a page have to wait: FILL, RELOCATING, or REF 255? -/
def State.pageBusy (s : State) (p : Nat) : Bool := let e := s.page p; pgWaits e || decide (pgRef e = 255)

/-- Frame whose shared pages the source lies in, none when it is no frame's. -/
def State.srcFrame? (s : State) (d : Desc) : Option Nat :=
  ((mvSrcDev d).head?).bind (fun r => let e := s.page (pageOf r.1)
    if pgShared e then some (pgFrame e) else none)

/-- Does a fill move of a pass of the new generation wait for the layer's swap (R253, step 4)? -/
def State.waveWait (s : State) (o : Op) : Bool :=
  let d := o.desc
  decide (mvWfill d = 1) &&
    match s.srcFrame? d with
    | none => false
    | some fr =>
      match (s.frame fr).replace with
      | none => false
      | some r =>
        let gen := match (s.queue o.queue.val).pass with
          | some (f, g, _) => if f = fr then g else frGen (s.frame fr).record
          | none => frGen (s.frame fr).record
        decide (gen = frGen (s.frame fr).record) && decide (r.swapped ≤ mvWlayer d)

/-- Window partitions that a move reads. -/
def mvSrcParts (d : Desc) : List Nat := (mvSrcDev d).flatMap (fun r => if region r.1 = .llm then partsOf r.1 r.2 else [])

/-! ## The copy -/

/-- A burst whose read fails: refetches, persistent failure (R231). Answers whether the burst reads as poison. -/
def State.badBurst (s : State) (b fails : Nat) : State × Bool :=
  match region (64 * b) with
  | .hbm st =>
    let pg := pageHbm st
    if s.poison.contains b then (s.count (pg + 0x50), true)
    else if fails = 0 then (s, false)
    else if fails ≤ 2 then ((s.count (pg + 0x48)).logPkg 0x1241 st (64 * b) (fails + 1), false)
    else ((((s.count (pg + 0x4C)).raise pg 0).count (pg + 0x50)), true)
  | _ => (s, s.poison.contains b)

/-- Bursts of some device ranges that read as poison, in order, with what their reads count. -/
def State.readBursts (s : State) (rs : List (Nat × Nat)) (bad : List (Nat × Nat)) : State × List Nat :=
  let bursts := rs.flatMap (fun r => (List.range (r.2 / 64)).map (fun i => r.1 / 64 + i))
  bursts.foldl (fun (acc : State × List Nat) b =>
    let fails := ((bad.find? (fun x => decide (x.1 / 64 = b))).map (·.2)).getD 0
    let (s, p) := acc.1.badBurst b fails
    (s, if p then acc.2 ++ [b] else acc.2)) (s, [])

/-- Write a row but for its poisoned 64-byte pieces (R233). -/
def State.putRow (s : State) (dev : Bool) (key : Nat) (bs : List Byte) (skip : List Nat) : State :=
  if skip.isEmpty then (if dev then s.writeDev key bs else s.write key bs)
  else (chunks 64 bs).zipIdx.foldl (fun s x =>
    if skip.contains x.2 then s else if dev then s.writeDev (key + 64 * x.2) x.1 else s.write (key + 64 * x.2) x.1) s

/-- Copy one row. `poisoned` are the bursts that read as poison. -/
def State.copyRow (s : State) (f : FnId) (d : Desc) (poisoned : List Nat) (i : Nat) : State :=
  let n := mvRow d
  let src := if mvSrcSp d = 1 then (match s.phys? f (mvSrcCore d) with
      | some c => spKey c.val (mvSrcRow d i)
      | none => 0)
    else s.readAddr f (mvSrcRow d i)
  let bs := if mvZero d = 1 then List.replicate n 0 else s.bytes src n
  let skip := if mvReads d ∧ mvSrcSp d = 0 then (List.range (n / 64)).filter (fun j => poisoned.contains (src / 64 + j)) else []
  if mvDstSp d = 1 then
    (mvCores d).foldl (fun s l => match s.phys? f l with
      | some c => s.putRow false (spKey c.val (mvDstRow d i)) bs skip
      | none => s) s
  else s.putRow true (s.writeAddr f (mvDstRow d i)) bs skip

/-- Mark the pages of a move: one REF each, FILL where it writes unless RELEASING (R205). -/
def State.markPages (s : State) (pages fills : List Nat) : State :=
  let s := { s with dir := pages.foldl (fun m p => let e := SMap.get dirReset m p; SMap.put dirReset m p (withFld e 25 18 (pgRef e + 1))) s.dir }
  { s with dir := fills.foldl (fun m p =>
      let e := SMap.get dirReset m p
      if pgMove e = 0 then SMap.put dirReset m p (withFld e 28 26 1) else m) s.dir }

/-- A fill move takes its window slot to FILLING. -/
def State.fillSlot (s : State) (f : FnId) (d : Desc) : State :=
  if mvWfill d = 0 then s
  else s.modFn f (fun x => { x with window := x.window.mapIdx (fun j w =>
    if j = mvWslot d then
      (if w.st = 0 then { w with st := 1, layer := mvWlayer d, lastSeen := false, faulted := [], late := false } else w)
    else w) })

/-- A fill saw a refetch, a failure or poison (R233, WIN_LATE_FETCH). -/
def State.lateFill (s : State) (f : FnId) (d : Desc) : State :=
  if mvWfill d = 0 then s
  else match (s.fn f).window[mvWslot d]? with
    | some w => if w.late then s
      else (s.modFn f (fun x => { x with window := x.window.mapIdx (fun j w => if j = mvWslot d then { w with late := true } else w) })).count
        (pageMemf f.val + 0x58)
    | none => s

/-- Logical cores a move names that have no physical core. -/
def State.mvNoCore (s : State) (f : FnId) (d : Desc) : Bool :=
  (mvReads d && decide (mvSrcSp d = 1) && (s.phys? f (mvSrcCore d)).isNone) || (mvCores d).any (fun l => (s.phys? f l).isNone)

/-- The move runs: it takes its pages and its slot, copies its rows in ascending order, and stands stored. -/
def State.moveRun (s : State) (o : Op) (bad : List (Nat × Nat)) : State :=
  let d := o.desc
  let f := o.fn
  let src := (mvSrcDev d).map (fun r => (s.readAddr f r.1, r.2))
  let dst := (mvDstDev d).map (fun r => (s.writeAddr f r.1, r.2))
  let fills := s.tieredPages f dst
  let pages := (s.tieredPages f src ++ fills).eraseDups
  let s := (s.markPages pages fills).fillSlot f d
  let hbm := src.filter (fun r => match region r.1 with
    | .hbm _ => true
    | _ => false)
  let (s, poisoned) := s.readBursts hbm bad
  let late := hbm.any (fun r => bad.any (fun b => overlaps r.1 r.2 b.1 1)) || !poisoned.isEmpty
  let s := if late then s.lateFill f d else s
  let s : State := if mvCached d = 1 then
      (src.filter (fun r => decide (region r.1 ≠ .llm))).foldl (fun s r =>
        (List.range (r.2 / 128)).foldl (fun s i => s.lookupLine f (r.1 + 128 * i)) s) s
    else s
  let s : State := (List.range (mvRows d)).foldl (fun s i => s.copyRow f d poisoned i) s
  let o := { o with stage := .stored, pages := pages, fills := fills }
  match poisoned with
  | [] => s.putOp o
  | b :: _ => s.putOp { o with status := 1, cause := 0x50, detail := packDetail [(64, 64 * b)] }

/-- Issue of a move. -/
def State.moveIssue (s : State) (i : Instr) (bad : List (Nat × Nat)) : State :=
  s.issue i (fun o s =>
    let d := o.desc
    let f := o.fn
    let cause := s.moveCause o
    if cause ≠ 0 then s.fail o cause
    else if s.mvNoCore f d then s.complete o 4 0 0 0
    else if (mvReads d && decide (mvSrcSp d = 1) && s.moving f (mvSrcCore d)) || (mvCores d).any (s.moving f) then s.park i o
    else
      let rs := mvSrcDev d ++ mvDstDev d
      let real := (mvSrcDev d).map (fun r => (s.readAddr f r.1, r.2)) ++ (mvDstDev d).map (fun r => (s.writeAddr f r.1, r.2))
      let old := s.oldKeyPages (s.tieredPages f ((mvDstDev d).map (fun r => (s.writeAddr f r.1, r.2))))
      if !old.isEmpty then s.keyWait i o old
      else if (s.tieredPages f real).any s.pageBusy || s.waveWait o then
        let s := s.wait (pageMemf f.val + 0x5C)
        (if mvWfill d = 1 then s.wait (pageMemf f.val + 0x54) else s).park i o
      else if (s.windowWait? f (mvSrcParts d)).isSome then (s.winStall f ((s.windowWait? f (mvSrcParts d)).getD 0)).park i o
      else if s.stageWait f (s.mvSrcKeys f d) then s.parkStage i o
      else if s.decideHold f rs then (s.wait (pageStepf f.val + 0x6C)).park i o
      else s.moveRun o bad)

def execMoveOperation (q : QueueId) (d : Desc) (bad : List (Nat × Nat)) (s : State) : Host.Outcome State Fault Refusal :=
  .next (s.moveIssue (.moveOperation q d bad) bad)

/-! ## Retirement of a move -/

/-- Pages of a run become RELEASING (R206). -/
def State.releasePages (s : State) (pages : List Nat) : State :=
  { s with dir := pages.foldl (fun m p => SMap.put dirReset m p (withFld (SMap.get dirReset m p) 28 26 2)) s.dir }

/-- A slot after a fill move of it has completed: a faulted row stays to be rewritten; the slot is READY once the WLAST move and
every fill move before it have completed and nothing is left to rewrite (R217, R233). -/
def WSlot.filled (w : WSlot) (rows : List (Nat × Nat)) (fault last others : Bool) : WSlot :=
  let covered := fun (r : Nat × Nat) => rows.any (fun t => decide (t.1 ≤ r.1) && decide (r.1 + r.2 ≤ t.1 + t.2))
  let faulted := if fault then w.faulted ++ rows.filter (fun r => !w.faulted.contains r) else w.faulted.filter (fun r => !covered r)
  let seen := w.lastSeen || last
  { w with faulted := faulted, lastSeen := seen, st := if seen && faulted.isEmpty && !others then 2 else w.st }

/-- The window slot and the pass of a completed fill move (R217, R252). -/
def State.endFill (s : State) (o : Op) : State :=
  let d := o.desc
  if hdClass d ≠ 3 ∨ mvWfill d = 0 then s
  else
    let fault := decide (o.status = 1)
    let others := (s.fillsOf o.fn (mvWslot d)).any (fun p => !p.is o.ref)
    let s := s.modFn o.fn (fun x => { x with window := x.window.mapIdx (fun j w =>
      if j = mvWslot d ∧ w.st = 1 ∧ w.layer = mvWlayer d then w.filled (mvDstDev d) fault (decide (mvWlast d = 1)) others else w) })
    match (s.queue o.queue.val).pass, s.srcFrame? d with
    | some (fr, gen, cur), some g =>
      if fr = g ∧ mvWlast d = 1 ∧ !fault then
        s.setQueue o.queue.val { s.queue o.queue.val with pass := some (fr, gen, max cur (mvWlayer d + 1)) }
      else s
    | _, _ => s

/-- What ends with a move besides its holds: the release of its source pages, and its window fill. -/
def State.endMove (s : State) (o : Op) : State :=
  let d := o.desc
  if hdClass d ≠ 3 then s
  else
    let s := if mvReleaseSrc d = 1 ∧ o.status = 0 then s.releasePages (pagesOf (mvSrcAddr d) (mvRows d * mvRow d)) else s
    s.endFill o

/-- A move that is stopped leaves its destination open (R343, R493). -/
def State.openMove (s : State) (o : Op) : State :=
  if hdClass o.desc ≠ 3 ∨ o.stage ≠ .stored then s
  else (s.mvKeys o.fn o.desc).foldl (fun s r => s.scramble (s.writeAddr o.fn r.1) r.2) s

end Sys2Proof.Machine
end

