-- ==== Sys2Proof/Machine/Roots.lean ====
section
/-! DEFINITION. Rounding and writing a closed slot or a truss root (R134, R148): stochastic rounding with its element indices,
SAT, the epilogues of Table 5-5, lowering (R184, R185) and the tile exponent map (R187). -/

namespace Sys2Proof.Machine

/-- Where and how a closed slot or a root is written. -/
structure Root where
  fmt : Nat
  sat : Nat
  step : Nat
  rtid : Nat
  base : Nat
  pitch : Nat
  dst : Nat
  dstPitch : Nat
  epi : Nat
  epiAddr : Nat
  watchId : Nat
  /-- Column width of the operation. -/
  width : Nat
  deriving DecidableEq, Repr

def matrixRoot (d : Desc) : Root :=
  { fmt := mxDstFmt d, sat := mxSat d, step := mxStep d, rtid := mxRtid d, base := mxElemBase d, pitch := mxRowPitch d,
    dst := mxDstAddr d, dstPitch := mxDstPitch d, epi := mxEpi d, epiAddr := mxEpiAddr d, watchId := mxWatchId d, width := mxWidth d }

/-- Column width of a truss operation. -/
def trWidth (d : Desc) : Nat := if trPair2 d = 1 then 1024 else 512

def trussRoot (d : Desc) : Root :=
  { fmt := trDstFmt d, sat := trSat d, step := trStep d, rtid := trRtid d, base := trElemBase d, pitch := trRowPitch d,
    dst := trDstAddr d, dstPitch := trDstPitch d, epi := trEpi d, epiAddr := trEpiAddr d, watchId := trWatchId d, width := trWidth d }

/-- Bytes from DST to the end of the last row. -/
def Root.span (r : Root) (rows : Nat) : Nat := (rows - 1) * r.dstPitch * 128 + 2 * r.width

/-- Epilogue bytes: operands of SCALE_BIAS, or one record a slot row. -/
def Root.epiSpan (r : Root) (slots : Nat) : Nat := if r.epi = 0 then 0 else if r.epi = 6 then 4 * r.width else 256 * slots

/-- Is the origin of each tile off the 64 × 512 grid (R187)? -/
def Root.offGrid (r : Root) (rows : Nat) : Bool :=
  decide (r.pitch = 0) || (List.range (groupsOf rows)).any (fun i => (List.range (r.width / 512)).any (fun h =>
    let f := r.base + 64 * i * r.pitch + 512 * h
    decide (f / r.pitch % 64 ≠ 0) || decide (f % r.pitch % 512 ≠ 0)))

/-- Byte of the tile exponent map for a tile (R187). -/
def Root.mapOffset (r : Root) (e : BitVec 1024) (row0 col0 : Nat) : Nat :=
  let f := r.base + row0 * r.pitch + col0
  weTemOff e + f / r.pitch / 64 * ((r.pitch + 511) / 512) + f % r.pitch / 512

/-- TILE_GRID at issue: a tile off the grid, or a map byte outside an owned SCRATCH partition. -/
def State.gridBad (s : State) (f : FnId) (r : Root) (rows : Nat) (entry : Option (BitVec 1024)) : Bool :=
  match entry with
  | none => false
  | some e =>
    decide (weRecomp e = 1) && (r.offGrid rows ||
      (List.range (groupsOf rows)).any (fun i => (List.range (r.width / 512)).any (fun h =>
        decide (2 ^ 25 ≤ r.mapOffset e (64 * i) (512 * h)))) ||
      (let p := s.part (weTemPart e); decide (p.owner ≠ some f) || decide (p.mode ≠ 0)))

/-- Round the rows of a tile: each value times 2^k, stochastically, under SAT. -/
def Root.form (r : Root) (seed : Nat) (k : Int) (col0 : Nat) (rows : List (Nat × List Val)) : List (Nat × List (Val × Stored)) :=
  rows.map (fun x => (x.1, x.2.mapIdx (fun n v =>
    let v := v.scale k
    (v, (fmtOf r.fmt).sr r.sat (random16 seed r.step r.rtid (r.base + x.1 * r.pitch + col0 + n)) v))))

def formCounts (f : Fmt) (rows : List (Nat × List (Val × Stored))) : Counts :=
  rows.foldl (fun c x => x.2.foldl (fun c y => Counts.add f c y.1 y.2) c) Counts.none

/-- SCALE_BIAS: rne24(v × s[c] + b[c]) (R144). -/
def State.scaleBias (s : State) (core : Nat) (r : Root) (col0 : Nat) (vs : List Val) : List Val :=
  if r.epi = 6 then
    let f := fmtOf r.fmt
    vs.mapIdx (fun n v =>
      let a := f.decode (s.nat (spKey core (r.epiAddr + 2 * (col0 + n))) 2)
      let b := f.decode (s.nat (spKey core (r.epiAddr + 2 * r.width + 2 * (col0 + n))) 2)
      val24 (rne24 (plusZero ((v.mul a).add b))))
  else vs

/-- Write one tile of 64 rows at most into a core's scratchpad: rows from `row0`, columns from `col0`, records in slot `k`'s
place; report it and write its map byte. -/
def State.writeTile (s : State) (f : FnId) (core : Nat) (r : Root) (entry : Option (BitVec 1024)) (k row0 col0 : Nat)
    (rows : List (List Val)) : State :=
  let fm := fmtOf r.fmt
  let seed := (s.fn f).seed.toNat
  let vals := rows.mapIdx (fun j vs => (row0 + j, s.scaleBias core r col0 vs))
  let recomp := match entry with
    | some e => decide (weRecomp e = 1)
    | none => false
  let e := entry.getD 0
  let base := if recomp then weExp e else 0
  let first := r.form seed base col0 vals
  let c1 := formCounts fm first
  let beyond := recomp && overThreshold e c1.elems c1.sats
  let exp := if beyond then base - (weStep e : Int) else base
  let out := if beyond then r.form seed exp col0 vals else first
  let c2 := formCounts fm out
  let s := s.writeAll (out.map (fun x => (spKey core (r.dst + x.1 * r.dstPitch * 128 + 2 * col0), x.2.flatMap (fun y => leBytes 2 y.2.code))))
  let s := if 1 ≤ r.epi ∧ r.epi ≤ 5 then
      s.writeAll (out.mapIdx (fun j x =>
        let rec0 := rowRecord fm r.sat r.epi (x.2.map (fun y => fm.decode y.2.code))
        (spKey core (r.epiAddr + 256 * k + 4 * j), leBytes 4 (if 4 ≤ r.epi then rec0 + col0 * 2 ^ 16 else rec0))))
    else s
  let s := if recomp then s.write (llmAddr (weTemPart e) (r.mapOffset e row0 col0)) [BitVec.ofNat 8 (ofSigned 8 exp)] else s
  if entry.isSome then s.watchReport f r.watchId c2 beyond beyond (beyond && overThreshold e c2.elems c2.sats) else s

end Sys2Proof.Machine
end

