-- ==== Sys2Proof/Machine/Vector.lean ====
section
/-! DEFINITION. The vector engine (R95 to R102): the checks of Table 3-9, the operations of Table 3-7, and the watch counts of
their stores (R178 to R185). Results are written at issue; OPERATION_RETIRE completes the operation. -/

namespace Sys2Proof.Machine

/-- Rows and columns. -/
def veRows (d : Desc) : Nat := veRowsM1 d + 1
def veCols (d : Desc) : Nat := veColsM1 d + 1

/-- Operations that read A as a tensor: all but NORM_STATS. -/
def veTensorA (op : Nat) : Bool := decide (op ≠ 0x0F)

/-- Operations that write DST as a tensor. -/
def veTensorDst (op : Nat) : Bool := !decide (op = 0x0D ∨ op = 0x0F ∨ op = 0x18)

/-- Two-operand element-wise operations. -/
def veBinary (op : Nat) : Bool := decide (2 ≤ op) && decide (op ≤ 7)

def veFunction (op : Nat) : Bool := decide (8 ≤ op) && decide (op ≤ 0x0B)

/-- Bytes of a tensor operand: rows at their pitch, then the scale area of a planked one (R95, R96). -/
def veSpan (d : Desc) (pitch fc plank : Nat) : Nat := tensorSpan pitch (veRows d) (veCols d) fc (plankSize plank)

/-- Offsets and lengths an operation reads. -/
def veReads (d : Desc) : List (Nat × Nat) :=
  let op := hdOp d
  let a := (veAAddr d, if veTensorA op then veSpan d (veAPitch d) (veAFmt d) (veAPlank d) else 4 * veRows d)
  let b := if veBinary op || decide (op = 0x10) then [(veBAddr d, veSpan d (veBPitch d) (veBFmt d) 0)]
    else if op = 0x0C ∨ op = 0x0E then [(veBAddr d, 4 * veRows d)] else []
  let c := if op = 0x0E then [(veCAddr d, 2 * veCols d)]
    else if op = 0x10 then [(veCAddr d, veSpan d (veCPitch d) (veBFmt d) 0)] else []
  let aux := if op = 0x0E then [(veAuxAddr d, 2 * veCols d)]
    else if op = 0x0F then [(veAuxAddr d, 8)]
    else if op = 0x10 then [(veAuxAddr d, 64)] else []
  let scales := if veTensorDst op && isPlanked (veDstFmt d) && decide (veScaleMode d = 2)
    then [(veAuxAddr d, veRows d * (veCols d / plankSize (veDstPlank d)))] else []
  let w := if op = 0x10 then [(veDstAddr d, veSpan d (veDstPitch d) (veDstFmt d) 0)] else []
  a :: b ++ c ++ aux ++ scales ++ w

/-- Offsets and lengths an operation writes. -/
def veWrites (d : Desc) : List (Nat × Nat) :=
  let op := hdOp d
  let dst := (veDstAddr d,
    if op = 0x0D ∨ op = 0x0F then 4 * veRows d
    else if op = 0x18 then 128 * veRows d
    else veSpan d (veDstPitch d) (veDstFmt d) (veDstPlank d))
  if op = 0x10 then [dst, (veBAddr d, veSpan d (veBPitch d) (veBFmt d) 0), (veCAddr d, veSpan d (veCPitch d) (veBFmt d) 0)] else [dst]

/-- A FUNC value that Table 3-7 does not give. -/
def veFuncBad (d : Desc) : Bool :=
  let func := veFunc d
  match hdOp d with
  | 0x0B => decide (2 < func)
  | 0x0C => decide (func / 4 % 4 ≠ 0)
  | 0x0D => !(decide (1 ≤ func) && decide (func ≤ 5))
  | 0x18 => decide (4 ≤ func)
  | _ => decide (func ≠ 0)

/-- A format or saturation mode that Table 3-7 or Table 3-3 does not allow. -/
def veFormatBad (d : Desc) : Bool :=
  let op := hdOp d
  let a := veAFmt d
  let b := veBFmt d
  let t := veDstFmt d
  let aOk := if op = 0x18 then decide (a = 1) else if veFunction op || decide (op = 0x0F) then is16 a
    else if op = 0x10 then decide (a ≤ 2) else decide (a ≤ 9)
  let bOk := if veBinary op then decide (b ≤ 2) else if op = 0x0C ∨ op = 0x0E ∨ op = 0x10 then is16 b else decide (b ≤ 9)
  let tOk := if op = 0x18 then decide (t = 1) else if veFunction op then decide (t ≤ 2)
    else if op = 0x0D ∨ op = 0x0F ∨ op = 0x10 then is16 t else decide (t ≤ 9)
  !aOk || !bOk || !tOk || decide (veSat d = 3) || (decide (veSat d = 2) && decide (2 < t))

/-- Pitches of the tensors an operation uses, with the bytes of a row. -/
def vePitches (d : Desc) : List (Nat × Nat) :=
  let op := hdOp d
  let row := fun fc => rowBytes (fmtOf fc) (veCols d)
  (if veTensorA op then [(veAPitch d, row (veAFmt d))] else [])
  ++ (if veBinary op || decide (op = 0x10) then [(veBPitch d, row (veBFmt d))] else [])
  ++ (if op = 0x10 then [(veCPitch d, row (veBFmt d))] else [])
  ++ (if veTensorDst op then [(veDstPitch d, row (veDstFmt d))] else [])

/-- Watch entry of an operation where it is watched and enabled (R178). -/
def State.enabledEntry (s : State) (f : FnId) (en id : Nat) : Option (BitVec 1024) :=
  if en = 0 then none
  else
    match (s.fn f).watchEntry? id with
    | some a => let e := s.watchRead a; if weEnable e = 1 then some e else none
    | none => none

/-- Cause of the checks at issue (Tables 3-9 and 7-3), 0 when they pass; SOURCE_HELD only when nothing else fails (R496). -/
def State.vectorCause (s : State) (c : CoreId) (o : Op) (entry : Option (BitVec 1024)) : Nat :=
  let d := o.desc
  let op := hdOp d
  let planked := veTensorDst op && isPlanked (veDstFmt d)
  let block := s.bytes (spKey c.val (veAuxAddr d + 40)) 24
  let used := veReads d ++ veWrites d
  let cause := lowestCause [
    (veFuncBad d || (decide (op = 0x10) && block.any (fun b => decide (b ≠ 0))), 0xD0),
    (veFormatBad d, 0xD1),
    (used.any (fun r => decide (r.1 % 128 ≠ 0) || !spOk r.1 r.2) || (vePitches d).any (fun p => decide (p.1 * 128 < p.2)), 0xD2),
    ((veTensorA op && isPlanked (veAFmt d) && decide (veCols d % plankSize (veAPlank d) ≠ 0))
      || (planked && decide (veCols d % plankSize (veDstPlank d) ≠ 0))
      || (decide (op = 0x18) && (decide (64 < veCols d) || decide (veDstPitch d ≠ 1))), 0xD3),
    (decide (2 ^ 35 ≤ veElemBase d + (veRows d - 1) * veRowPitch d + veCols d - 1), 0xD4),
    ((decide (veScaleMode d ≠ 0) && !planked) || (decide (veScaleMode d = 3) && entry.isNone)
      || (decide (veScaleMode d = 1) && decide (veScaleCode d = 255)), 0xD5),
    (decide (veWatchEn d = 1) && ((s.fn o.fn).watchEntry? (veWatchId d)).isNone, 0x38),
    (planked && decide (veScaleMode d = 3) && (match entry with
      | some e => decide (wePolicy e = 1 ∧ weHistN e = 0)
      | none => false), 0x39)]
  if cause ≠ 0 then cause
  else if (veWrites d).any (fun r => s.heldBy o.fn (some o.ref) (spKey c.val r.1) r.2) then 0x0E
  else 0

/-- Report counts of a watched store, nothing where the operation is not watched. -/
def State.report? (s : State) (o : Op) (id : Nat) (c : Counts) (beyond lowered still : Bool) : State :=
  if o.entry.isSome then s.watchReport o.fn id c beyond lowered still else s

/-! ## Operands and results -/

def State.vecA (s : State) (c : CoreId) (d : Desc) : List (List Val) :=
  tensorRows s.mem (spKey c.val (veAAddr d)) (veAPitch d) (veRows d) (veCols d) (veAFmt d) (plankSize (veAPlank d))

def State.vecB (s : State) (c : CoreId) (d : Desc) : List (List Val) :=
  tensorRows s.mem (spKey c.val (veBAddr d)) (veBPitch d) (veRows d) (veCols d) (veBFmt d) 32

def State.vecC (s : State) (c : CoreId) (d : Desc) : List (List Val) :=
  tensorRows s.mem (spKey c.val (veCAddr d)) (veCPitch d) (veRows d) (veCols d) (veBFmt d) 32

def State.vecW (s : State) (c : CoreId) (d : Desc) : List (List Val) :=
  tensorRows s.mem (spKey c.val (veDstAddr d)) (veDstPitch d) (veRows d) (veCols d) (veDstFmt d) 32

/-- The 16-bit value of a row record's half, in B_FMT (R98). -/
def State.recordVal (s : State) (c : CoreId) (addr r : Nat) (high : Bool) (fc : Nat) : Val :=
  (fmtOf fc).decode (s.nat (spKey c.val (addr + 4 * r + (if high then 2 else 0))) 2)

/-- A 2-byte value of a per-column vector. -/
def State.columnVal (s : State) (c : CoreId) (addr k fc : Nat) : Val := (fmtOf fc).decode (s.nat (spKey c.val (addr + 2 * k)) 2)

/-- An FP32 value of a parameter block. -/
def State.param (s : State) (c : CoreId) (addr off : Nat) : Val := fp32.decode (s.nat (spKey c.val (addr + off)) 4)

/-- Write packed rows at a pitch. -/
def State.putRows (s : State) (key pitch : Nat) (f : Fmt) (rows : List (List Nat)) : State :=
  s.writeAll (rows.mapIdx (fun r codes => (key + r * pitch * 128, packRow f codes)))

/-- Round and store a tensor at DST: nearest-even under SAT, with plank scales by SCALE_MODE; report its tiles. -/
def State.storeTensor (s : State) (c : CoreId) (o : Op) (lower : Bool) (rows : List (List Val)) : State :=
  let d := o.desc
  let fc := veDstFmt d
  let f := fmtOf fc
  let key := spKey c.val (veDstAddr d)
  if isPlanked fc then
    let plank := plankSize (veDstPlank d)
    let n := veRows d * (veCols d / plank)
    let array := if veScaleMode d = 2 then (s.bytes (spKey c.val (veAuxAddr d)) n).map (·.toNat) else []
    let tiles := formPlanked fc (veSat d) (veScaleMode d) (veScaleCode d) plank array o.entry lower rows
    let planks := tiles.flatMap (·.planks)
    let codes := chunks (veCols d) (planks.flatMap (·.codes))
    let s := s.putRows key (veDstPitch d) f codes
    let s := s.write (key + veRows d * veDstPitch d * 128) (planks.map (fun p => BitVec.ofNat 8 p.scale))
    tiles.foldl (fun s t => s.report? o (veWatchId d) t.counts t.beyond t.lowered t.still) s
  else
    let sts := rows.map (fun vs => vs.map (fun v => (v, f.rne (veSat d) v)))
    let s := s.putRows key (veDstPitch d) f (sts.map (fun r => r.map (fun x => x.2.code)))
    let cs := sts.foldl (fun c r => r.foldl (fun c x => Counts.add f c x.1 x.2) c) Counts.none
    s.report? o (veWatchId d) cs false false false

/-- Write one 4-byte record per row at DST. -/
def State.storeRecords (s : State) (c : CoreId) (d : Desc) (rs : List Nat) : State :=
  s.write (spKey c.val (veDstAddr d)) (rs.flatMap (leBytes 4))

/-- Issue of a vector operation on its core: the checks; then a parity error or the operation's own effect; its sources stay
held until it retires. -/
def State.vectorOp (s : State) (i : Instr) (parity : Bool) (run : CoreId → Op → State → State) : State :=
  s.issueOnCore i (fun c o s =>
    let d := o.desc
    let entry := s.enabledEntry o.fn (veWatchEn d) (veWatchId d)
    let cause := s.vectorCause c o entry
    if cause ≠ 0 then
      let s := if cause = 0x39 then s.raise (pageHlth o.fn.val) 2 else s
      s.fail o cause
    else if s.stageWait o.fn ((veReads d).map (fun r => (spKey c.val r.1, r.2))) then s.parkStage i o
    else if parity then
      let s := (veWrites d).foldl (fun s r => s.scramble (spKey c.val r.1) r.2) s
      (s.fail o 0xD6).orderQuarantine c 2
    else
      let o := { o with stage := .stored, entry := entry, holds := (veReads d).map (fun r => (spKey c.val r.1, r.2)) }
      run c o (s.putOp o))

/-- A one-operand element-wise operation. -/
def vecUnary (lower : Bool) (g : Val → Val) (c : CoreId) (o : Op) (s : State) : State :=
  s.storeTensor c o lower ((s.vecA c o.desc).map (fun r => r.map g))

/-- A two-operand element-wise operation. -/
def vecBinary (g : Val → Val → Val) (c : CoreId) (o : Op) (s : State) : State :=
  s.storeTensor c o false (List.zipWith (List.zipWith g) (s.vecA c o.desc) (s.vecB c o.desc))

/-! ## The operations -/

/-- CONVERT (R77 to R79). -/
def execConvert (q : QueueId) (d : Desc) (parity : Bool) (s : State) : Host.Outcome State Fault Refusal :=
  .next (s.vectorOp (.convert q d parity) parity (vecUnary true (fun a => a)))

/-- ADD: a + b. -/
def execAdd (q : QueueId) (d : Desc) (parity : Bool) (s : State) : Host.Outcome State Fault Refusal :=
  .next (s.vectorOp (.add q d parity) parity (vecBinary (fun a b => plusZero (a.add b))))

/-- SUB: a − b. -/
def execSub (q : QueueId) (d : Desc) (parity : Bool) (s : State) : Host.Outcome State Fault Refusal :=
  .next (s.vectorOp (.sub q d parity) parity (vecBinary (fun a b => plusZero (a.sub b))))

/-- MUL: a × b. -/
def execMul (q : QueueId) (d : Desc) (parity : Bool) (s : State) : Host.Outcome State Fault Refusal :=
  .next (s.vectorOp (.mul q d parity) parity (vecBinary Val.mul))

/-- MAX. -/
def execVectorMax (q : QueueId) (d : Desc) (parity : Bool) (s : State) : Host.Outcome State Fault Refusal :=
  .next (s.vectorOp (.vectorMax q d parity) parity (vecBinary Val.max2))

/-- MIN. -/
def execVectorMin (q : QueueId) (d : Desc) (parity : Bool) (s : State) : Host.Outcome State Fault Refusal :=
  .next (s.vectorOp (.vectorMin q d parity) parity (vecBinary Val.min2))

/-- AXPY: s × a + b with the BF16 SCALAR. -/
def execAxpy (q : QueueId) (d : Desc) (parity : Bool) (s : State) : Host.Outcome State Fault Refusal :=
  .next (s.vectorOp (.axpy q d parity) parity (vecBinary (fun a b => plusZero (((bf16.decode (veScalar d)).mul a).add b))))

/-- EXP. -/
def execExp (q : QueueId) (d : Desc) (parity : Bool) (s : State) : Host.Outcome State Fault Refusal :=
  .next (s.vectorOp (.exp q d parity) parity (vecUnary false Val.exp))

/-- RECIP. -/
def execRecip (q : QueueId) (d : Desc) (parity : Bool) (s : State) : Host.Outcome State Fault Refusal :=
  .next (s.vectorOp (.recip q d parity) parity (vecUnary false Val.recip))

/-- RSQRT. -/
def execRsqrt (q : QueueId) (d : Desc) (parity : Bool) (s : State) : Host.Outcome State Fault Refusal :=
  .next (s.vectorOp (.rsqrt q d parity) parity (vecUnary false Val.rsqrt))

/-- ACT with its FUNC. -/
def execAct (q : QueueId) (d : Desc) (parity : Bool) (s : State) : Host.Outcome State Fault Refusal :=
  .next (s.vectorOp (.act q d parity) parity (vecUnary false (Val.act (veFunc d))))

/-- The value of ROW_OP (Table 3-7). -/
def rowOpValue (func : Nat) (a b : Val) : Val :=
  match func % 4 with
  | 0 => a.mul b
  | 1 => plusZero (a.sub b)
  | 2 => plusZero (a.add b)
  | _ => a.div b

/-- ROW_OP: each row with the value of its record. -/
def execRowOp (q : QueueId) (d : Desc) (parity : Bool) (s : State) : Host.Outcome State Fault Refusal :=
  .next (s.vectorOp (.rowOp q d parity) parity (fun c o s =>
    s.storeTensor c o false ((s.vecA c d).mapIdx (fun r row =>
      let b := s.recordVal c (veBAddr d) r (flag d 255) (veBFmt d)
      row.map (fun a => rowOpValue (veFunc d) a b)))))

/-- ROW_REDUCE: the statistic of epilogue code FUNC. -/
def execRowReduce (q : QueueId) (d : Desc) (parity : Bool) (s : State) : Host.Outcome State Fault Refusal :=
  .next (s.vectorOp (.rowReduce q d parity) parity (fun c o s =>
    let f := fmtOf (veDstFmt d)
    let rows := s.vecA c d
    let cs := rows.foldl (fun cs row => (rowStats f (veSat d) (veFunc d) row).foldl (fun cs x => Counts.add f cs x.1 x.2) cs) Counts.none
    (s.storeRecords c d (rows.map (rowRecord f (veSat d) (veFunc d)))).report? o (veWatchId d) cs false false false))

/-- ROW_NORM: (a − μ[r]) × ρ[r] × g[c] + β[c], exact, rounded once. -/
def execRowNorm (q : QueueId) (d : Desc) (parity : Bool) (s : State) : Host.Outcome State Fault Refusal :=
  .next (s.vectorOp (.rowNorm q d parity) parity (fun c o s =>
    let b := veBFmt d
    s.storeTensor c o false ((s.vecA c d).mapIdx (fun r row =>
      let mu := s.recordVal c (veBAddr d) r false b
      let rho := s.recordVal c (veBAddr d) r true b
      row.mapIdx (fun k a =>
        plusZero ((((a.sub mu).mul rho).mul (s.columnVal c (veAuxAddr d) k b)).add (s.columnVal c (veCAddr d) k b)))))))

/-- One row of NORM_STATS: μ and ρ, every step rounded to FP32 (R98). -/
def normStats (sum sq n eps : Val) : Val × Val :=
  let mu := rn32 (sum.div n)
  let diff := rn32 ((rn32 (sq.div n)).sub (rn32 (mu.mul mu)))
  let var := if diff.isNan then diff else diff.max2 Val.zero
  let rho := rn32 ((Val.num false 1 0).div (rn32 (rn32 (var.add eps)).sqrt))
  (mu, rho)

/-- NORM_STATS. -/
def execNormStats (q : QueueId) (d : Desc) (parity : Bool) (s : State) : Host.Outcome State Fault Refusal :=
  .next (s.vectorOp (.normStats q d parity) parity (fun c o s =>
    let f := fmtOf (veDstFmt d)
    let n := s.param c (veAuxAddr d) 0
    let eps := s.param c (veAuxAddr d) 4
    let rows := (List.range (veRows d)).map (fun r =>
      normStats (s.recordVal c (veAAddr d) r false (veAFmt d)) (s.recordVal c (veAAddr d) r true (veAFmt d)) n eps)
    let cs := rows.foldl (fun cs x => Counts.add f (Counts.add f cs x.1 (f.rne (veSat d) x.1)) x.2 (f.rne (veSat d) x.2)) Counts.none
    (s.storeRecords c d (rows.map (fun x => (f.rne (veSat d) x.1).code + (f.rne (veSat d) x.2).code * 2 ^ 16))).report?
      o (veWatchId d) cs false false false))

/-- The parameter block of ADAM (R99). -/
structure AdamParams where
  lr : Val
  beta1 : Val
  omb1 : Val
  beta2 : Val
  omb2 : Val
  eps : Val
  decay : Val
  bc1 : Val
  bc2 : Val
  gscale : Val
  deriving DecidableEq, Repr

def State.adamParams (s : State) (c : CoreId) (a : Nat) : AdamParams :=
  { lr := s.param c a 0, beta1 := s.param c a 4, omb1 := s.param c a 8, beta2 := s.param c a 12, omb2 := s.param c a 16,
    eps := s.param c a 20, decay := s.param c a 24, bc1 := s.param c a 28, bc2 := s.param c a 32, gscale := s.param c a 36 }

/-- One element of ADAM: the stored M and V, and the exact W before its rounding. `rm` and `rv` are the random values. -/
def adamElement (mf : Fmt) (sat rm rv : Nat) (w g m v : Val) (p : AdamParams) : Stored × Stored × Val :=
  let gs := rn32 (g.mul p.gscale)
  let m1 := mf.sr sat rm (plusZero ((p.beta1.mul m).add (p.omb1.mul gs)))
  let v1 := mf.sr sat rv (plusZero ((p.beta2.mul v).add ((p.omb2.mul gs).mul gs)))
  let mh := rn32 ((mf.decode m1.code).mul p.bc1)
  let vh := rn32 ((mf.decode v1.code).mul p.bc2)
  let den := rn32 ((rn32 vh.sqrt).add p.eps)
  let u := rn32 ((rn32 (mh.div den)).add (p.decay.mul w))
  (m1, v1, plusZero (w.sub (p.lr.mul u)))

/-- ADAM: W, M and V in place, each with its own rounding key; only W is counted. -/
def execAdam (q : QueueId) (d : Desc) (parity : Bool) (s : State) : Host.Outcome State Fault Refusal :=
  .next (s.vectorOp (.adam q d parity) parity (fun c o s =>
    let p := s.adamParams c (veAuxAddr d)
    let seed := (s.fn o.fn).seed.toNat
    let mf := fmtOf (veBFmt d)
    let wf := fmtOf (veDstFmt d)
    let sat := veSat d
    let rand := fun (tag r k : Nat) => random16 seed (veStep d) (Nat.xor (veRtid d) tag) (veElemBase d + r * veRowPitch d + k)
    let gs := s.vecA c d
    let ms := s.vecB c d
    let vs := s.vecC c d
    let ws := s.vecW c d
    let out := (ws.zip (gs.zip (ms.zip vs))).mapIdx (fun r x =>
      (x.1.zip (x.2.1.zip (x.2.2.1.zip x.2.2.2))).mapIdx (fun k y =>
        let e := adamElement mf sat (rand 0x40000000 r k) (rand 0x80000000 r k) y.1 y.2.1 y.2.2.1 y.2.2.2 p
        (e.1, e.2.1, e.2.2, wf.sr sat (rand 0 r k) e.2.2)))
    let s := s.putRows (spKey c.val (veBAddr d)) (veBPitch d) mf (out.map (fun r => r.map (fun x => x.1.code)))
    let s := s.putRows (spKey c.val (veCAddr d)) (veCPitch d) mf (out.map (fun r => r.map (fun x => x.2.1.code)))
    let s := s.putRows (spKey c.val (veDstAddr d)) (veDstPitch d) wf (out.map (fun r => r.map (fun x => x.2.2.2.code)))
    let cs := out.foldl (fun cs r => r.foldl (fun cs x => Counts.add wf cs x.2.2.1 x.2.2.2) cs) Counts.none
    s.report? o (veWatchId d) cs false false false))

/-- The columns ROUTE_TOPK chooses: the k largest, ties to the lower column, never a NaN (R100). -/
def topK : Nat → List (Nat × Val) → List (Nat × Val)
  | 0, _ => []
  | k + 1, xs =>
    match xs.filter (fun x => !x.2.isNan) with
    | [] => []
    | x :: rest =>
      let best := rest.foldl (fun b y => if b.2.lt y.2 then y else b) x
      best :: topK k (xs.filter (fun y => decide (y.1 ≠ best.1)))

/-- The 64 gates of one row (R100), as stored elements with their values. -/
def routeRow (sat k : Nat) (logits : List Val) : List (Val × Stored) :=
  let chosen := topK k (logits.mapIdx (fun i v => (i, v)))
  let top := match chosen with
    | x :: _ => x.2
    | [] => Val.zero
  let infinite := chosen.any (fun x => !x.2.isFinite)
  let es := chosen.map (fun x => (x.1, rn32 (Val.exp (plusZero (x.2.sub top)))))
  let asc := (List.range 64).filterMap (fun i => (es.find? (fun e => decide (e.1 = i))).map (·.2))
  let sum := asc.foldl (fun acc e => rn32 (acc.add e)) Val.zero
  (List.range 64).map (fun i =>
    match es.find? (fun e => decide (e.1 = i)) with
    | none => (Val.zero, bf16.rne sat Val.zero)
    | some e => let g := if infinite then Val.nan else rn32 (e.2.div sum); (g, bf16.rne sat g))

/-- ROUTE_TOPK. -/
def execRouteTopk (q : QueueId) (d : Desc) (parity : Bool) (s : State) : Host.Outcome State Fault Refusal :=
  .next (s.vectorOp (.routeTopk q d parity) parity (fun c o s =>
    let rows := (s.vecA c d).map (routeRow (veSat d) (veFunc d % 4 + 1))
    let s := s.writeAll (rows.mapIdx (fun r gs => (spKey c.val (veDstAddr d + r * 128), gs.flatMap (fun g => leBytes 2 g.2.code))))
    let cs := rows.foldl (fun cs r => r.foldl (fun cs x => Counts.add bf16 cs x.1 x.2) cs) Counts.none
    s.report? o (veWatchId d) cs false false false))

end Sys2Proof.Machine
end

