-- ==== Sys2Proof/Machine/Matrix.lean ====
section
/-! DEFINITION. The matrix engines (R103 to R144): the matrix operation, the entry of its vectors, the loader's row writes,
closing a slot, and the retirement of an operation. -/

namespace Sys2Proof.Machine

/-! ## Layouts (R210) and addresses -/

def alignUp128 (n : Nat) : Nat := (n + 127) / 128 * 128

/-- Bytes of a stationary row of the pairing. -/
def mxWRowBytes (d : Desc) : Nat := mxWidth d * (fmtOf (mxWFmt d)).bits / 8

/-- Bytes of a stationary block with its scale area. -/
def mxWBytes (d : Desc) : Nat :=
  512 * mxWRowBytes d + (if isPlanked (mxWFmt d) then 512 / plankSize (mxWPlank d) * mxWidth d else 0)

def mxXRowBytes (d : Desc) : Nat := 512 * (fmtOf (mxXFmt d)).bits / 8

/-- Bytes of a streaming segment with its scale area. -/
def mxXBytes (d : Desc) : Nat :=
  if isPlanked (mxXFmt d) then alignUp128 (mxRows d * mxXRowBytes d) + mxRows d * (512 / plankSize (mxXPlank d))
  else mxRows d * mxXRowBytes d

/-- Streaming segment j: offset and length. -/
def mxXRange (d : Desc) (j : Nat) : Nat × Nat := (mxXAddr d + j * mxXSegStride d * 128, mxXBytes d)

/-- Stationary block j: offset within its scratchpad or partition, and length. -/
def mxWRange (d : Desc) (j : Nat) : Nat × Nat :=
  ((if mxWSpace d = 1 then mxWAddr d % 2 ^ 25 else mxWAddr d % 2 ^ 24) + j * mxWSegStride d * 128, mxWBytes d)

def mxWPart (d : Desc) : Nat := mxWAddr d / 2 ^ 25 % 64

/-- Memory key of stationary block j. -/
def mxWKey (core : Nat) (d : Desc) (j : Nat) : Nat :=
  if mxWSpace d = 1 then llmAddr (mxWPart d) (mxWRange d j).1 else spKey core (mxWRange d j).1

/-- Memory keys and lengths an operation holds (R124). -/
def mxHolds (core : Nat) (d : Desc) : List (Nat × Nat) :=
  (List.range (mxSegs d)).map (fun j => (spKey core (mxXRange d j).1, mxXBytes d))
  ++ (if mxLoad d = 1 then (List.range (mxSegs d)).map (fun j => (mxWKey core d j, mxWBytes d)) else [])
  ++ (if mxAcc d = 1 then [(spKey core (mxInitAddr d), (matrixRoot d).span (mxRows d))] else [])
  ++ (if mxClose d = 1 ∧ mxEpi d = 6 then [(spKey core (mxEpiAddr d), 4 * mxWidth d)] else [])

def mxInit (core : Nat) (d : Desc) : Nat × Nat :=
  if mxAcc d = 1 then (spKey core (mxInitAddr d), (matrixRoot d).span (mxRows d)) else (0, 0)

/-! ## Checks at issue (Tables 4-7, 5-2, 6-5) -/

/-- Pairing of the block a reusing pass will find in its bank: that of the last load queued for it, else of the bank. -/
def Me.bankPairing (m : Me) (b : Nat) : Option Nat :=
  match (m.passes.filter (fun p => p.loads && decide (p.bank.val = b))).getLast? with
  | some p => some p.pairing
  | none => match (if b = 0 then m.bank0 else m.bank1) with
    | .empty => none
    | .block p _ _ _ _ _ _ => some p

/-- Is the operation a tile hazard: it opens a slot that an earlier operation has still to close or read (Table 5-3)? -/
def Me.hazard (m : Me) (d : Desc) : Bool :=
  decide (mxAcc d ≤ 1) && (mxSlots d).any (fun k => let x := m.slot k
    !x.projOpen && (decide (x.st ≠ .free) || !x.openers.isEmpty))

/-- The unjoined tenon operations a matrix operation takes (R164). -/
def Te.takes (t : Te) (d : Desc) : List TenonJoin := if mxJoin d = 0 then [] else t.unjoined.filter (fun j => decide (j.tag = mxJoin d))

/-- Does a join map a covered row outside the operation, or mix a forward and a transposed one (JOIN_SHAPE)? -/
def joinShapeBad (d : Desc) (j : TenonJoin) : Bool :=
  decide (j.firstRow < j.rowBase) || decide (mxRows d < j.firstRow + j.rows - j.rowBase) || decide (j.trans ≠ decide (mxTrans d = 1))

/-- Does a destination overlap a held range: another operation's sources but for the INIT range of these slots, or its own
streaming and stationary ranges (R124)? -/
def State.closeHeld (s : State) (core inst : Nat) (o : Op) : Bool :=
  let d := o.desc
  let r := matrixRoot d
  let ks := (mxSlots d).map (fun k => (inst, k))
  let dsts := (spKey core r.dst, r.span (mxRows d)) :: (if 1 ≤ r.epi ∧ r.epi ≤ 5 then [(spKey core r.epiAddr, 256 * ks.length)] else [])
  let hit := fun (x : Nat × Nat) => dsts.any (fun t => overlaps t.1 t.2 x.1 x.2)
  let shares := fun (added : List (Nat × Nat)) => added.any (fun k => ks.contains k)
  decide (mxClose d = 1) &&
    (s.heldOps.any (fun h => decide (h.fn = o.fn) && h.ranges.any (fun x => hit x && !(shares h.added && decide (x = h.init))))
     || s.ops.any (fun p => decide (p.fn = o.fn) && !p.is o.ref && p.holds.any (fun x => hit x &&
          !(decide (hdClass p.desc = 0) && shares p.added && decide (x = mxInit core p.desc))))
     || (mxHolds core d).any (fun x => hit x && decide (x ≠ mxInit core d)))

/-- Cause of the checks at issue, 0 when they pass (R123, R133, R496). -/
def State.matrixCause (s : State) (c : CoreId) (inst : Nat) (o : Op) (entry : Option (BitVec 1024)) : Nat :=
  let d := o.desc
  let m := s.me inst
  let r := matrixRoot d
  let slots := mxSlots d
  let ok := decide ((fmt? (mxXFmt d)).isSome) && decide ((fmt? (mxWFmt d)).isSome) && decide ((fmt? (mxDstFmt d)).isSome)
  let segs := List.range (mxSegs d)
  let closes := decide (mxClose d = 1)
  let p := s.part (mxWPart d)
  let joins := (s.te c.val).takes d
  let cause := lowestCause [
    (!ok, 0x01),
    (!is16 (mxDstFmt d), 0x02),
    (decide (mxSat d = 3), 0x03),
    ([mxXAddr d, mxInitAddr d, mxDstAddr d, mxEpiAddr d, mxWAddr d].any (fun a => decide (a % 128 ≠ 0))
      || (decide (mxWSpace d = 0) && decide (2 ^ 24 ≤ mxWAddr d)) || (decide (mxWSpace d = 1) && decide (2 ^ 31 ≤ mxWAddr d))
      || segs.any (fun j => !spOk (mxXRange d j).1 (mxXRange d j).2)
      || (decide (mxLoad d = 1) && segs.any (fun j => let w := mxWRange d j
            if mxWSpace d = 1 then decide (2 ^ 25 < w.1 + w.2) else !spOk w.1 w.2))
      || (decide (mxAcc d = 1) && !spOk (mxInitAddr d) (r.span (mxRows d)))
      || (closes && !spOk r.dst (r.span (mxRows d))), 0x04),
    (decide (mxLoad d = 1) && decide (mxWSpace d = 1) && (decide (p.owner ≠ some o.fn) || decide (p.mode ≠ 0)), 0x05),
    (slots.any (fun k => decide (31 < k)), 0x06),
    (if mxAcc d = 2 then slots.any (fun k => (m.slot k).projOpen && decide (16 < (m.slot k).segs + mxSegs d)) else false, 0x07),
    (decide (mxLoad d = 0) && (m.bankPairing (mxBank d)).isNone, 0x08),
    (decide (mxLoad d = 0) && (decide (1 < mxSegs d) || decide ((m.bankPairing (mxBank d)).getD (mxPairing d) ≠ mxPairing d)), 0x09),
    (decide (2 ^ 35 ≤ mxElemBase d + (mxRows d - 1) * mxRowPitch d + mxWidth d - 1), 0x0A),
    ((isPlanked (mxXFmt d) && decide (mxKlast d % plankSize (mxXPlank d) ≠ 0))
      || (isPlanked (mxWFmt d) && decide (mxTrans d = 0) && decide (mxKlast d % plankSize (mxWPlank d) ≠ 0)), 0x0B),
    (decide (mxTrans d = 1) && decide (mxPairing d = 0), 0x0C),
    (decide (mxAcc d = 3), 0x0D),
    (decide (mxAcc d ≤ 1) && slots.any (fun k => (m.slot k).projOpen), 0x11),
    (decide (mxAcc d = 2) && slots.any (fun k => !(m.slot k).projOpen), 0x12),
    (m.hazard d && (s.fn o.fn).tileStrict, 0x13),
    (decide (mxAcc d = 2) && slots.any (fun k => let x := m.slot k
        x.projOpen && (decide (x.rows ≠ mxRows d) || decide (x.width ≠ mxWidth d))), 0x15),
    (decide (6 < mxEpi d) || (closes && !spOk r.epiAddr (r.epiSpan slots.length)), 0x16),
    (decide (mxJoin d ≠ 0) && joins.isEmpty, 0x26),
    (joins.any (joinShapeBad d), 0x27),
    (closes && decide (mxWatchEn d = 1) && ((s.fn o.fn).watchEntry? (mxWatchId d)).isNone, 0x38),
    (closes && s.gridBad o.fn r (mxRows d) entry, 0x3A)]
  if cause ≠ 0 then cause else if s.closeHeld c.val inst o then 0x0E else 0

/-! ## Issue -/

/-- The window slot an operation reads that is not READY (R219). -/
def State.mxWindow? (s : State) (f : FnId) (d : Desc) : Option Nat :=
  if mxLoad d = 1 ∧ mxWSpace d = 1 then s.windowWait? f [mxWPart d] else none

/-- Is a write to part of an operation's INIT range still to land (R135)? -/
def State.initPending (s : State) (core : Nat) (o : Op) : Bool :=
  let i := mxInit core o.desc
  decide (mxAcc o.desc = 1) && s.ops.any (fun p => !p.is o.ref && decide (p.stage = .inflight) &&
    ((decide (hdClass p.desc = 0) && decide (mxClose p.desc = 1) && decide ((s.coreOf p).map (·.val) = some core)
        && overlaps i.1 i.2 (spKey core (mxDstAddr p.desc)) ((matrixRoot p.desc).span (mxRows p.desc)))
     || (decide (hdClass p.desc = 4) && decide (hdOp p.desc = 1) && decide ((s.phys? p.fn (trRoot p.desc)).map (·.val) = some core)
        && overlaps i.1 i.2 (spKey core (trDstAddr p.desc)) ((trussRoot p.desc).span (trRowsM1 p.desc + 1)))))

/-- Is an operation staged on an engine: handed to it, no vector entered (R111)? -/
def Me.staged (m : Me) : Bool := m.passes.any (fun p => !m.entered p.op)

/-- The slots an operation names take their projected states; free ones it opens are opened (R133). -/
def State.claimSlots (s : State) (c inst : Nat) (o : Op) : State :=
  let d := o.desc
  (mxSlots d).foldl (fun s k =>
    let x := (s.me inst).slot k
    if mxAcc d = 2 then s.modSlot inst k (fun x => { x with segs := x.segs + mxSegs d, projOpen := decide (mxClose d = 0) })
    else
      let s := s.modSlot inst k (fun x => { x with segs := mxSegs d, rows := mxRows d, width := mxWidth d, projOpen := decide (mxClose d = 0) })
      if x.st = .free ∧ x.openers.isEmpty then s.openSlot c inst k d
      else s.modSlot inst k (fun x => { x with openers := x.openers ++ [o.ref] })) s

/-- The passes of an operation: segment j reads bank BANK xor (j mod 2). -/
def mxPasses (o : Op) : List Pass :=
  let d := o.desc
  (List.range (mxSegs d)).map (fun j =>
    { op := o.ref, seg := j, bank := if (mxBank d + j) % 2 = 0 then 0 else 1, interval := entryInterval (mxPairing d), left := mxRows d,
      total := mxRows d, loads := decide (mxLoad d = 1), fp32 := decide (mxWFmt d = 0), trans := decide (mxTrans d = 1), pairing := mxPairing d })

/-- A parity error strikes a joined tenon operation: it completes with TE_PARITY, its joined slots are discarded and the core is to be
quarantined (R175). -/
def State.joinParity (s : State) (c : CoreId) (mx : OpRef) (j : TenonJoin) : State :=
  match s.op? j.op, s.op? mx with
  | some o, some m =>
    let plan := s.discardPlan (m.added.map (fun k => s.contentsOf k mx))
    let s := s.count (pageTe c.val + 0x68)
    (((s.setTe c.val ((s.te c.val).without j.op)).fail o 0x2D).discardBy plan).orderQuarantine c 2
  | _, _ => s

/-- The matrix operation (R120): the checks of R123 and R133; it waits for the engine's staging place (R111), for pending INIT
writes (R135) and for its window slot (R219); then it claims its slots, takes its tenon operations and is staged. A parity error of a tenon operation taken strikes then (R175). -/
def State.matrixIssue (s : State) (i : Instr) : State :=
  s.issueOnCore i (fun c o s =>
    let d := o.desc
    let inst := meInst c.val (hdEngine d)
    let entry := if mxClose d = 1 then s.enabledEntry o.fn (mxWatchEn d) (mxWatchId d) else none
    let cause := s.matrixCause c inst o entry
    if cause ≠ 0 then s.fail o cause
    else if (s.me inst).staged then s.park i o
    else if s.initPending c.val o then (s.wait (pageMe inst + 0x60)).park i o
    else if (s.mxWindow? o.fn d).isSome then (s.winStall o.fn ((s.mxWindow? o.fn d).getD 0)).park i o
    else if s.stageWait o.fn (mxHolds c.val d) then s.parkStage i o
    else
      let s := if (s.me inst).hazard d then s.count (pageMe inst + 0x58) else s
      let ks := (mxSlots d).map (fun k => (inst, k))
      let o := { o with entry := entry, holds := mxHolds c.val d, added := ks, slots := if mxClose d = 1 then ks else [] }
      let s := (s.putOp o).claimSlots c.val inst o
      let t := s.te c.val
      let taken := t.takes d
      let s := s.setTe c.val { t with unjoined := t.unjoined.filter (fun j => !taken.contains j), joined := t.joined ++ taken.map (fun j => (o.ref, j)) }
      let s : State := taken.foldl (fun s j => s.modOp j.op (fun x => { x with added := ks })) s
      let s := if taken.isEmpty then s else (s.wait (pageTe c.val + 0x44)).wait (pageMe inst + 0x64)
      let s := s.modMe inst (fun m => { m with passes := m.passes ++ mxPasses o })
      (taken.filter (fun j => j.parity)).foldl (fun s j => s.joinParity c o.ref j) s)

def execMatrixOperation (q : QueueId) (d : Desc) (s : State) : Host.Outcome State Fault Refusal :=
  .next (s.matrixIssue (.matrixOperation q d))

/-! ## Residues (R125, R126) -/

/-- ρ of a finite value; values without a residue count 0. -/
def residue : Val → Nat
  | .num n m e => let r := m % 127 * 2 ^ (e % 7).toNat % 127; if n then (127 - r) % 127 else r
  | _ => 0

/-! ## The bank's block -/

/-- Element (k, n) of a block held in a bank. -/
def Bank.elem (b : Bank) (k n : Nat) : Val :=
  match b with
  | .empty => Val.zero
  | .block _ fc plank rows scales _ _ =>
    let f := fmtOf fc
    let v := f.decode (field (rows.getD k 0) (f.bits * (n + 1) - 1) (f.bits * n))
    if isPlanked fc then scaled v (field (scales.getD (k / plank) 0) (8 * n + 7) (8 * n)) else v

/-- Zero the summed positions at or beyond KLAST of the last segment (R122): rows, or stored columns of a transposed pass. -/
def cutRow (f : Fmt) (trans : Bool) (klast k row : Nat) : Nat :=
  if trans then row % 2 ^ (f.bits * klast) else if k < klast then row else 0

/-- A block with its check column and check row over the cells that are live (R126). -/
def Bank.checked (pairing fc plank n : Nat) (rows scales : List Nat) (live : Nat → Nat → Bool) : Bank :=
  let b := Bank.block pairing fc plank rows scales [] []
  let rho := fun k m => if live k m then residue (b.elem k m) else 0
  let check := (List.range 512).map (fun k => sumNat ((List.range n).map (rho k)) % 127)
  let per := n / 512
  let checkRow := (List.range 512).map (fun c => sumNat ((List.range 512).map (fun k => sumNat ((List.range per).map (fun h => rho k (c * per + h))))) % 127)
  Bank.block pairing fc plank rows scales check checkRow

/-- Load a block from memory into a bank, with the check column and check row (R126). -/
def State.loadBlock (s : State) (core : Nat) (d : Desc) (j : Nat) : Bank :=
  let f := fmtOf (mxWFmt d)
  let key := mxWKey core d j
  let rb := mxWRowBytes d
  let n := mxWidth d
  let plank := plankSize (mxWPlank d)
  let klast := if j = mxSegsM1 d then mxKlast d else 512
  let trans := decide (mxTrans d = 1)
  let rows := (List.range 512).map (fun k => cutRow f trans klast k (s.nat (key + k * rb) rb))
  let scales := if isPlanked (mxWFmt d) then (List.range (512 / plank)).map (fun p => s.nat (key + 512 * rb + p * n) n) else []
  Bank.checked (mxPairing d) (mxWFmt d) plank n rows scales (fun k m => if trans then decide (m < klast) else decide (k < klast))

/-! ## Segment sums (R85 to R87) -/

/-- The exact or truncated sum of a segment's products. -/
def segmentSum (exact : Bool) (ps : List Val) : Val :=
  if ps.any Val.isNan then .nan
  else
    let infs := ps.filter (fun p => !p.isFinite)
    match infs with
    | x :: rest => if rest.all (fun y => decide (y.isNeg = x.isNeg)) then x else .nan
    | [] =>
      if exact then plusZero (Val.sum ps)
      else
        let nz := ps.filter (fun p => !p.isZero)
        match nz with
        | [] => Val.zero
        | p :: rest =>
          let e := rest.foldl (fun e x => max e x.log2) p.log2
          let u := e - 46
          let t := nz.foldl (fun (acc : Int) x => match x with
            | .num n m xe => acc + signed n (inSteps m xe u).1
            | _ => acc) 0
          plusZero (Val.ofInt t u)

/-- The streaming row of a segment, with its scales applied. -/
def State.streamRow (s : State) (core : Nat) (d : Desc) (j row klast : Nat) : List Val :=
  let f := fmtOf (mxXFmt d)
  let base := spKey core (mxXRange d j).1
  let rb := mxXRowBytes d
  let plank := plankSize (mxXPlank d)
  (List.range klast).map (fun k =>
    let v := f.decode (elemAt s.mem (base + row * rb) f.bits k)
    if isPlanked (mxXFmt d) then
      scaled v (memByte s.mem (base + alignUp128 (mxRows d * rb) + row * (512 / plank) + k / plank)).toNat
    else v)

/-- The result row of one vector: one segment sum for each output column. -/
def resultRow (d : Desc) (b : Bank) (xs : List Val) : List Val :=
  let exact := isPlanked (mxXFmt d) && isPlanked (mxWFmt d)
  if mxTrans d = 1 then (List.range 512).map (fun k => segmentSum exact (xs.mapIdx (fun n x => x.mul (b.elem k n))))
  else (List.range (mxWidth d)).map (fun n => segmentSum exact (xs.mapIdx (fun k x => x.mul (b.elem k n))))

/-! ## VECTOR_ENTRY (R109 to R115) -/

def Me.bank (m : Me) (b : Fin 2) : Bank := if b = 0 then m.bank0 else m.bank1

def Me.setBank (m : Me) (b : Fin 2) (x : Bank) : Me := if b = 0 then { m with bank0 := x } else { m with bank1 := x }

def Me.lastRead (m : Me) (b : Fin 2) : Nat := if b = 0 then m.lastRead0 else m.lastRead1

def Me.stagedAt (m : Me) (b : Fin 2) : Nat := if b = 0 then m.staged0 else m.staged1

def Me.rowsDone (m : Me) (b : Fin 2) : Nat := if b = 0 then m.rows0 else m.rows1

def Me.lastWrite (m : Me) (b : Fin 2) : Nat := if b = 0 then m.lastWrite0 else m.lastWrite1

/-- Operations in progress on an engine (R111). -/
def State.inProgress (s : State) (inst : Nat) : Nat :=
  (s.ops.filter (fun o => decide (hdClass o.desc = 0) && decide (o.stage = .inflight ∨ o.stage = .stored) && decide (hdEngine o.desc = inst % 2)
    && decide ((s.coreOf o).map (·.val) = some (inst / 2)) && (s.me inst).entered o.ref)).length

/-- Earliest cycle by the entry edge alone. -/
def Me.edge (m : Me) : Nat := if m.lastEntry = 0 then 0 else m.lastEntry - 1 + m.lastInterval

/-- Earliest cycle by the earlier reader of the bank: u + 513. -/
def Me.bankTerm (m : Me) (p : Pass) : Nat := if p.loads && decide (m.lastRead p.bank ≠ 0) then m.lastRead p.bank - 1 + 513 else 0

/-- Earliest cycle by the load: the cycle after the first row write, and after the last for FP32 and transposed passes. -/
def Me.loadTerm (m : Me) (p : Pass) : Nat :=
  if !p.loads then 0 else if p.fp32 || p.trans then max (m.stagedAt p.bank) (m.lastWrite p.bank) else m.stagedAt p.bank

/-- May the pass's next vector enter in a cycle (R111, R114, R119)? -/
def State.mayEnter (s : State) (c : CoreId) (inst : Nat) (p : Pass) (cycle dataCycle : Nat) : Bool :=
  let m := s.me inst
  let first := decide (p.left = p.total)
  decide (m.edge ≤ cycle) && decide (dataCycle ≤ cycle) &&
    (!first || (decide (m.bankTerm p ≤ cycle) && decide (m.loadTerm p ≤ cycle)
      && (!p.loads || decide (m.stagedAt p.bank ≠ 0)) && (!(p.loads && (p.fp32 || p.trans)) || decide (m.rowsDone p.bank = 512))
      && (decide (p.seg ≠ 0) || (decide (s.inProgress inst < 8) && !(s.cell c).quarantining))))

/-- Count the cycles by which a first vector enters late (R115). -/
def State.countStalls (s : State) (inst : Nat) (p : Pass) (dataCycle : Nat) : State :=
  let m := s.me inst
  let t := m.edge
  let b := m.bankTerm p
  let l := m.loadTerm p
  let s := if t < max b l then s.count (pageMe inst + (if l ≤ b then 0x50 else 0x54)) (max b l - t) else s
  let ready := max t (max b l)
  if ready < dataCycle then s.count (pageMe inst + 0x4C) (dataCycle - ready) else s

/-- The engine after a vector of its head pass has entered. -/
def Me.enter (m : Me) (p : Pass) (cycle : Nat) : Me :=
  let m := { m with lastEntry := cycle + 1, lastInterval := p.interval }
  let m := if p.bank = 0 then { m with lastRead0 := cycle + 1 } else { m with lastRead1 := cycle + 1 }
  let m := if p.loads && decide (p.left = p.total) then (if p.bank = 0 then { m with staged0 := 0 } else { m with staged1 := 0 }) else m
  { m with passes := match m.passes with
    | q :: rest => if q.left ≤ 1 then rest else { q with left := q.left - 1 } :: rest
    | [] => [] }

/-- A parity error on a matrix operation (R129). -/
def State.matrixParity (s : State) (c : CoreId) (inst : Nat) (o : Op) : State :=
  let plan := s.discardPlan (o.added.map (fun k => s.contentsOf k o.ref))
  let s := (s.forgetWork c.val o.ref none).fail o 0x0F
  let s := (s.count (pageMe inst + 0x70)).discardBy plan
  s.orderQuarantine c 2

/-- One vector enters: its result row reaches its slot; the load pass's block stands in its bank. -/
def State.enterVector (s : State) (c : CoreId) (inst : Nat) (p : Pass) (o : Op) (cycle : Nat) (mismatch : Bool) : State :=
  let d := o.desc
  let row := p.total - p.left
  let s := if p.loads ∧ p.left = p.total then s.modMe inst (fun m => m.setBank p.bank (s.loadBlock c.val d p.seg)) else s
  let klast := if p.seg = mxSegsM1 d then mxKlast d else 512
  let b := (s.me inst).bank p.bank
  let xs := s.streamRow c.val d p.seg row klast
  let sums := resultRow d b xs
  let checked := sums.all Val.isFinite
  let bad := mismatch && checked
  let s := (s.modMe inst (fun m => m.enter p cycle)).count (pageMe inst + 0x78)
  let s := if bad then s.count (pageMe inst + 0x68) else s
  let parts := chunks 512 sums
  let base := mxTile d + row / 64 * mxPerGroup d
  let s := (parts.mapIdx (fun h v => (base + h, v))).foldl (fun s x =>
    s.arrive inst x.1 d { op := o.ref, seg := p.seg, row := row, sums := x.2, mismatch := bad }) s
  s.settle inst

/-- VECTOR_ENTRY: the engine's next vector enters in the cycle named, where R114 allows it; otherwise nothing enters. -/
def execVectorEntry (core : CoreId) (me : Fin 2) (cycle dataCycle : Nat) (err : RunErr) (s : State) : Host.Outcome State Fault Refusal :=
  let inst := meInst core.val me.val
  match (s.me inst).passes with
  | [] => .next s
  | p :: _ =>
    match s.op? p.op with
    | none => .next s
    | some o =>
      if !s.mayEnter core inst p cycle dataCycle then .next s
      else if err = .parity then .next (s.matrixParity core inst o)
      else
        let s := if p.left = p.total then s.countStalls inst p dataCycle else s
        .next (s.enterVector core inst p o cycle (decide (err = .mismatch) || decide (err = .second)))

/-! ## STATIONARY_ROW_WRITE (R113) -/

/-- The pass whose block the loader writes into a bank now: the first that loads it, with no earlier pass that still reads it. -/
def Me.loadingPass (m : Me) (b : Fin 2) : Option Pass :=
  match m.passes.find? (fun p => decide (p.bank = b)) with
  | some p => if p.loads && decide (p.left = p.total) then some p else none
  | none => none

/-- May row `row` be written in a cycle: rows ascend; row k of a block lands at max(u + k + 512, T + k), one row a cycle, an FP32
block's no faster than that? -/
def Me.mayWrite (m : Me) (b : Fin 2) (row cycle : Nat) : Bool :=
  if row = 0 then
    decide (m.stagedAt b = 0) && (decide (m.rowsDone b = 0) || decide (m.rowsDone b = 512)) &&
      match m.loadingPass b with
      | some _ => decide (m.lastRead b = 0) || decide (m.lastRead b - 1 + 512 ≤ cycle)
      | none => false
  else
    decide (m.rowsDone b = row) && decide (row < 512) &&
      (let fp32 := match m.passes.find? (fun p => decide (p.bank = b)) with
        | some p => p.fp32
        | none => false
       if fp32 then decide (m.lastWrite b ≤ cycle) else decide (m.lastWrite b = cycle))

def Me.writeRow (m : Me) (b : Fin 2) (row cycle : Nat) : Me :=
  if b = 0 then { m with staged0 := if row = 0 then cycle + 1 else m.staged0, rows0 := row + 1, lastWrite0 := cycle + 1 }
  else { m with staged1 := if row = 0 then cycle + 1 else m.staged1, rows1 := row + 1, lastWrite1 := cycle + 1 }

def execStationaryRowWrite (core : CoreId) (me : Fin 2) (bank : Fin 2) (row : Fin 512) (cycle : Nat) (parity : Bool) (s : State) :
    Host.Outcome State Fault Refusal :=
  let inst := meInst core.val me.val
  let m := s.me inst
  if !m.mayWrite bank row.val cycle then .next s
  else if parity then
    match (m.passes.find? (fun p => decide (p.bank = bank) && p.loads)).bind (fun p => s.op? p.op) with
    | some o => .next (s.matrixParity core inst o)
    | none => .next (((s.modMe inst (fun m => m.setBank bank .empty)).count (pageMe inst + 0x70)).orderQuarantine core 2)
  else .next (s.modMe inst (fun m => m.writeRow bank row.val cycle))

/-! ## CLOSE (R128, R134) -/

/-- Write a ready slot and free it; its closing operation and the holds of all that added to it move on. -/
def State.closeSlot (s : State) (c : CoreId) (inst slot : Nat) (o : Op) : State :=
  let d := o.desc
  let x := (s.me inst).slot slot
  let (r0, c0) := mxOrigin d slot
  let rows := (x.vals.take (mxRows d - r0)).map (fun r => r.map val24)
  let s := s.writeTile o.fn c.val (matrixRoot d) o.entry (slot - mxTile d) r0 c0 rows
  ((s.slotClosed inst slot).freeSlot inst slot).settle inst

/-- CLOSE: the close unit serves the slot that became ready first. A slot with a recorded mismatch is recomputed; a second
mismatch completes the operation with CHECK, discards its slots and orders the core's quarantine. -/
def execClose (core : CoreId) (me : Fin 2) (slot : Fin 32) (second : Bool) (s : State) : Host.Outcome State Fault Refusal :=
  let inst := meInst core.val me.val
  let m := s.me inst
  let x := m.slot slot.val
  match m.ready, x.closer.bind (fun r => s.op? r) with
  | k :: _, some o =>
    if k ≠ slot.val then .next s
    else if !x.mismatch then .next (s.closeSlot core inst slot.val o)
    else
      let s := (s.count (pageMe inst + 0x6C)).raise (pageMe inst) 0
      let s := s.logEvent 0x2041 (some o.fn) inst (some core) (slot.val + hdOpId o.desc * 2 ^ 16 + o.queue.val * 2 ^ 32) o.fn.val
      if second then
        let plan := s.discardPlan (((inst, slot.val) :: o.slots).map (fun k => s.contentsOf k o.ref))
        let s := s.count (pageMe inst + 0x68)
        .next (((((s.forgetWork core.val o.ref none).fail o 0x10)).discardBy plan).orderQuarantine core 1)
      else .next (s.closeSlot core inst slot.val o)
  | _, _ => .next s

end Sys2Proof.Machine
end

