-- ==== Sys2Proof/Machine/Tenon.lean ====
section
/-! DEFINITION. The tenon engine (R151 to R176): group tables, the checks of Table 6-5, the modes of Table 6-3, and the join
timeout. -/

namespace Sys2Proof.Machine

/-! ## Groups (R155, R156) -/

/-- A group: its index, context, first batch row, rows, the reserved bits of its entry, and its context's descriptor. -/
structure Group where
  idx : Nat
  ctx : Nat
  first : Nat
  rows : Nat
  reserved : Nat
  desc : BitVec 1024
  deriving DecidableEq, Repr

/-- The group table of an operation. -/
def State.groups (s : State) (core : Nat) (d : Desc) : List Group :=
  (List.range (tnGroupsM1 d + 1)).map (fun i =>
    let e := s.nat (spKey core (tnGtAddr d + 8 * i)) 8
    { idx := i, ctx := field e 15 0, first := field e 28 16, rows := field e 41 29 + 1, reserved := field e 63 42, desc := s.ctx (field e 15 0) })

/-- Are the entries in order, without overlap, within the batch and within the covered rows? -/
def groupsBad (d : Desc) (gs : List Group) : Bool :=
  let f := (gs.head?.map (·.first)).getD 0
  gs.any (fun g => decide (g.reserved ≠ 0) || decide (8192 < g.first + g.rows) || decide (f + tnRowsM1 d + 1 < g.first + g.rows))
    || (gs.zip (gs.drop 1)).any (fun p => decide (p.2.first < p.1.first + p.1.rows))

/-- Modes that Table 6-3 marks as training modes. -/
def tnTraining (d : Desc) : Bool := decide (2 ≤ tnMode d)

/-- Modes that read slices. -/
def tnReads (d : Desc) : Bool := decide (tnMode d ≤ 3)

/-- The frame generation a group's context must have: that of the queue's open pass, else the frame's (R254). -/
def State.passGen (s : State) (q : QueueId) (frame : Nat) : Nat :=
  match (s.queue q.val).pass with
  | some (fr, gen, _) => if fr = frame then gen else frGen (s.frame frame).record
  | none => frGen (s.frame frame).record

/-- Does a group fail R156 or R254? -/
def State.groupBad (s : State) (o : Op) (g : Group) : Bool :=
  let d := o.desc
  decide (cxOwner g.desc ≠ o.fn.val) || decide (cxFrame g.desc ≠ tnFrame d)
    || decide (cxState g.desc ≠ if tnTraining d then 3 else 2)
    || (tnReads d && decide (decide (cxWFmt g.desc = 1) ≠ decide (tnWFmt d = 1)))
    || decide (cxFrameGen g.desc ≠ s.passGen o.queue (tnFrame d))

/-! ## Shapes -/

/-- Input class an operation works on: TARGET for DOWN, else the class of its target. -/
def tnClass (d : Desc) : Nat := if tnMode d = 0 then tnTarget d else keyClass (if tnTarget d = 6 then 8 else tnTarget d)

/-- Key of the operation's target. -/
def tnKey (d : Desc) : Nat := if tnTarget d = 6 then 8 + tnMortise d else tnTarget d

/-- Parts of a group's class, in packed order, each with its first packed column (R158). -/
def packCols : Nat → List TnPart → List (TnPart × Nat)
  | _, [] => []
  | c, p :: rest => (p, c) :: packCols (c + p.r) rest

def classParts (fr : FrameState) (d : Desc) (g : Group) : List (TnPart × Nat) :=
  packCols 0 ((cxParts fr g.desc (tnLayer d)).filter (fun p => decide (keyClass p.key = tnClass d)))

/-- Packed width of a group. -/
def packedWidth (fr : FrameState) (d : Desc) (g : Group) : Nat := sumNat ((classParts fr d g).map (fun p => p.1.r))

/-- The part of the operation's target, with its packed column. -/
def targetPart (fr : FrameState) (d : Desc) (g : Group) : Option (TnPart × Nat) :=
  (classParts fr d g).find? (fun p => decide (p.1.key = tnKey d))

/-- Elements of a row at U_ADDR: a packed U row, or a V row of the target's rank (log entry 31). DEDUCED. -/
def rowWidth (fr : FrameState) (d : Desc) (g : Group) : Nat :=
  if 2 ≤ tnMode d ∧ tnMode d ≤ 4 then ((targetPart fr d g).map (fun p => p.1.r)).getD 0 else packedWidth fr d g

/-- Elements of a streaming row at X_ADDR: K for X, N for G; the modes that sum along the row take the segments that KSEGS_M1
names (log entry 29). DEDUCED. -/
def xElems (fr : FrameState) (d : Desc) : Nat :=
  let key := if tnMode d = 0 then (match tnTarget d with | 1 => 3 | 2 => 4 | 3 => 5 | _ => 0) else tnTarget d
  let s := if key = 6 then (fr.width, fr.width) else targetShape fr key
  match tnMode d with
  | 0 => min s.1 (512 * (tnKsegsM1 d + 1))
  | 2 => min s.2 (512 * (tnKsegsM1 d + 1))
  | 4 => s.1
  | _ => s.2

/-- Does a mode read rows at X_ADDR? -/
def tnHasX (d : Desc) : Bool := decide (tnMode d = 0 ∨ tnMode d = 2 ∨ tnMode d = 4 ∨ tnMode d = 5)

/-- Rows from the first group's first row to the last row of a group. -/
def groupSpan (gs : List Group) : Nat :=
  let f := (gs.head?.map (·.first)).getD 0
  gs.foldl (fun n g => max n (g.first + g.rows - f)) 0

/-- Bytes at X_ADDR (R152, R161). -/
def xBytes (fr : FrameState) (d : Desc) (gs : List Group) : Nat :=
  let f := fmtOf (tnXFmt d)
  let n := xElems fr d
  let rows := tnRowsM1 d + 1
  let body := (groupSpan gs - 1) * tnXPitch d * 128 + rowBytes f n
  if isPlanked (tnXFmt d) then
    let p := plankSize (tnXPlank d)
    max body (rows * tnXPitch d * 128 + rows * ((n + p - 1) / p))
  else body

/-- Bytes at U_ADDR. -/
def uBytes (fr : FrameState) (d : Desc) (gs : List Group) : Nat :=
  let w := gs.foldl (fun n g => max n (rowWidth fr d g)) 0
  if w = 0 then 0 else (groupSpan gs - 1) * tnUPitch d * 128 + 2 * w

/-- Rank of the target in a group, 0 where its context has no slice for it. -/
def groupRank (fr : FrameState) (d : Desc) (g : Group) : Nat := ((targetPart fr d g).map (fun p => p.1.r)).getD 0

/-- Bytes of a row of 512 gradient elements. -/
def gradRow (d : Desc) : Nat := if tnWFmt d = 1 then 1024 else 512

/-- Bytes written at DST_ADDR. -/
def gradBytes (fr : FrameState) (d : Desc) (gs : List Group) : Nat :=
  if 4 ≤ tnMode d then gradRow d * sumNat (gs.map (groupRank fr d)) else 0

/-- Ranges of the scratchpad an operation reads, in the groups that pass. -/
def tnReadRanges (fr : FrameState) (d : Desc) (gs ok : List Group) : List (Nat × Nat) :=
  [(tnGtAddr d, 8 * gs.length)]
  ++ (if tnHasX d then [(tnXAddr d, xBytes fr d ok)] else [])
  ++ (if tnMode d = 1 ∨ 3 ≤ tnMode d then [(tnUAddr d, uBytes fr d ok)] else [])
  ++ (if tnMode d = 1 ∧ tnGated d = 1 ∧ tnTarget d = 6 then
        [(tnAuxAddr d, ok.foldl (fun n g => max n ((g.first + g.rows) * 128)) 0)] else [])

/-- Ranges of its results. -/
def tnOutRanges (fr : FrameState) (d : Desc) (ok : List Group) : List (Nat × Nat) :=
  (if tnMode d = 0 ∨ tnMode d = 2 then [(tnUAddr d, uBytes fr d ok)] else [])
  ++ (if 4 ≤ tnMode d then [(tnDstAddr d, gradBytes fr d ok)] else [])

/-- Ranges it writes. -/
def tnWriteRanges (fr : FrameState) (d : Desc) (ok : List Group) : List (Nat × Nat) :=
  tnOutRanges fr d ok
  ++ (if tnSkipBad d = 1 then [(tnSkipAddr d, 64)] else [])

/-! ## Checks at issue (Table 6-5) -/

/-- Cause of the checks at issue, 0 when they pass (R496). -/
def State.tenonCause (s : State) (core : Nat) (o : Op) (gs : List Group) : Nat :=
  let d := o.desc
  let m := tnMode d
  let fr := s.frame (tnFrame d)
  let ok := gs.filter (fun g => !s.groupBad o g)
  let live := if tnSkipBad d = 1 then ok else gs
  let cause := lowestCause [
    (decide (5 < m) || decide (tnTarget d = 7) || (decide (m = 0) && decide (3 < tnTarget d))
      || (decide (tnTarget d = 6) && decide (m = 2 ∨ m = 3))
      || (fr.defined && decide (frLayers fr.record ≤ tnLayer d)), 0x20),
    (decide ((fmt? (tnXFmt d)).isNone) || decide (tnXFmt d = 0) || !decide (tnWFmt d = 1 ∨ tnWFmt d = 3 ∨ tnWFmt d = 4), 0x21),
    ([tnGtAddr d, tnXAddr d, tnUAddr d, tnAuxAddr d, tnSkipAddr d, tnDstAddr d].any (fun a => decide (a % 128 ≠ 0))
      || (tnReadRanges fr d gs live ++ tnWriteRanges fr d live).any (fun r => !spOk r.1 r.2), 0x22),
    (groupsBad d gs, 0x23),
    (decide (tnSkipBad d = 0) && gs.any (s.groupBad o), 0x24),
    (decide (m = 1 ∨ m = 3) && decide (tnJoin d = 0), 0x25),
    (live.any (fun g => decide (2048 < rowWidth fr d g) || decide (tnUPitch d * 64 < rowWidth fr d g)), 0x29),
    (decide (4 ≤ m) && live.any (fun g => let r := groupRank fr d g
        decide (0 < r) && decide (2 ^ 35 ≤ tnElemBase d + (r - 1) * tnRowPitch d + 511)), 0x2A),
    (decide (tnSat d = 3) || (decide (4 ≤ m) && decide (tnSat d = 2) && decide (tnWFmt d ≠ 1)), 0x2B)]
  if cause ≠ 0 then cause
  else if (tnWriteRanges fr d live).any (fun r => s.heldBy o.fn (some o.ref) (spKey core r.1) r.2) then 0x0E
  else 0

/-! ## The gather unit (R153, R167, R495) -/

/-- The slices a group needs. -/
def needed (fr : FrameState) (d : Desc) (g : Group) : List Slice :=
  if tnReads d then
    let ps := if tnMode d = 0 then (classParts fr d g).map (·.1) else ((targetPart fr d g).map (·.1)).toList
    ps.map (fun p => { ctx := g.ctx, layer := tnLayer d, key := p.key, addr := cxSliceAddr g.desc (tnLayer d) + p.off,
                       bytes := partBytes (cxWFmt g.desc) (cxPlank g.desc) p.k p.r p.n })
  else []

/-- Cause of the first page of a slice, in gather order, that cannot be read, or poison in it; 0 where it can be read. A slice
in the cache is not read from its tier. -/
def State.gatherCause (s : State) (f : FnId) (c : Slice) : Nat :=
  if s.sliceCached f c then 0
  else
    let pages := (pagesOf c.addr c.bytes).map (fun p =>
      let cause := if region (p * 65536) = .hole ∨ region (p * 65536) = .llm then 0x42 else s.pageCause f p false
      (decide (cause ≠ 0), cause))
    let first := firstCause pages
    if first ≠ 0 then first
    else if s.poison.any (fun b => overlaps (64 * b) 64 c.addr c.bytes) then 0x50
    else 0

/-- Does a slice's page have to be waited for (R205)? -/
def State.gatherWaits (s : State) (f : FnId) (c : Slice) : Bool :=
  !s.sliceCached f c && (pagesOf c.addr c.bytes).any (fun p => pgWaits (s.page p))

/-- Take a reference to a page. -/
def State.refPage (s : State) (p : Nat) : State := let e := s.page p; s.setPage p (withFld e 25 18 (min 255 (pgRef e + 1)))

/-- Take a reference to a context (R156). -/
def State.refCtx (s : State) (c : Nat) : State := let e := s.ctx c; s.setCtx c (withFld e 719 704 (cxRefs e + 1))

/-! ## Values (R159) -/

/-- te_sum of some products. -/
def teSum (exact : Bool) (seg : Nat) (ps : List Val) : Op24 :=
  (chunks seg ps).foldl (fun acc c => rne24 (plusZero ((val24 acc).add (segmentSum exact c)))) 0

/-- Streaming element (q, k) at X_ADDR, its plank scale applied; q counts from the first group's first row. -/
def State.xElem (s : State) (core : Nat) (fr : FrameState) (d : Desc) (q k : Nat) : Val :=
  let f := fmtOf (tnXFmt d)
  let base := spKey core (tnXAddr d)
  let v := f.decode (elemAt s.mem (base + q * tnXPitch d * 128) f.bits k)
  if isPlanked (tnXFmt d) then
    let p := plankSize (tnXPlank d)
    let run := (xElems fr d + p - 1) / p
    scaled v (memByte s.mem (base + (tnRowsM1 d + 1) * tnXPitch d * 128 + q * run + k / p)).toNat
  else v

/-- BF16 element of a row at U_ADDR. -/
def State.uElem (s : State) (core : Nat) (d : Desc) (q c : Nat) : Val :=
  bf16.decode (s.nat (spKey core (tnUAddr d + q * tnUPitch d * 128 + 2 * c)) 2)

/-- Element of A or B of a part of a group. -/
def State.aElem (s : State) (d : Desc) (g : Group) (p : TnPart) (k c : Nat) : Val :=
  sliceVal s.mem (cxSliceAddr g.desc (tnLayer d) + p.off) p.k p.r (tnWFmt d) (cxPlank g.desc) k c

def State.bElem (s : State) (d : Desc) (g : Group) (p : TnPart) (c n : Nat) : Val :=
  sliceVal s.mem (cxSliceAddr g.desc (tnLayer d) + p.off + partB (cxWFmt g.desc) (cxPlank g.desc) p.k p.r) p.r p.n (tnWFmt d)
    (cxPlank g.desc) c n

/-- Are both operands in exact formats (R87)? -/
def exactPair (d : Desc) : Bool := isPlanked (tnXFmt d) && isPlanked (tnWFmt d)

/-- One packed U row of a group (DOWN), as BF16 codes. -/
def State.downRow (s : State) (core : Nat) (fr : FrameState) (d : Desc) (g : Group) (q : Nat) : List Nat :=
  (classParts fr d g).flatMap (fun pc =>
    let p := pc.1
    (List.range p.r).map (fun c =>
      let t := teSum (exactPair d) 512 ((List.range (min p.k (xElems fr d))).map (fun k => (s.xElem core fr d q k).mul (s.aElem d g p k c)))
      let u := (bf16.rne (tnSat d) (val24 t)).code
      if tnAct d = 1 ∧ tnTarget d = 2 ∧ 8 ≤ p.key ∧ (bf16.decode u).lt Val.zero then 0 else u))

/-- One V row of a group (DOWN_T). -/
def State.downTRow (s : State) (core : Nat) (fr : FrameState) (d : Desc) (g : Group) (q : Nat) : List Nat :=
  match targetPart fr d g with
  | none => []
  | some (p, _) => (List.range p.r).map (fun c =>
      let t := teSum (exactPair d) 512 ((List.range (min p.n (xElems fr d))).map (fun n => (s.xElem core fr d q n).mul (s.bElem d g p c n)))
      (bf16.rne (tnSat d) (val24 t)).code)

/-- The contribution of one row in a block of 512 columns: rne24(gate × s × t). -/
def contribution (gate scale : Val) (t : Op24) : Op24 := rne24 (plusZero ((gate.mul scale).mul (val24 t)))

/-- The gate of a batch row: 1 unless the operation is gated (R171). -/
def State.gateOf (s : State) (core : Nat) (d : Desc) (row : Nat) : Val :=
  if tnGated d = 1 ∧ tnTarget d = 6 ∧ tnMode d = 1 then bf16.decode (s.nat (spKey core (tnAuxAddr d + row * 128 + 2 * tnMortise d)) 2)
  else .num false 1 0

/-- Contributions of a group to its rows (UP, UP_T): batch row and 512 values; a row whose gate is zero gets none. -/
def State.upRows (s : State) (core : Nat) (fr : FrameState) (d : Desc) (f0 : Nat) (g : Group) : List (Nat × List Op24) :=
  match targetPart fr d g with
  | none => []
  | some (p, col) =>
    let scale := bf16.decode (cxScale g.desc)
    let up := decide (tnMode d = 1)
    let off := if up then col else 0
    let width := if up then p.n else p.k
    let len := min p.r (64 * (tnKsegsM1 d + 1))
    (List.range g.rows).filterMap (fun j =>
      let row := g.first + j
      let gate := s.gateOf core d row
      if gate.isZero then none
      else
        let us := (List.range len).map (fun c => s.uElem core d (row - f0) (off + c))
        some (row, (List.range 512).map (fun i =>
          let n := 512 * tnBlock d + i
          if n < width then
            contribution gate scale (teSum false 64 (us.mapIdx (fun c u => u.mul (if up then s.bElem d g p c n else s.aElem d g p n c))))
          else 0)))

/-- A gradient block of a group (WGRAD_A, WGRAD_B): r rows of 512 stored codes. -/
def State.gradBlock (s : State) (core : Nat) (fr : FrameState) (d : Desc) (seed f0 : Nat) (g : Group) : List (List Nat) :=
  match targetPart fr d g with
  | none => []
  | some (p, col) =>
    let scale := bf16.decode (cxScale g.desc)
    let off := if tnMode d = 5 then col else 0
    let rows := min g.rows (512 * (tnKsegsM1 d + 1))
    (List.range p.r).map (fun c => (List.range 512).map (fun i =>
      let n := 512 * tnBlock d + i
      let v := if n < xElems fr d then
          contribution (.num false 1 0) scale (teSum false 512 ((List.range rows).map (fun j =>
            (s.xElem core fr d (g.first - f0 + j) n).mul (s.uElem core d (g.first - f0 + j) (off + c)))))
        else 0
      ((fmtOf (tnWFmt d)).sr (tnSat d) (random16 seed (tnStep d) (Nat.xor (tnRtid d) g.ctx) (tnElemBase d + c * tnRowPitch d + i)) (val24 v)).code))

/-! ## Issue -/

/-- The skip mask with the bits of some groups set (R156). -/
def State.markSkips (s : State) (core : Nat) (d : Desc) (idx : List Nat) : State :=
  let key := spKey core (tnSkipAddr d)
  if idx.isEmpty then s else s.writeNat key 64 (idx.foldl (fun m i => m ||| 2 ^ i) (s.nat key 64))

/-- Blocks of 512 × 64 or 64 × 512 that a group loads, one for the engine state. -/
def State.setBanks (s : State) (core : Nat) (ok : List Group) : State :=
  let ids := (ok.map (·.ctx)).reverse
  match ids with
  | [] => s
  | [a] => s.setTe core { s.te core with bank0 := some a }
  | a :: b :: _ => s.setTe core { s.te core with bank0 := some a, bank1 := some b }

/-- The first 64 result rows stand in the tenon tile. -/
def State.setTile (s : State) (core : Nat) (single : Bool) (rows : List (List Op24)) : State :=
  s.setTe core { s.te core with tile := rows.take 64, singleRow := single }

/-- Write the results of the modes that do not join. -/
def State.tenonWrite (s : State) (core : Nat) (o : Op) (fr : FrameState) (f0 : Nat) (ok : List Group) : State :=
  let d := o.desc
  let rowsOf := fun (g : Group) => (List.range g.rows).map (fun j => g.first + j - f0)
  match tnMode d with
  | 0 => s.writeAll (ok.flatMap (fun g => (rowsOf g).map (fun q =>
      (spKey core (tnUAddr d + q * tnUPitch d * 128), (s.downRow core fr d g q).flatMap (leBytes 2)))))
  | 2 => s.writeAll (ok.flatMap (fun g => (rowsOf g).map (fun q =>
      (spKey core (tnUAddr d + q * tnUPitch d * 128), (s.downTRow core fr d g q).flatMap (leBytes 2)))))
  | _ =>
    let blocks := ok.flatMap (s.gradBlock core fr d (s.fn o.fn).seed.toNat f0)
    s.write (spKey core (tnDstAddr d)) (blocks.flatMap (fun r => r.flatMap (leBytes (if tnWFmt d = 1 then 2 else 1))))

/-- What the join of an UP or UP_T operation carries; a mismatch struck one of its contributions, which one is open (R175, log entry
32). -/
def State.joinOf (s : State) (core : Nat) (o : Op) (fr : FrameState) (f0 : Nat) (ok : List Group) (pick : Option Nat) (parity : Bool) : TenonJoin :=
  let d := o.desc
  let rows := ok.flatMap (s.upRows core fr d f0)
  { op := o.ref, tag := tnJoin d, trans := decide (tnMode d = 3), block := tnBlock d, rowBase := 64 * tnRowBase d, firstRow := f0,
    rows := tnRowsM1 d + 1, mismatch := pick.bind (fun k => rows[k % rows.length]?.map (·.1)), parity := parity, contrib := rows }

/-- An operation that fails while it runs: what it had written is open; the core is quarantined (R175). -/
def State.tenonBreak (s : State) (c : CoreId) (o : Op) (fr : FrameState) (ok : List Group) (cause quar : Nat) : State :=
  let d := o.desc
  let s := (tnOutRanges fr d ok).foldl (fun s r => s.scramble (spKey c.val r.1) r.2) s
  (s.fail o cause).orderQuarantine c quar

/-- The operation runs on the groups that pass; a parity error on an UP or UP_T operation strikes now or once it is joined (log entry
112): references and holds, slices, values. -/
def State.tenonRun (s : State) (c : CoreId) (o : Op) (gs ok : List Group) (err : RunErr) : State :=
  let d := o.desc
  let fr := s.frame (tnFrame d)
  let f0 := (gs.head?.map (·.first)).getD 0
  let skips := (gs.filter (fun g => !ok.contains g)).map (·.idx)
  let slices := ok.flatMap (needed fr d)
  let pages := ((slices.filter (fun x => !s.sliceCached o.fn x)).flatMap (fun x => pagesOf x.addr x.bytes)).filter
    (fun p => decide (pgTier (s.page p) = 1 ∨ pgTier (s.page p) = 2))
  let s := s.markSkips c.val d skips
  let s : State := slices.foldl (fun s x => s.gatherSlice o.fn c.val (some o.ref) x) s
  let s : State := pages.foldl State.refPage s
  let s : State := (ok.map (·.ctx)).foldl State.refCtx s
  let o := { o with pages := pages, ctxs := ok.map (·.ctx), count := skips.length,
                    holds := (tnReadRanges fr d gs ok).map (fun r => (spKey c.val r.1, r.2)) }
  let s := (s.putOp o).setBanks c.val ok
  let single := gs.all (fun g => decide (g.rows = 1))
  let s := if single then s.count (pageTe c.val + 0x5C) else s
  let joins := decide (tnMode d = 1 ∨ tnMode d = 3)
  let checks := decide (err = .mismatch ∨ err = .second)
  let s := if checks then s.count (pageTe c.val + 0x60) else s
  let (k, s) := s.draw
  if err = .parity ∧ ¬ (joins ∧ k % 2 = 0) then (s.count (pageTe c.val + 0x68)).tenonBreak c o fr ok 0x2D 2
  else if joins then
    let j := s.joinOf c.val o fr f0 ok (if checks then some k else none) (decide (err = .parity))
    let t := s.te c.val
    (s.setTe c.val { t with unjoined := t.unjoined ++ [j] }).setTile c.val single (j.contrib.map (·.2))
  else
    let g := ok[k % ok.length]?
    let s := if checks then
        (s.count (pageTe c.val + 0x64)).logEvent 0x2081 (some o.fn) c.val (some c) ((g.map (·.idx)).getD 0 + hdOpId d * 2 ^ 16) ((g.map (·.ctx)).getD 0)
      else s
    if err = .second then (s.count (pageTe c.val + 0x60)).tenonBreak c o fr ok 0x2C 1
    else ((s.tenonWrite c.val o fr f0 ok).setTile c.val single []).modOp o.ref (fun x => { x with stage := .stored })

/-- The groups an operation works on after the gather, or the cause that ends it (R156, R495). -/
def State.gatherGroups (s : State) (o : Op) (gs : List Group) : List Group × Nat :=
  let d := o.desc
  let fr := s.frame (tnFrame d)
  let live := gs.filter (fun g => !s.groupBad o g)
  let causeOf := fun (g : Group) => firstCause ((needed fr d g).map (fun x => let c := s.gatherCause o.fn x; (decide (c ≠ 0), c)))
  if tnSkipBad d = 1 then (live.filter (fun g => decide (causeOf g = 0)), 0)
  else (live, firstCause (live.map (fun g => (decide (causeOf g ≠ 0), causeOf g))))

/-- Issue of a tenon operation (R161, R162): the checks; it waits for pages being filled and for a decision on a shadow epoch it
reads; then it runs. -/
def State.tenonIssue (s : State) (i : Instr) (err : RunErr) : State :=
  s.issueOnCore i (fun c o s =>
    let d := o.desc
    let gs := s.groups c.val d
    let cause := s.tenonCause c.val o gs
    if cause ≠ 0 then s.fail o cause
    else
      let r := s.gatherGroups o gs
      if r.2 ≠ 0 then s.fail o r.2
      else
        let slices := r.1.flatMap (needed (s.frame (tnFrame d)) d)
        if slices.any (s.gatherWaits o.fn) then (s.wait (pageMemf o.fn.val + 0x5C)).park i o
        else if s.stageWait o.fn ((tnReadRanges (s.frame (tnFrame d)) d gs r.1).map (fun x => (spKey c.val x.1, x.2))) then s.parkStage i o
        else if s.decideHold o.fn (slices.map (fun x => (x.addr, x.bytes))) then (s.wait (pageStepf o.fn.val + 0x6C)).park i o
        else s.tenonRun c o gs r.1 err)

def execDown (q : QueueId) (d : Desc) (err : RunErr) (s : State) : Host.Outcome State Fault Refusal :=
  .next (s.tenonIssue (.down q d err) err)

def execUp (q : QueueId) (d : Desc) (err : RunErr) (s : State) : Host.Outcome State Fault Refusal :=
  .next (s.tenonIssue (.up q d err) err)

def execDownT (q : QueueId) (d : Desc) (err : RunErr) (s : State) : Host.Outcome State Fault Refusal :=
  .next (s.tenonIssue (.downT q d err) err)

def execUpT (q : QueueId) (d : Desc) (err : RunErr) (s : State) : Host.Outcome State Fault Refusal :=
  .next (s.tenonIssue (.upT q d err) err)

def execWgradA (q : QueueId) (d : Desc) (err : RunErr) (s : State) : Host.Outcome State Fault Refusal :=
  .next (s.tenonIssue (.wgradA q d err) err)

def execWgradB (q : QueueId) (d : Desc) (err : RunErr) (s : State) : Host.Outcome State Fault Refusal :=
  .next (s.tenonIssue (.wgradB q d err) err)

/-- JOIN_TIMEOUT: an operation still unjoined completes with the cause of that name (R162). -/
def execJoinTimeout (q : QueueId) (opId : BitVec 16) (s : State) : Host.Outcome State Fault Refusal :=
  match s.ops.find? (fun o => o.named q opId && decide (o.stage = .inflight) && decide (hdClass o.desc = 2)) with
  | none => .next s
  | some o =>
    match s.coreOf o with
    | none => .next s
    | some c =>
      let t := s.te c.val
      if t.unjoined.any (fun j => decide (j.op = o.ref)) then .next ((s.setTe c.val (t.without o.ref)).fail o 0x28) else .next s

end Sys2Proof.Machine
end

