-- ==== Sys2Proof/Machine/Directory.lean ====
section
/-! DEFINITION. LLM partitions (R197, R198), the streaming window (R216, R217) and the tier directory (R202 to R209): the
control operations on them, a page that leaves its owner, its scrub, and the dies that apply directory changes. -/

namespace Sys2Proof.Machine

/-! ## What operations in flight touch -/

/-- Axes a shard gather or a reduce names: 0 T to 3 D, 4 D then X; none for a reserved code (Tables 12-3, 13-1). -/
def axesOf (code : Nat) : List Nat := if code ≤ 3 then [code] else if code = 4 then [3, 4] else []

/-- Packages of the cut that some axes name. -/
def cutSize (lenM1 : Nat) (axes : List Nat) : Nat := axes.foldl (fun n a => n * (coord lenM1 a + 1)) 1

/-- Length of an accumulator of a reduce: two bytes an element, rounded up (R305). -/
def rdAccBytes (d : Desc) : Nat := up128 (2 * (rdElemsM1 d + 1))

/-- Device ranges that a collective names besides what it holds. -/
def State.collRanges (s : State) (o : Op) : List (Nat × Nat) :=
  let d := o.desc
  match hdOp d with
  | 2 =>
    let n := 2 * (rdElemsM1 d + 1)
    (List.range (rdSrcsM1 d + 1)).map (fun j => (rdSrcAddr d + j * rdSrcStride d * 128, n)) ++ [(rdDstAddr d, n)]
      ++ (if rdThinM1 d = 0 then [] else [(rdAccAddr d, rdAccBytes d)])
  | 3 =>
    let n := (sgShardM1 d + 1) * 128
    (sgSrcAddr d, n) :: (if sgDstSp d = 1 then []
      else [(sgDstAddr d, n * cutSize (jmLenM1 (s.fn o.fn).job.map) (axesOf (sgAxes d)))])
  | 4 => if ssSrcSp d = 1 then [] else [(ssSrcAddr d, (ssBytesM1 d + 1) * 128)]
  | _ => []

/-- Device ranges that an operation in flight reads or writes, its held ranges among them. -/
def State.opRanges (s : State) (o : Op) : List (Nat × Nat) :=
  o.holds ++ (if hdClass o.desc = 3 then mvSrcDev o.desc ++ mvDstDev o.desc
    else if hdClass o.desc = 4 then s.collRanges o else [])

/-- Is an operation in flight: from issue until it retires? -/
def Op.flying (o : Op) : Bool := decide (o.stage = .inflight ∨ o.stage = .stored)

/-- Do operations in flight, or held ranges, touch an LLM partition? -/
def State.partTouched (s : State) (p : Nat) : Bool :=
  s.ops.any (fun o => o.flying && (s.opRanges o).any (fun r => overlaps r.1 r.2 (llmAddr p 0) (2 ^ 25)))
  || s.heldOps.any (fun h => h.ranges.any (fun r => overlaps r.1 r.2 (llmAddr p 0) (2 ^ 25)))

/-- Is a range in a partition held under R124? -/
def State.partHeld (s : State) (p : Nat) : Bool :=
  s.ops.any (fun o => o.holds.any (fun r => overlaps r.1 r.2 (llmAddr p 0) (2 ^ 25)))
  || s.heldOps.any (fun h => h.ranges.any (fun r => overlaps r.1 r.2 (llmAddr p 0) (2 ^ 25)))
  || allFns.any (fun f => (s.measuredKeys f).any (fun r => overlaps r.1 r.2 (llmAddr p 0) (2 ^ 25)))

/-- Does a tenon operation of a function run, whose slices its tenon cache may hold? -/
def State.tenonFlying (s : State) (f : FnId) : Bool :=
  s.ops.any (fun o => decide (o.fn = f) && decide (hdClass o.desc = 2) && o.flying)

/-! ## Writes of control operations -/

/-- Cause of a control operation's write to device memory, 0 when it may (R203, R321, R124, R199, R496). -/
def State.ctlWriteCause (s : State) (o : Op) (a n : Nat) : Nat :=
  let c := s.opAccess o a n true
  let cause := lowestCause [(decide (c ≠ 0), c), (s.epochSpan o.fn a n, 0x86)]
  if cause ≠ 0 then cause
  else if s.heldBy o.fn (some o.ref) (s.writeAddr o.fn a) n then 0x0E
  else if s.inDeviceHeld o.fn a n then 0x47
  else 0

/-- The write itself. -/
def State.ctlWrite (s : State) (o : Op) (a : Nat) (bs : List Byte) : State := s.writeDev (s.writeAddr o.fn a) bs

/-- Zero a range of device memory: nothing of it stays listed or poisoned, and nothing of it stays cached. -/
def State.zeroRange (s : State) (a n : Nat) : State :=
  { s with mem := s.mem.filter (fun c => !(decide (a ≤ c.1) && decide (c.1 < a + n))), poison := unpoison s.poison a n }.invalidate a n

/-! ## Partitions (R197, R198) -/

/-- Cached slices that still fit, most recent first. -/
def fitSlices : Nat → List Slice → List Slice
  | _, [] => []
  | cap, x :: xs => if x.bytes ≤ cap then x :: fitSlices (cap - x.bytes) xs else []

/-- Set a partition's mode: it is zero-filled; lines whose place changes and slices that no longer fit are dropped. -/
def State.setPartMode (s : State) (f : FnId) (p mode : Nat) : State :=
  let old := s.part p
  let t := (s.zeroRange (llmAddr p 0) (2 ^ 25)).setPart p { old with mode := mode }
  let t := t.modFn f (fun x => { x with
    lines := x.lines.filter (fun l => decide (s.linePart? f l = t.linePart? f l) && decide (s.linePart? f l ≠ some p)),
    slices := if old.mode = 3 ∨ mode = 3 then fitSlices ((t.partsIn f 3).length * 2 ^ 25) x.slices else x.slices })
  if old.mode = mode then t else t.raise (pageLlmp p) 0

/-- Is a partition busy for a change of its mode (R198)? -/
def State.partBusy (s : State) (f : FnId) (p : Nat) : Bool :=
  s.partTouched p || ((s.fn f).windowSlot? p).isSome || s.inDeviceHeld f (llmAddr p 0) (2 ^ 25)
    || (decide ((s.part p).mode = 3) && s.tenonFlying f)

def execConfigurePartition (q : QueueId) (d : Desc) (s : State) : Host.Outcome State Fault Refusal :=
  .next (s.issue (.configurePartition q d) (fun o s =>
    let p := fld d 133 128
    if !s.hasPart o.fn p then s.faultOp o 0x42
    else if s.partBusy o.fn p then s.faultOp o 0x49
    else (s.setPartMode o.fn p (fld d 135 134)).done o))

/-! ## The streaming window (R216, R217) -/

/-- An EMPTY slot. -/
def WSlot.empty (mask : Nat) : WSlot := { mask := mask, st := 0, layer := 0, lastSeen := false, faulted := [], late := false }

/-- Do two masks of a list share a partition? -/
def masksMeet : List Nat → Bool
  | [] => false
  | m :: ms => ms.any (fun x => decide (m &&& x ≠ 0)) || masksMeet ms

def swSlots (d : Desc) : Nat := fld d 131 128

/-- Masks of a set-window record. -/
def State.windowMasks (s : State) (o : Op) : List Nat :=
  (List.range (swSlots o.desc)).map (fun j => s.nat (s.readAddr o.fn (ctAddr o.desc) + 8 * j) 8)

/-- Cause of a set-window's checks (R216, R431). -/
def State.windowCause (s : State) (o : Op) : Nat :=
  let n := swSlots o.desc
  let masks := s.windowMasks o
  let rec1 := s.recordCause o (ctAddr o.desc) 64
  let parts := masks.flatMap (setBits 64)
  lowestCause [
    (decide (n = 1 ∨ 8 < n), 0xC0),
    (decide (rec1 ≠ 0), rec1),
    (parts.any (fun p => !s.hasPart o.fn p), 0x42),
    (parts.any (fun p => decide ((s.part p).mode ≠ 0)), 0x48),
    (masksMeet masks || (s.fn o.fn).window.any (fun w => decide (w.st = 1 ∨ w.st = 3)) || parts.any s.partHeld, 0x49)]

def execSetWindow (q : QueueId) (d : Desc) (s : State) : Host.Outcome State Fault Refusal :=
  .next (s.issue (.setWindow q d) (fun o s =>
    let c := s.windowCause o
    if c ≠ 0 then s.faultOp o c
    else
      let masks := s.windowMasks o
      (s.modFn o.fn (fun x => { x with window := masks.map WSlot.empty })).done o))

/-- Replace one slot's state. -/
def Fn.slotState (x : Fn) (j st : Nat) : Fn :=
  { x with window := x.window.mapIdx (fun i w => if i = j then { w with st := st } else w) }

def execRetireSlot (q : QueueId) (d : Desc) (s : State) : Host.Outcome State Fault Refusal :=
  .next (s.issue (.retireSlot q d) (fun o s =>
    let j := fld d 130 128
    match (s.fn o.fn).window[j]? with
    | none => s.faultOp o 0x4A
    | some w => if w.st ≠ 2 then s.faultOp o 0x4A else (s.modFn o.fn (fun x => x.slotState j 3)).done o))

/-- Does anything hold or read the partitions of a slot? -/
def State.slotInUse (s : State) (w : WSlot) : Bool := (setBits 64 w.mask).any s.partTouched

def execSlotDrained (f : FnId) (slot : Fin 8) (s : State) : Host.Outcome State Fault Refusal :=
  match (s.fn f).window[slot.val]? with
  | none => .next s
  | some w =>
    if w.st = 3 ∧ !s.slotInUse w then
      .next (s.modFn f (fun x => { x with window := x.window.mapIdx (fun i w => if i = slot.val then WSlot.empty w.mask else w) }))
    else .next s

/-! ## Directory operations (R204) -/

def drPages (d : Desc) : Nat := fld d 159 128

/-- Pages of the run. -/
def drRun (d : Desc) : List Nat := (List.range (drPages d)).map (· + ctAddr d / 65536)

/-- Is a companion page in a tiered aperture of a function? -/
def State.tieredPage (s : State) (f : FnId) (p : Nat) : Bool :=
  match s.aperture? f (p * 65536) with
  | some x => x.tiered
  | none => false

/-- Cause of the checks of the whole run but for the quota: addresses with an entry, then the function's tiered apertures, which
a read-directory of the management role does not need (R202). -/
def State.runCause (s : State) (o : Op) : Nat :=
  let a := ctAddr o.desc
  let n := drPages o.desc * 65536
  if n = 0 then 0xC0
  else if a % 65536 ≠ 0 ∨ !sameRegion a n ∨ region a = .llm then 0x40
  else if region a = .companion ∧ !(s.isMgmt o && decide (hdOp o.desc = 0x27)) ∧ !(drRun o.desc).all (s.tieredPage o.fn) then 0x42
  else 0

/-- Pages charged to a function: those with OWNER f that have not left it (R208, R206), by a test of the page number. -/
def State.charge (s : State) (f : FnId) (p : Nat → Bool) : Nat :=
  (s.dir.filter (fun x => p x.1 && decide (pgTier x.2 = 1 ∨ pgTier x.2 = 2) && decide (pgOwner x.2 = f.val) && !s.scrubs.contains x.1)).length

/-- Pages charged on a stack (Table 8-9, HBM_PAGES). -/
def State.hbmCharge (s : State) (f : FnId) (stack : Nat) : Nat := s.charge f (fun p => decide (stackOfPage p = some stack))

/-- Tiered companion pages charged (Table 8-9, COMP_PAGES). -/
def State.compCharge (s : State) (f : FnId) : Nat := s.charge f (fun p => decide (2 ^ 27 ≤ p))

/-- Granules of a mask. -/
def popcount (mask : Nat) : Nat := (setBits 64 mask).length

/-- Excess of a CLAIM in pages (R209, R334): the pages outside the function's granules, else the charge above the quota. -/
def State.quotaExcess (s : State) (f : FnId) (d : Desc) : Nat :=
  let n := drPages d
  match region (ctAddr d) with
  | .hbm st =>
    let g := (s.fn f).useGranules st
    let outside := ((drRun d).filter (fun p => !g.testBit (p % 2 ^ 20 / 16384))).length
    if outside ≠ 0 then outside else s.hbmCharge f st + n - 16384 * popcount g
  | _ => s.compCharge f + n - 16384 * (s.fn f).compQuota

/-- First page of a run that fails, with its lowest cause. -/
def firstBad (cause : Nat → Nat) : List Nat → Option (Nat × Nat)
  | [] => none
  | p :: ps => if cause p ≠ 0 then some (p, cause p) else firstBad cause ps

/-- Cause of a page for an operation on owned pages. -/
def State.ownedCause (s : State) (f : FnId) (releasing : Bool) (p : Nat) : Nat :=
  let e := s.page p
  if pgTier e = 0 ∨ pgTier e = 3 then 0x43
  else if pgOwner e ≠ f.val then 0x42
  else if releasing && decide (pgMove e = 2) then 0x44
  else 0

/-- Complete with the cause of the first page that fails, its device address in DETAIL. -/
def State.failPage (s : State) (o : Op) (x : Nat × Nat) : State := s.complete o 1 x.2 0 (packDetail [(64, x.1 * 65536)])

/-- Change the entries of some pages. -/
def State.mapPages (s : State) (ps : List Nat) (g : BitVec 64 → BitVec 64) : State :=
  ps.foldl (fun s p => s.setPage p (g (s.page p))) s

/-- The changes stand in line at the dies: the operation completes once they have been applied (R207). -/
def State.queueChanges (s : State) (o : Op) : State :=
  let ps := drRun o.desc
  { s with dirLag := s.dirLag ++ ps }.putOp { o with lag := ps }

/-- The entry of a claimed page. -/
def claimedEntry (f : FnId) (tier kgen : Nat) : BitVec 64 := BitVec.ofNat 64 (tier + f.val * 4 + (kgen % 2) * 2 ^ 9 + 0xFF * 2 ^ 10)

/-- Cause of a page for a CLAIM. -/
def State.claimCause (s : State) (p : Nat) : Nat := if pgTier (s.page p) ≠ 0 ∨ s.scrubs.contains p then 0x45 else 0

/-- A CLAIM beyond the quota (R209). -/
def State.refuseQuota (s : State) (o : Op) (excess : Nat) : State :=
  ((s.count (pageMemf o.fn.val + 0xC0)).raise (pageMemf o.fn.val) 1).complete o 1 0x46 0 (packDetail [(32, excess)])

def execClaim (q : QueueId) (d : Desc) (s : State) : Host.Outcome State Fault Refusal :=
  .next (s.issue (.claim q d) (fun o s =>
    let c := s.runCause o
    if c ≠ 0 then s.faultOp o c
    else if s.quotaExcess o.fn d ≠ 0 then s.refuseQuota o (s.quotaExcess o.fn d)
    else match firstBad s.claimCause (drRun d) with
      | some x => s.failPage o x
      | none =>
        let tier := if region (ctAddr d) = .companion then 2 else 1
        let kgen := (s.fn o.fn).sec.keyGen.toNat
        ((s.mapPages (drRun d) (fun _ => claimedEntry o.fn tier kgen)).zeroRange (ctAddr d) (drPages d * 65536)).queueChanges o))

def execShare (q : QueueId) (d : Desc) (s : State) : Host.Outcome State Fault Refusal :=
  .next (s.issue (.share q d) (fun o s =>
    let c := s.runCause o
    let frame := fld d 167 160
    if c ≠ 0 then s.faultOp o c
    else if frame = 0xFF then s.faultOp o 0xC0
    else match firstBad (s.ownedCause o.fn true) (drRun d) with
      | some x => s.failPage o x
      | none =>
        if (drRun d).any (fun p => pgWaits (s.page p)) then (s.wait (pageMemf o.fn.val + 0x5C)).park (.share q d) o
        else (s.mapPages (drRun d) (fun e => withFld (withFld e 8 8 1) 17 10 frame)).queueChanges o))

/-- Has an UNSHARE nothing left to wait for: its changes are applied and no page of its run is referenced? -/
def State.unshareReady (s : State) (o : Op) : Bool :=
  decide (hdClass o.desc = 6) && decide (hdOp o.desc = 0x25) && decide (o.stage = .inflight) && o.lag.isEmpty
    && (drRun o.desc).all (fun p => decide (pgRef (s.page p) = 0))

/-- UNSHAREs that have nothing left to wait for complete. -/
def State.finishUnshares (s : State) : State := (s.ops.filter s.unshareReady).foldl (fun s o => s.done o) s

def execUnshare (q : QueueId) (d : Desc) (s : State) : Host.Outcome State Fault Refusal :=
  .next (s.issue (.unshare q d) (fun o s =>
    let c := s.runCause o
    if c ≠ 0 then s.faultOp o c
    else match firstBad (s.ownedCause o.fn true) (drRun d) with
      | some x => s.failPage o x
      | none =>
        let s := if (drRun d).any (fun p => decide (pgRef (s.page p) ≠ 0)) then s.wait (pageMemf o.fn.val + 0x5C) else s
        (s.mapPages (drRun d) (fun e => withFld (withFld e 8 8 0) 17 10 0xFF)).queueChanges o))

def execRelease (q : QueueId) (d : Desc) (s : State) : Host.Outcome State Fault Refusal :=
  .next (s.issue (.release q d) (fun o s =>
    let c := s.runCause o
    if c ≠ 0 then s.faultOp o c
    else match firstBad (s.ownedCause o.fn true) (drRun d) with
      | some x => s.failPage o x
      | none =>
        if (drRun d).any (fun p => decide (pgMove (s.page p) = 3)) then (s.wait (pageMemf o.fn.val + 0x5C)).park (.release q d) o
        else (s.mapPages (drRun d) (fun e => withFld e 28 26 2)).queueChanges o))

/-- Entries of a run as bytes. -/
def State.entryBytes (s : State) (ps : List Nat) : List Byte := ps.flatMap (fun p => leBytes 8 (s.page p).toNat)

def execReadDirectory (q : QueueId) (d : Desc) (s : State) : Host.Outcome State Fault Refusal :=
  .next (s.issue (.readDirectory q d) (fun o s =>
    let c := s.runCause o
    let dst := fld d 235 192
    let n := 8 * drPages d
    if c ≠ 0 then s.faultOp o c
    else match (if s.isMgmt o then none else firstBad (s.ownedCause o.fn false) (drRun d)) with
      | some x => s.failPage o x
      | none =>
        let w := s.ctlWriteCause o dst n
        if w ≠ 0 then s.faultOp o w
        else if s.decideHold o.fn [(dst, n)] then (s.wait (pageStepf o.fn.val + 0x6C)).park (.readDirectory q d) o
        else (s.ctlWrite o dst (s.entryBytes (drRun d))).done o))

/-! ## Pages that leave (R206, R372) -/

/-- PAGE_LEAVES_OWNER: a RELEASING page whose REF is 0 is no longer charged; its scrub starts. -/
def execPageLeavesOwner (page : Nat) (s : State) : Host.Outcome State Fault Refusal :=
  let e := s.page page
  if pgMove e = 2 ∧ pgRef e = 0 ∧ !s.scrubs.contains page then .next { s with scrubs := s.scrubs ++ [page] } else .next s

/-- PAGE_SCRUB: zero-fill and read-back; the page is free once it has read back clean, and waits for its repair otherwise. -/
def execPageScrub (page : Nat) (clean : Bool) (s : State) : Host.Outcome State Fault Refusal :=
  if !s.scrubs.contains page then .next s
  else
    let s := s.zeroRange (page * 65536) 65536
    if clean then .next ({ s with scrubs := s.scrubs.filter (· ≠ page) }.setPage page dirReset) else .next s

/-! ## Changes at the dies (R202, R207) -/

/-- Memory-side die of a page. -/
def dieOfPage (p : Nat) : Nat :=
  match stackOfPage p with
  | some st => st / 6
  | none => p % 4

/-- Split the line of changes: the first n of one die, and what stays. -/
def takeChanges (die : Nat) : Nat → List Nat → List Nat × List Nat
  | _, [] => ([], [])
  | n, p :: ps =>
    if dieOfPage p = die ∧ n ≠ 0 then let r := takeChanges die (n - 1) ps; (p :: r.1, r.2)
    else let r := takeChanges die n ps; (r.1, p :: r.2)

/-- One applied change: the oldest operation that waits for it is a change nearer to its completion. -/
def dropLag (p : Nat) : List Op → List Op
  | [] => []
  | o :: os => if o.lag.contains p then { o with lag := o.lag.erase p } :: os else o :: dropLag p os

/-- Complete the operations that wait for nothing more. -/
def State.finishChanges (s : State) (waiting : List Op) : State :=
  (waiting.foldl (fun (s : State) o => match s.op? o.ref with
    | some x => if x.lag.isEmpty ∧ hdOp x.desc ≠ 0x25 then s.done x else s
    | none => s) s).finishUnshares

/-- DIRECTORY_CHANGE_APPLY: a die applies the changes of one microsecond, 2,048 at most, in order of arrival (log entry 38). -/
def execDirectoryChangeApply (die : DieId) (s : State) : Host.Outcome State Fault Refusal :=
  let r := takeChanges die.val 2048 s.dirLag
  let waiting := s.ops.filter (fun o => !o.lag.isEmpty)
  .next ({ s with dirLag := r.2, ops := r.1.foldl (fun os p => dropLag p os) s.ops }.finishChanges waiting)

end Sys2Proof.Machine
end

