-- ==== Sys2Proof/Machine/Health.lean ====
section
/-! DEFINITION. Control operations of the watch table (R177, R179, R188, R192, R193), and destinations that are device memory or
the scratchpad of a core (R431). -/

namespace Sys2Proof.Machine

/-! ## Destinations in device memory or in a scratchpad (R431, R196) -/

/-- Scratchpad offset in the low 24 bits of ADDR. -/
def ctOff (d : Desc) : Nat := fld d 87 64

/-- Write the result of a control operation to ADDR, or to the scratchpad of CORE, after the checks of the destination; `k` goes
on from the state written. -/
def State.deliver (s : State) (i : Instr) (o : Op) (toCore : Bool) (bs : List Byte) (k : State → State) : State :=
  let d := o.desc
  let n := bs.length
  if toCore then
    if ctAddr d / 2 ^ 24 ≠ 0 ∨ !spOk (ctOff d) n then s.faultOp o 0x40
    else
      match s.coreOf o with
      | none => s.complete o 4 0 0 0
      | some c =>
        if s.heldBy o.fn (some o.ref) (spKey c.val (ctOff d)) n then s.faultOp o 0x0E
        else k (s.write (spKey c.val (ctOff d)) bs)
  else
    let w := s.ctlWriteCause o (ctAddr d) n
    if w ≠ 0 then s.faultOp o w
    else if s.decideHold o.fn [(ctAddr d, n)] then (s.wait (pageStepf o.fn.val + 0x6C)).park i o
    else k (s.ctlWrite o (ctAddr d) bs)

/-! ## set-watch -/

def swPart (d : Desc) : Nat := fld d 69 64
def swOff (d : Desc) : Nat := fld d 94 70
def swCount (d : Desc) : Nat := fld d 107 95

/-- Does an operation name a watched tensor (R178)? -/
def Op.watched (o : Op) : Bool :=
  let d := o.desc
  match hdClass d with
  | 0 => decide (mxClose d = 1) && decide (mxWatchEn d = 1)
  | 1 => decide (veWatchEn d = 1)
  | 4 => decide (hdOp d = 1) && decide (trWatchEn d = 1)
  | _ => false

/-- Refuse an operation with a cause the manual does not name: a free value (log entry 39). -/
def State.refuseOpen (s : State) (o : Op) : State := let (c, s) := s.draw; s.complete o 1 (c % 256) 0 0

/-- Cause of a set-watch's checks: count and offset in range (R431), an owned partition in mode SCRATCH (R177). -/
def State.setWatchCause (s : State) (o : Op) : Nat :=
  let d := o.desc
  let p := s.part (swPart d)
  lowestCause [
    (decide (swCount d = 0) || decide (4096 < swCount d) || decide (swOff d % 128 ≠ 0) || decide (2 ^ 25 < swOff d + 128 * swCount d), 0xC0),
    (!s.hasPart o.fn (swPart d), 0x42),
    (decide (p.mode ≠ 0), 0x48)]

/-- Place a watch table: every entry at its reset values. -/
def State.placeWatch (s : State) (f : FnId) (part off n : Nat) : State :=
  let s := s.write (llmAddr part off) ((List.replicate n (leBytes 128 watchReset.toNat)).flatten)
  s.modFn f (fun x => { x with watch := some (part, off, n) })

def execSetWatch (q : QueueId) (d : Desc) (s : State) : Host.Outcome State Fault Refusal :=
  .next (s.issue (.setWatch q d) (fun o s =>
    let c := s.setWatchCause o
    if c ≠ 0 then s.faultOp o c
    else if s.ops.any (fun x => decide (x.fn = o.fn) && x.flying && x.watched) then s.refuseOpen o
    else (s.placeWatch o.fn (swPart d) (swOff d) (swCount d)).done o))

/-! ## Ranges of entries -/

/-- FIRST to FIRST + COUNT_M1 (Table 17-9). -/
def wtFirst (d : Desc) : Nat := fld d 139 128
def wtCount (d : Desc) : Nat := fld d 151 140 + 1
def wtIds (d : Desc) : List Nat := (List.range (wtCount d)).map (· + wtFirst d)

/-- Does the range leave the table (log entry 40)? DEDUCED. -/
def State.watchRangeBad (s : State) (o : Op) : Bool := ((s.fn o.fn).watchEntry? (wtFirst o.desc + wtCount o.desc - 1)).isNone

/-- Image i that ADDR names. -/
def State.watchImage (s : State) (o : Op) (i : Nat) : BitVec 1024 :=
  BitVec.ofNat 1024 (s.nat (s.readAddr o.fn (ctAddr o.desc) + 128 * i) 128)

/-- Is a reserved bit of an image set (Table 7-1, R431)? -/
def watchReserved (e : BitVec 1024) : Bool :=
  decide (fld e 279 279 ≠ 0) || decide (fld e 291 289 ≠ 0) || decide (fld e 319 314 ≠ 0) || decide (fld e 383 345 ≠ 0)
    || decide (fld e 1023 640 ≠ 0)

/-- Cause of an operation that takes images. -/
def State.imagesCause (s : State) (o : Op) : Nat :=
  let n := wtCount o.desc
  let r := s.recordCause o (ctAddr o.desc) (128 * n)
  lowestCause [(decide (r ≠ 0), r), (s.watchRangeBad o, 0x38),
    ((List.range n).any (fun i => watchReserved (s.watchImage o i)), 0xC0)]

/-- Change each entry of the range by its image. -/
def State.takeImages (s : State) (o : Op) (g : BitVec 1024 → BitVec 1024 → BitVec 1024) : State :=
  (List.range (wtCount o.desc)).foldl (fun t i => match (s.fn o.fn).watchEntry? (wtFirst o.desc + i) with
    | some a => t.watchWrite a (g (s.watchImage o i) (t.watchRead a))
    | none => t) s

/-- The RW fields of an image into an entry; enabling an entry loses its history (R190). -/
def writeEntry (image e : BitVec 1024) : BitVec 1024 :=
  let copy := fun (hi lo : Nat) (x : BitVec 1024) => withFld x hi lo (fld image hi lo)
  let x := copy 344 320 (copy 313 308 (copy 307 292 (copy 278 256 e)))
  if weEnable e = 0 ∧ weEnable image = 1 then loseHistory x else x

def execWriteWatch (q : QueueId) (d : Desc) (s : State) : Host.Outcome State Fault Refusal :=
  .next (s.issue (.writeWatch q d) (fun o s =>
    let c := s.imagesCause o
    if c ≠ 0 then s.faultOp o c else (s.takeImages o writeEntry).done o))

/-- Zero the RC fields of an entry (Table 7-1). -/
def clearEntry (e : BitVec 1024) : BitVec 1024 := withFld e 223 0 0

def execReadWatch (q : QueueId) (d : Desc) (s : State) : Host.Outcome State Fault Refusal :=
  .next (s.issue (.readWatch q d) (fun o s =>
    if s.watchRangeBad o then s.faultOp o 0x38
    else
      let bs := (wtIds d).flatMap (fun id => match (s.fn o.fn).watchEntry? id with
        | some a => s.bytes a 128
        | none => [])
      s.deliver (.readWatch q d) o (flag d 152) bs (fun s =>
        (if flag d 153 then s.mapWatch o.fn (wtIds d) clearEntry else s).done o)))

def execRollHistory (q : QueueId) (d : Desc) (s : State) : Host.Outcome State Fault Refusal :=
  .next (s.issue (.rollHistory q d) (fun o s =>
    if s.watchRangeBad o then s.faultOp o 0x38
    else (s.mapWatch o.fn (wtIds d) rollEntry).done o))

/-- HISTORY, HIST_PTR and HIST_N of an image into an entry, with BOOT_LEFT 0 (R192). -/
def loadEntry (image e : BitVec 1024) : BitVec 1024 :=
  withFld (withFld (withFld e 639 384 (weHistory image)) 288 280 (fld image 288 280)) 255 240 0

def execLoadHistory (q : QueueId) (d : Desc) (s : State) : Host.Outcome State Fault Refusal :=
  .next (s.issue (.loadHistory q d) (fun o s =>
    let c := s.imagesCause o
    if c ≠ 0 then s.faultOp o c
    else if (List.range (wtCount d)).any (fun i => decide (16 < weHistN (s.watchImage o i))) then s.faultOp o 0xC0
    else (s.takeImages o loadEntry).done o))

end Sys2Proof.Machine
end

