-- ==== Sys2Proof/Machine/Frames.lean ====
section
/-! DEFINITION. Frames: their definition and layer map (R242 to R244), their digest (R353, R354), their replacement in place and
the serving passes it goes by (R252, R253, R254). -/

namespace Sys2Proof.Machine

/-! ## Definition -/

/-- The runs of a layer: device address and pages (R243). -/
def State.layerRuns (s : State) (record : BitVec 512) (layer : Nat) : List (Nat × Nat) :=
  ((List.range 24).map (fun i => let e := s.nat (frLayerMap record + 192 * layer + 8 * i) 8; (field e 43 0, field e 63 44))).filter
    (fun r => decide (r.2 ≠ 0))

/-- Does a page belong to a function with TIER 1 or 2? -/
def State.ownsPage (s : State) (f p : Nat) : Bool :=
  let e := s.page p
  decide (pgTier e = 1 ∨ pgTier e = 2) && decide (pgOwner e = f)

/-- Does a whole range lie in populated memory and in owned pages (R249)? -/
def State.ownsRange (s : State) (f a n : Nat) : Bool :=
  decide (n = 0) || (sameRegion a n && decide (region a ≠ .llm) && (pagesOf a n).all (s.ownsPage f))

/-- May the layer map lie there: in a SCRATCH partition of the owner or in tiered companion pages of it (R243)? -/
def State.layerMapOk (s : State) (owner a n : Nat) : Bool :=
  sameRegion a n && (match region a with
    | .llm => (partsOf a n).all (fun p => decide ((s.part p).owner.map (·.val) = some owner) && decide ((s.part p).mode = 0))
    | .companion => (pagesOf a n).all (s.ownsPage owner)
    | _ => false)

/-- Is every run of a layer made of owned pages that are shared with the frame and IDLE (R243, R244)? -/
def State.runOk (s : State) (owner frame : Nat) (r : Nat × Nat) : Bool :=
  decide (r.1 % 65536 = 0) && s.ownsRange owner r.1 (r.2 * 65536) && (pagesOf r.1 (r.2 * 65536)).all (fun p =>
    let e := s.page p
    pgShared e && decide (pgFrame e = frame) && decide (pgMove e = 0))

/-- Are a frame's pages in place? -/
def State.framePlaced (s : State) (record : BitVec 512) : Bool :=
  s.layerMapOk (frOwner record) (frLayerMap record) (192 * frLayers record)
    && (List.range (frLayers record)).all (fun l => (s.layerRuns record l).all (s.runOk (frOwner record) (frFrameId record)))

/-- Reserved bits or values out of range in a frame record (Table 10-1, R431). -/
def frameRecordBad (r : BitVec 512) : Bool :=
  decide (fld r 47 33 ≠ 0) || decide (fld r 127 80 ≠ 0) || decide (fld r 287 272 ≠ 0) || decide (fld r 351 332 ≠ 0)
    || decide (fld r 511 358 ≠ 0) || decide (frFrameId r = 0xFF) || decide (frLayers r = 0) || flag r 63 || flag r 79

/-- Cause of a define-frame's checks on its record. -/
def State.defineCause (s : State) (r : BitVec 512) : Nat :=
  let st := (s.fn (fnId (frOwner r))).st
  let off := decide (st = .off) || decide (st = .scrubbing)
  lowestCause [
    (frameRecordBad r, 0xC0),
    ((s.frame (frFrameId r)).defined, 0x61),
    (off, 0x90),
    (!off && !s.framePlaced r, 0x5C)]

/-- The record a control operation copies from ADDR. -/
def State.record (s : State) (o : Op) (n : Nat) : Nat := s.nat (s.readAddr o.fn (ctAddr o.desc)) n

/-- Define a frame: generation 0, digest pending, no mortise held; its widths, which no record carries, are free values (log entry
4). -/
def State.defineFrame (s : State) (r : BitVec 512) : State :=
  let (width, s) := s.draw
  let (ff, s) := s.draw
  s.setFrame (frFrameId r) { FrameState.reset with
    defined := true, record := withFld r 31 16 0, width := width, ffWidth := ff, digestState := 1 }

def execDefineFrame (q : QueueId) (d : Desc) (s : State) : Host.Outcome State Fault Refusal :=
  .next (s.issue (.defineFrame q d) (fun o s =>
    let rc := s.recordCause o (ctAddr d) 64
    let r := BitVec.ofNat 512 (s.record o 64)
    if rc ≠ 0 then s.faultOp o rc
    else if s.defineCause r ≠ 0 then s.faultOp o (s.defineCause r)
    else (s.defineFrame r).done o))

/-! ## Digest (R353, R354) -/

/-- A layer's stored bytes. -/
def State.layerBytes (s : State) (record : BitVec 512) (layer : Nat) : List Byte :=
  (s.layerRuns record layer).flatMap (fun r => s.bytes r.1 (r.2 * 65536))

/-- The digest of a frame. -/
def State.frameHash (s : State) (record : BitVec 512) : Nat :=
  Config.shake256 ((List.range (frLayers record)).flatMap (fun l => leBytes 64 (Config.shake256 (s.layerBytes record l) 512))) 512
    % 2 ^ 512

def execFrameDigest (frame : BitVec 8) (s : State) : Host.Outcome State Fault Refusal :=
  let fr := s.frame frame.toNat
  if fr.defined ∧ fr.digestState = 1 then
    .next (s.setFrame frame.toNat { fr with digestState := 0, digest := s.frameHash fr.record })
  else .next s

/-- Frame a control operation names. -/
def ctFrame (d : Desc) : Nat := fld d 135 128

def execMeasureFrame (q : QueueId) (d : Desc) (s : State) : Host.Outcome State Fault Refusal :=
  .next (s.issue (.measureFrame q d) (fun o s =>
    let fr := s.frame (ctFrame d)
    if !fr.defined then s.faultOp o 0x5A
    else if frOwner fr.record ≠ o.fn.val then s.refuseOpen o
    else (s.setFrame (ctFrame d) { fr with digestState := 1 }).done o))

/-! ## Replacement (R253) -/

/-- Contexts of a frame, changed. -/
def State.mapFrameCtxs (s : State) (frame : Nat) (g : BitVec 1024 → BitVec 1024) : State :=
  { s with ctxs := s.ctxs.map (fun c => if cxFrame c.2 = frame then (c.1, g c.2) else c) }

/-- A configured or live context becomes stale. -/
def staleCtx (c : BitVec 1024) : BitVec 1024 := if cxState c = 1 ∨ cxState c = 2 then withFld c 34 32 4 else c

/-- The new generation begins: contexts an earlier replacement left behind become stale (R254). -/
def State.startReplace (s : State) (o : Op) (frame : Nat) : State :=
  let fr := s.frame frame
  let old := frGen fr.record
  let s := s.mapFrameCtxs frame (fun c => if cxFrameGen c ≠ old then staleCtx c else c)
  s.setFrame frame { fr with
    record := withFld fr.record 31 16 ((old + 1) % 65536),
    replace := some { op := o.ref, owner := o.fn, base := ctAddr o.desc, stride := fld o.desc 191 160 * 128, swapped := 0,
                      barrier := true, startBeat := s.beatNow, cut := [] } }

/-- Bytes of a layer's runs. -/
def State.layerSize (s : State) (record : BitVec 512) (layer : Nat) : Nat := sumNat ((s.layerRuns record layer).map (fun r => r.2 * 65536))

/-- Cause of a replace-frame's checks; its source is companion memory the owner may read. -/
def State.replaceCause (s : State) (o : Op) : Nat :=
  let d := o.desc
  let fr := s.frame (ctFrame d)
  let src := (List.range (frLayers fr.record)).map (fun l =>
    let c := s.accessCause o.fn (ctAddr d + l * fld d 191 160 * 128) (s.layerSize fr.record l) false
    (decide (c ≠ 0), c))
  lowestCause ([
    (decide (region (ctAddr d) ≠ .companion), 0xC0),
    (fr.replace.isSome, 0x5D),
    (s.ctxs.any (fun c => decide (cxFrame c.2 = ctFrame d) && decide (cxState c.2 = 3)), 0x5E)] ++ src)

def execReplaceFrame (q : QueueId) (d : Desc) (s : State) : Host.Outcome State Fault Refusal :=
  .next (s.issue (.replaceFrame q d) (fun o s =>
    let fr := s.frame (ctFrame d)
    if !fr.defined then s.faultOp o 0x5A
    else if frOwner fr.record ≠ o.fn.val then s.refuseOpen o
    else if s.replaceCause o ≠ 0 then s.faultOp o (s.replaceCause o)
    else s.startReplace o (ctFrame d)))

/-- Is a function under the cut policy for a replacement? -/
def State.cutNow (s : State) (r : Replace) (f : FnId) : Bool := (s.fn f).swapCut || r.cut.contains f

/-- Queues with an open sequence of a generation, of functions under the drain policy. -/
def State.drainOpen (s : State) (r : Replace) (frame gen : Nat) : Bool :=
  s.queues.any (fun x => decide (x.2.sequence = some (frame, gen)) && !s.cutNow r x.2.owner)

/-- Has every open pass of a generation passed a layer? -/
def State.passesBeyond (s : State) (frame gen layer : Nat) : Bool :=
  s.queues.all (fun x => match x.2.pass with
    | some (fr, g, cur) => !(decide (fr = frame) && decide (g = gen)) || decide (layer < cur)
    | none => true)

/-- May the swap of the next layer start (R253, step 2)? A page that is being re-placed is waited for. -/
def State.swapReady (s : State) (frame : Nat) (fr : FrameState) (r : Replace) : Bool :=
  let old := (frGen fr.record + 65535) % 65536
  s.passesBeyond frame old r.swapped && !(decide (r.swapped = 0) && s.drainOpen r frame old)
    && (s.layerRuns fr.record r.swapped).all (fun x => (pagesOf x.1 (x.2 * 65536)).all (fun p => decide (pgMove (s.page p) ≠ 3)))

/-- Write the runs of a layer from consecutive source bytes. -/
def State.swapRuns (s : State) : Nat → List (Nat × Nat) → State
  | _, [] => s
  | src, r :: rs => (((s.write r.1 (s.bytes src (r.2 * 65536))).invalidate r.1 (r.2 * 65536)).swapRuns (src + r.2 * 65536) rs)

/-- The end of a replacement: the contexts by the frame's policy, the digest anew, the barrier cleared, the operation complete. -/
def State.endReplace (s : State) (frame : Nat) (r : Replace) : State :=
  let fr := s.frame frame
  let s := if frCtxPolicy fr.record = 0 then s.mapFrameCtxs frame staleCtx else s
  let s := (s.setFrame frame { fr with replace := none, digestState := 1 }).raise pageCtxt 0
  match s.op? r.op with
  | some o => s.done o
  | none => s

/-- LAYER_SWAP: the swap of the next layer, once it may start; a wait counts in the owner's WIN_STALL. -/
def execLayerSwap (frame : BitVec 8) (s : State) : Host.Outcome State Fault Refusal :=
  let n := frame.toNat
  let fr := s.frame n
  match fr.replace with
  | none => .next s
  | some r =>
    if !s.swapReady n fr r then .next (s.waitRaise (pageMemf r.owner.val) 0x48 0)
    else
      let s := s.swapRuns (s.readAddr r.owner (r.base + r.swapped * r.stride)) (s.layerRuns fr.record r.swapped)
      let s := s.setFrame n { fr with replace := some { r with swapped := r.swapped + 1 } }
      if frLayers fr.record ≤ r.swapped + 1 then .next (s.endReplace n r) else .next s

/-- DRAIN_LIMIT_EXPIRY: old sequences of the function are still open DRAIN_LIMIT beats after a barrier. -/
def execDrainLimitExpiry (f : FnId) (s : State) : Host.Outcome State Fault Refusal :=
  .next { s with frames := s.frames.map (fun x =>
    match x.2.replace with
    | some r =>
      let old := (frGen x.2.record + 65535) % 65536
      let still := s.queues.any (fun y => decide (y.2.sequence = some (x.1, old)) && decide (y.2.owner = f))
      if r.startBeat + (s.fn f).drainLimit ≤ s.beatNow ∧ still ∧ !r.cut.contains f then
        (x.1, { x.2 with replace := some { r with cut := r.cut ++ [f] } })
      else x
    | none => x) }

/-! ## Passes (R252, R424) -/

/-- Generation a pass of a frame begins under, none while it is held behind the barrier (R253). -/
def State.beginGen (s : State) (f : FnId) (frame : Nat) (first : Bool) : Option Nat :=
  let fr := s.frame frame
  let gen := frGen fr.record
  match fr.replace with
  | none => some gen
  | some r =>
    if r.swapped ≠ 0 then some gen
    else if first || s.cutNow r f then none
    else some ((gen + 65535) % 65536)

/-- A queue with a pass begun on it. -/
def Queue.beginPass (x : Queue) (o : Op) (frame gen : Nat) : Queue :=
  let first := flag o.desc 136
  { x with
    pass := some (frame, gen, 0),
    sequence := if first then some (frame, gen) else x.sequence,
    request := if first then (if hdSclass o.desc = 0 then none else some (hdSclass o.desc - 1, o.readBeat, 0)) else x.request }

def execPassBegin (q : QueueId) (d : Desc) (s : State) : Host.Outcome State Fault Refusal :=
  .next (s.issue (.passBegin q d) (fun o s =>
    let fr := ctFrame d
    if !(s.frame fr).defined ∨ !s.bound o.fn fr then s.faultOp o 0x5A
    else if (s.queue q.val).pass.isSome then s.refuseOpen o
    else match s.beginGen o.fn fr (flag d 136) with
      | none => s.park (.passBegin q d) o
      | some gen => (s.setQueue q.val ((s.queue q.val).beginPass o fr gen)).done o))

/-- Beats by which a pass-end passed the deadline of its request: FIRST_DEADLINE from the stamp, STEP_DEADLINE more for each pass
after it (log entry 41); open where the class is not loaded. DEDUCED. -/
def State.overrun (s : State) (f : FnId) (req : Nat × Nat × Nat) : Nat × State :=
  let cls := SMap.get 0 (s.fn f).classes req.1
  if cls = 0 then s.draw
  else (s.beatNow - (req.2.1 + fld cls 95 64 + req.2.2 * fld cls 127 96), s)

/-- A queue with its pass ended. -/
def Queue.endPass (x : Queue) (last : Bool) : Queue :=
  { x with
    pass := none,
    sequence := if last then none else x.sequence,
    request := if last then none else x.request.map (fun r => (r.1, r.2.1, r.2.2 + 1)) }

def execPassEnd (q : QueueId) (d : Desc) (s : State) : Host.Outcome State Fault Refusal :=
  .next (s.issue (.passEnd q d) (fun o s =>
    let x := s.queue q.val
    if x.pass.map (·.1) ≠ some (ctFrame d) then s.refuseOpen o
    else
      let (late, s) : Nat × State := match x.request with
        | some r => s.overrun o.fn r
        | none => (0, s)
      (s.setQueue q.val (x.endPass (flag d 137))).complete o 0 0 0 (packDetail [(32, late)])))

def execSetSwapPolicy (q : QueueId) (d : Desc) (s : State) : Host.Outcome State Fault Refusal :=
  .next (s.issue (.setSwapPolicy q d) (fun o s =>
    let cut := flag d 128
    let limit := fld d 191 160
    if !cut ∧ limit = 0 then s.faultOp o 0xC0
    else (s.modFn o.fn (fun x => { x with swapCut := cut, drainLimit := limit })).done o))

end Sys2Proof.Machine
end

