-- ==== Sys2Proof/Machine/Plans.lean ====
section
/-! DEFINITION. Beat plans and serving classes: their records (Tables 2-3, 2-4, 2-9), admission (R47 to R56, R64, R65, R169), the
plan copies in the LLM (R199), and the seed and mode of a function (R84, R140). -/

namespace Sys2Proof.Machine

/-! ## Table 2-3: plan header -/

def phVersion {n : Nat} (d : BitVec n) : Nat := fld d 15 0
def phFunction {n : Nat} (d : BitVec n) : Nat := fld d 23 16
def phPlanId {n : Nat} (d : BitVec n) : Nat := fld d 47 32
def phEventsM1 {n : Nat} (d : BitVec n) : Nat := fld d 63 48
def phPeriodM1 {n : Nat} (d : BitVec n) : Nat := fld d 95 64
def phRepeats {n : Nat} (d : BitVec n) : Nat := fld d 127 96
def phStartBeat {n : Nat} (d : BitVec n) : Nat := fld d 191 128

/-! ## Table 2-4: event record -/

def evOffset {n : Nat} (d : BitVec n) : Nat := fld d 31 0
def evSlack {n : Nat} (d : BitVec n) : Nat := fld d 47 32
def evKind {n : Nat} (d : BitVec n) : Nat := fld d 55 48
def evDomain {n : Nat} (d : BitVec n) : Bool := flag d 56
def evHoldOk {n : Nat} (d : BitVec n) : Bool := flag d 57
def evSkipLate {n : Nat} (d : BitVec n) : Bool := flag d 58
def evDuration {n : Nat} (d : BitVec n) : Nat := fld d 79 64
def evLink {n : Nat} (d : BitVec n) : Nat := fld d 95 80
def evQueue {n : Nat} (d : BitVec n) : Nat := fld d 105 96
def evLinkNone {n : Nat} (d : BitVec n) : Bool := flag d 106
def evTag {n : Nat} (d : BitVec n) : Nat := fld d 127 112
def evArray {n : Nat} (d : BitVec n) : Nat := fld d 143 128
def evTenon {n : Nat} (d : BitVec n) : Nat := fld d 159 144
def evLlm {n : Nat} (d : BitVec n) : Nat := fld d 175 160
def evHbm {n : Nat} (d : BitVec n) : Nat := fld d 183 176
def evStacks {n : Nat} (d : BitVec n) : Nat := fld d 207 184
def evFab {n : Nat} (d : BitVec n) : Nat := fld d 215 208
def evPorts {n : Nat} (d : BitVec n) : Nat := fld d 227 216
def evDlk {n : Nat} (d : BitVec n) : Nat := fld d 235 228
def evPower {n : Nat} (d : BitVec n) : Nat := fld d 247 236

/-- Does an event release a beat-wait of its QUEUE (Table 2-5)? -/
def evReleases (e : BitVec 256) : Bool := decide (1 ≤ evKind e) && decide (evKind e ≤ 3)

def Plan.period (p : Plan) : Nat := phPeriodM1 p.header + 1

/-! ## Charges (R53, Table 2-6) -/

/-- Resources of Table 2-6: 0 matrix engines, 1 tenon engines, 2 LLM, 3 Darlek, 4 power, 8 + s HBM stack, 40 + p port. -/
def resources : List Nat := [0, 1, 2, 3, 4] ++ (List.range 24).map (8 + ·) ++ (List.range 12).map (40 + ·)

/-- Reason code of a resource (Table 2-7). -/
def resCode (r : Nat) : Nat :=
  if r ≤ 2 then 0x0A + r else if r = 3 then 0x0F else if r = 4 then 0x10 else if r < 40 then 0x0D else 0x0E

/-- Claim of an event on a resource. -/
def evClaim (e : BitVec 256) (r : Nat) : Nat :=
  match r with
  | 0 => evArray e
  | 1 => evTenon e
  | 2 => evLlm e
  | 3 => evDlk e
  | 4 => evPower e
  | _ => if r < 40 then (if (evStacks e).testBit (r - 8) then evHbm e else 0)
    else if (evPorts e).testBit (r - 40) then evFab e else 0

/-- Budget of a function on a resource, its shares taken from a record. -/
def Fn.budget (x : Fn) (r : Nat) : Nat :=
  match r with
  | 0 => 128 * x.cores
  | 1 => 64 * x.cores
  | 2 => x.llmShare
  | 3 => x.dlkShare
  | 4 => x.powerShare
  | _ => if r < 40 then (if x.granules (r - 8) = 0 then 0 else x.hbmShare (r - 8)) else x.fabShare (r - 40)

/-- Beats of an event's charge window. -/
def evSpan (e : BitVec 256) : Nat := evSlack e + evDuration e

/-- How often an event's charge window covers a plan beat of a period, what runs past the end charged from its start. -/
def evCovers (period beat : Nat) (e : BitVec 256) : Nat :=
  let n := evSpan e
  let since := (beat + period - evOffset e % period) % period
  n / period + (if since < n % period then 1 else 0)

/-- How often an active plan's window still covers a beat of the pending plan that starts when its period ends (R53, R52). -/
def evTail (period beat : Nat) (e : BitVec 256) : Nat :=
  let past := evOffset e + evSpan e - period
  (past - beat + period - 1) / period

/-- Claims of the loaded serving classes on a resource (R65). -/
def Fn.classClaims (x : Fn) (r : Nat) : Nat := sumNat (x.classes.map (fun c => Config.classClaim c.2 r))

/-- What is charged at a plan beat before the plan's own records: the classes, and an active plan's windows. -/
def Fn.charged (x : Fn) (before : Option Plan) (r beat : Nat) : Nat :=
  x.classClaims r + (match before with
    | some p => sumNat (p.events.map (fun e => evClaim e r * evTail p.period beat e))
    | none => 0)

/-- The first record that takes a sum above a budget, 0xFFFF_FFFF where it is above it already. -/
def firstOver (budget period r beat : Nat) : Nat → Nat → List (BitVec 256) → Nat
  | _, _, [] => 0xFFFFFFFF
  | i, sum, e :: es =>
    let sum := sum + evClaim e r * evCovers period beat e
    if budget < sum then i else firstOver budget period r beat (i + 1) sum es

/-- A failed check: plan beat, reason code, record index, excess. -/
abbrev Failing := Nat × Nat × Nat × Nat

/-- The budget check of one resource at one plan beat. -/
def Fn.overAt (x : Fn) (before : Option Plan) (period : Nat) (events : List (BitVec 256)) (r beat : Nat) : Option Failing :=
  let base := x.charged before r beat
  let sum := base + sumNat (events.map (fun e => evClaim e r * evCovers period beat e))
  let budget := x.budget r
  if budget < sum then
    some (beat, resCode r, (if budget < base then 0xFFFFFFFF else firstOver budget period r beat 0 base events), sum - budget)
  else none

/-- The sweep: a sum can first exceed its budget only where a window begins, or at the period's start. -/
def Fn.sweep (x : Fn) (before : Option Plan) (period : Nat) (events : List (BitVec 256)) : List Failing :=
  let beats := (0 :: events.map (fun e => evOffset e % period)).eraseDups
  beats.flatMap (fun b => resources.filterMap (fun r => x.overAt before period events r b))

/-! ## The header and the records (R48, R49, R54) -/

/-- A check that is tied to no beat. -/
def untied (code idx : Nat) : Failing := (0xFFFFFFFF, code, idx, 0)

/-- Checks of the header. -/
def State.headerFails (s : State) (f : FnId) (h : BitVec 512) : List Failing :=
  let x := s.fn f
  let pends := x.active.isSome
  (if phVersion h ≠ 1 ∨ phFunction h ≠ f.val ∨ fld h 31 24 ≠ 0 ∨ fld h 511 192 ≠ 0 ∨ (pends ∧ phStartBeat h ≠ 0)
    then [untied 0x01 0xFFFFFFFF] else [])
  ++ (if pends ∧ x.pendingPlan.isSome then [untied 0x13 0xFFFFFFFF] else [])
  ++ (if !s.beat.epochSet then [untied 0x14 0xFFFFFFFF]
    else if !pends ∧ phStartBeat h < s.beatNow + s.beat.lead then [untied 0x08 0xFFFFFFFF] else [])

/-- Is a record's LINK wrong (Table 2-7, LINK)? -/
def linkBad (events : List (BitVec 256)) (e : BitVec 256) : Bool :=
  if evLinkNone e then decide (evLink e ≠ 0) || decide (evKind e = 8)
  else match events[evLink e]? with
    | none => true
    | some t => (decide (evKind e = 8) && decide (evKind t ≠ 2)) || (decide (evKind e = 4) && decide (evKind t ≠ 8))

/-- Is a record malformed (Table 2-7, BAD_RECORD)? -/
def recordBad (e : BitVec 256) : Bool :=
  decide (evKind e = 0) || decide (0x0A < evKind e) || decide (evDuration e = 0) || (evHoldOk e && evSkipLate e)
    || decide (fld e 63 59 ≠ 0) || decide (fld e 111 107 ≠ 0) || decide (fld e 255 248 ≠ 0)
    || (decide (evKind e = 4) && !evDomain e) || ((decide (evKind e = 5) || decide (evKind e = 6)) && decide (16 < evTag e))

/-- The deadline checks of a record, tied to the DEADLINE's beat (R54). -/
def deadlineFails (events : List (BitVec 256)) (i : Nat) (e : BitVec 256) : List Failing :=
  if linkBad events e ∨ evLinkNone e then []
  else match events[evLink e]? with
    | none => []
    | some t =>
      if evKind e = 8 ∧ evOffset e < evOffset t + evSpan t then [(evOffset e, 0x11, i, 0)]
      else if evKind e = 4 ∧ evOffset e ≤ evOffset t then [(evOffset t, 0x11, i, 0)]
      else []

/-- Checks of one record. -/
def State.recordFails (s : State) (f : FnId) (period : Nat) (events : List (BitVec 256)) (i : Nat) (e : BitVec 256) : List Failing :=
  let x := s.fn f
  let before := if i = 0 then none else events[i - 1]?
  let fail := fun (b : Bool) (code : Nat) => if b then [untied code i] else []
  fail (recordBad e) 0x02
  ++ fail (match before with | some p => decide (evOffset e < evOffset p) | none => false) 0x03
  ++ fail (decide (period ≤ evOffset e)) 0x04
  ++ fail (linkBad events e) 0x05
  ++ fail (evReleases e && !(decide (x.queueFirst ≤ evQueue e) && decide (evQueue e < x.queueFirst + x.queueCount))) 0x06
  ++ fail (evHoldOk e && decide (evSlack e < s.beat.lead)) 0x09
  ++ deadlineFails events i e

/-! ## The device's copy (R47, R199) -/

/-- A function's lowest-numbered owned partition. -/
def State.lowestPart? (s : State) (f : FnId) : Option Nat := (List.range 64).find? (fun p => decide ((s.part p).owner = some f))

/-- Place a copy from the top of the partition downward, past the copies that are there (log entry 34). DESIGN CHOICE. -/
def placeCopy (others : List (Nat × Nat)) (top size : Nat) : Nat :=
  let ends := (top :: others.map (·.1)).filter (fun e => others.all (fun r => !overlaps r.1 r.2 (e - size) size))
  ends.foldl max size - size

/-- Where the copy of a plan goes, none without space. -/
def State.planSpace (s : State) (f : FnId) (size : Nat) : Option Nat :=
  let x := s.fn f
  match s.lowestPart? f with
  | none => none
  | some p =>
    let lo := llmAddr p 0
    let others := ([x.active, x.pendingPlan].filterMap id).map (fun q => (q.copy, q.bytes))
    let a := placeCopy (others.filter (fun r => decide (lo ≤ r.1) && decide (r.1 < lo + 2 ^ 25))) (lo + 2 ^ 25) size
    let held := s.ops.any (fun o => o.holds.any (fun r => overlaps r.1 r.2 a size))
      || s.heldOps.any (fun h => h.ranges.any (fun r => overlaps r.1 r.2 a size))
    if a < lo ∨ s.inDeviceHeld f a size ∨ (x.windowSlot? p).isSome ∨ held then none else some a

/-! ## load-plan -/

/-- Lexicographic order of failing checks: lowest beat, lowest reason code, lowest record. -/
def Failing.before (a b : Failing) : Bool :=
  decide (a.1 < b.1) || (decide (a.1 = b.1) && (decide (a.2.1 < b.2.1) || (decide (a.2.1 = b.2.1) && decide (a.2.2.1 < b.2.2.1))))

def firstFailing (xs : List Failing) : Option Failing :=
  xs.foldl (fun b x => match b with
    | none => some x
    | some y => if x.before y then some x else some y) none

/-- Every failing check of a load (R53 to R55). -/
def State.planFails (s : State) (f : FnId) (h : BitVec 512) (events : List (BitVec 256)) : List Failing :=
  let x := s.fn f
  let period := phPeriodM1 h + 1
  s.headerFails f h ++ events.zipIdx.flatMap (fun e => s.recordFails f period events e.2 e.1) ++ x.sweep x.active period events
    ++ (if (s.planSpace f (64 + 32 * events.length)).isNone then [untied 0x07 0xFFFFFFFF] else [])

/-- A plan that has been admitted. -/
def Plan.admitted (h : BitVec 512) (events : List (BitVec 256)) (copy : Nat) : Plan :=
  { header := h, events := events, copy := copy, running := false, begun := false, clock := 0, waiting := [],
    skips := 0, overruns := 0 }

/-- DETAIL of an admission: first failing beat, record index, excess (R55). An excess that does not fit its 16 bits is open (log
entry 43). -/
def State.admission (s : State) (o : Op) (x : Failing) : State :=
  let (ex, s) : Nat × State := if x.2.2.2 < 65536 then (x.2.2.2, s) else s.draw
  s.complete o 0x0B x.2.1 0 (packDetail [(32, x.1), (32, x.2.2.1), (16, ex)])

/-- Completion of an admitted load. -/
def State.admittedDone (s : State) (o : Op) : State := s.complete o 0 0 0 (packDetail [(32, 0xFFFFFFFF), (32, 0xFFFFFFFF), (16, 0)])

/-- A function with a plan taken in: active where it has none, else pending. -/
def Fn.takePlan (x : Fn) (p : Plan) : Fn :=
  if x.active.isSome then { x with pendingPlan := some p } else { x with active := some p }

/-- The event records that follow a header. -/
def State.planEvents (s : State) (f : FnId) (a n : Nat) : List (BitVec 256) :=
  (List.range n).map (fun i => BitVec.ofNat 256 (s.nat (s.readAddr f (a + 64 + 32 * i)) 32))

def execLoadPlan (q : QueueId) (d : Desc) (s : State) : Host.Outcome State Fault Refusal :=
  .next (s.issue (.loadPlan q d) (fun o s =>
    let f := o.fn
    let a := ctAddr d
    let rc := s.recordCause o a 64
    let h := BitVec.ofNat 512 (s.record o 64)
    let n := phEventsM1 h + 1
    let rc2 := s.recordCause o a (64 + 32 * n)
    if rc ≠ 0 then s.faultOp o rc
    else if rc2 ≠ 0 then s.faultOp o rc2
    else
      let events := s.planEvents f a n
      match firstFailing (s.planFails f h events), s.planSpace f (64 + 32 * n) with
      | none, some copy =>
        let s := s.write copy (leBytes 64 h.toNat ++ events.flatMap (fun e => leBytes 32 e.toNat))
        (s.modFn f (fun x => x.takePlan (Plan.admitted h events copy))).admittedDone o
      | some x, _ => s.admission o x
      | none, none => s.admission o (untied 0x07 0xFFFFFFFF)))

/-! ## Serving classes (R64, R65, R169) -/

def scId {n : Nat} (d : BitVec n) : Nat := fld d 7 0
def scLayers {n : Nat} (d : BitVec n) : Nat := fld d 15 8
def scMaxRows {n : Nat} (d : BitVec n) : Nat := fld d 29 16
def scMaxTenons {n : Nat} (d : BitVec n) : Nat := fld d 45 32
def scMaxRank {n : Nat} (d : BitVec n) : Nat := fld d 54 46
def scFirstDeadline {n : Nat} (d : BitVec n) : Nat := fld d 95 64
def scStepDeadline {n : Nat} (d : BitVec n) : Nat := fld d 127 96

/-- Reserved bits or values out of range in a class record. -/
def classBad (r : BitVec 256) : Bool :=
  decide (fld r 31 30 ≠ 0) || decide (fld r 63 55 ≠ 0) || decide (fld r 255 128 ≠ 0) || decide (63 < scId r) || decide (scLayers r = 0)
    || decide (scMaxRows r = 0) || decide (8192 < scMaxRows r) || decide (8192 < scMaxTenons r) || decide (scMaxRank r < 8)
    || decide (256 < scMaxRank r) || decide (scMaxRank r % 8 ≠ 0)

/-- Cycles of one layer but for its 2,000 of closes, truss and joins: the alternatives of which the largest holds, each as a
fraction. `bw` is the bandwidth in units of `num / den` bytes a cycle. -/
def layerPrices (c : BitVec 256) (fr : BitVec 512) (cores bwNum bwDen : Nat) : List (Nat × Nat) :=
  let rows := scMaxRows c
  let tn := min (scMaxTenons c) rows
  let s := tn * scMaxRank c * frTenonBytes fr
  (rows * frBaseMacs fr, 2 * cores * frBaseRate fr) ::
    (if tn = 0 then []
     else [(s * bwDen, bwNum),
       if tn = rows then (s, cores * 1024)
       else ((if cores = 0 then 0 else (tn + cores - 1) / cores) * frTeUnits fr * ((scMaxRank c + 63) / 64) * max ((rows + tn - 1) / tn) 64,
         if cores = 0 then 0 else 1)])

/-- Beats of one pass, none where a divisor is zero. -/
def passPrice (layers cycles : Nat) (prices : List (Nat × Nat)) : Option Nat :=
  prices.foldl (fun best p => match best with
    | none => none
    | some b => if p.2 = 0 then none
      else some (max b ((layers * (p.1 + 2000 * p.2) + p.2 * cycles - 1) / (p.2 * cycles)))) (some 0)

/-- Core cycles of a beat (Table 2-1). -/
def State.beatCycles (s : State) : Nat := 2 ^ s.beat.period * 125

/-- Prices of the first and of a following pass of a class at the function's shares, in beats. -/
def State.classPrices (s : State) (x : Fn) (c : BitVec 256) (fr : BitVec 512) : Option Nat × Option Nat :=
  let hbm := sumNat ((List.range 24).map x.hbmShare)
  (passPrice (scLayers c) s.beatCycles (layerPrices c fr x.cores x.dlkShare 1),
   passPrice (scLayers c) s.beatCycles (layerPrices c fr x.cores (5 * hbm) 4))

/-- Does a priced pass fit a deadline? -/
def fits (price : Option Nat) (deadline : Nat) : Bool :=
  match price with
  | some p => decide (p ≤ deadline)
  | none => false

/-- Does a class fit its deadlines at the shares of a record? -/
def State.classFits (s : State) (x : Fn) (c : BitVec 256) : Bool :=
  match x.serving with
  | none => false
  | some frame =>
    let p := s.classPrices x c (s.frame frame).record
    fits p.1 (scFirstDeadline c) && fits p.2 (scStepDeadline c)

/-- The priced time a refused class reports; open without a price (log entry 43). -/
def State.classExcess (s : State) (x : Fn) (c : BitVec 256) : Nat × State :=
  match x.serving with
  | none => s.draw
  | some frame =>
    let p := s.classPrices x c (s.frame frame).record
    match (if fits p.1 (scFirstDeadline c) then p.2 else p.1) with
    | some n => (n, s)
    | none => s.draw

def execLoadClass (q : QueueId) (d : Desc) (s : State) : Host.Outcome State Fault Refusal :=
  .next (s.issue (.loadClass q d) (fun o s =>
    let rc := s.recordCause o (ctAddr d) 32
    let c := BitVec.ofNat 256 (s.record o 32)
    if rc ≠ 0 then s.faultOp o rc
    else if classBad c then s.faultOp o 0xC0
    else if s.classFits (s.fn o.fn) c then
      (s.modFn o.fn (fun x => { x with classes := SMap.put 0 x.classes (scId c) c })).admittedDone o
    else
      let (ex, s) := s.classExcess (s.fn o.fn) c
      s.admission o (0xFFFFFFFF, 0x12, 0xFFFFFFFF, ex)))

/-! ## set-seed, set-mode -/

def execSetSeed (q : QueueId) (d : Desc) (s : State) : Host.Outcome State Fault Refusal :=
  .next (s.issue (.setSeed q d) (fun o s => (s.modFn o.fn (fun x => { x with seed := BitVec.ofNat 64 (fld d 127 64) })).done o))

def execSetMode (q : QueueId) (d : Desc) (s : State) : Host.Outcome State Fault Refusal :=
  .next (s.issue (.setMode q d) (fun o s => (s.modFn o.fn (fun x => { x with tileStrict := flag d 64 })).done o))

end Sys2Proof.Machine
end

