-- ==== Sys2Proof/Machine/Steps.lean ====
section
/-! DEFINITION. The commands of step commit: the step's messages (R323 to R326), the master's and the backup's part (R325), the
operations report-ready and set-epoch-pair (R321, R323), and PWR_SLACK (R388). -/

namespace Sys2Proof.Machine

/-! ## READY and VOTE at a package (R270, R325) -/

/-- A READY that comes up the tree: decided at the master, passed on elsewhere. -/
def execReady (msg : BitVec 256) (s : State) : Host.Outcome State Fault Refusal :=
  if bmKind msg ≠ 5 then .next s
  else if s.isMaster then .next (s.onReady (bmArg1 msg) (bmNumber msg) (bmOrigin msg))
  else .next (s.sendUpTree msg)

/-- A VOTE that comes up the tree. -/
def execVote (msg : BitVec 256) (s : State) : Host.Outcome State Fault Refusal :=
  if bmKind msg ≠ 8 then .next s
  else if s.isMaster then .next (s.onVote (bmArg1 msg) (bmNumber msg) (bmArg2 msg % 256))
  else .next (s.sendUpTree msg)

/-! ## Decisions on their way down (R325, R327) -/

/-- The decision a COMMIT or ABORT carries (Table 13-2). -/
def decisionOf (msg : BitVec 256) : Decision :=
  { isCommit := decide (bmKind msg = 6), step := BitVec.ofNat 64 (bmNumber msg), cause := BitVec.ofNat 8 (bmArg2 msg),
    aborts := BitVec.ofNat 8 (bmArg2 msg / 256), final := (bmArg2 msg).testBit 16 }

/-- A decision from the parent: passed on to the children, and held. -/
def State.fromMaster (s : State) (port : PortId) (msg : BitVec 256) : State :=
  let s := s.took port.val 0 2
  if s.beat.parent = some port then (s.sendDown msg).holdDecision (bmArg1 msg) (decisionOf msg) else s

def execCommit (port : PortId) (msg : BitVec 256) (s : State) : Host.Outcome State Fault Refusal :=
  if bmKind msg = 6 ∧ (s.port port.val).st = 3 then .next (s.fromMaster port msg) else .next s

def execAbort (port : PortId) (msg : BitVec 256) (s : State) : Host.Outcome State Fault Refusal :=
  if bmKind msg = 7 ∧ (s.port port.val).st = 3 then .next (s.fromMaster port msg) else .next s

/-! ## Master and backup (R324, R325) -/

/-- A decision that the master sends its backup: held and echoed. -/
def execDecisionMessage (src : BitVec 16) (job : Word) (step : BitVec 64) (isCommit : Bool) (cause : Byte) (aborts : Byte) (final : Bool)
    (s : State) : Host.Outcome State Fault Refusal :=
  if !s.isBackup then .next s
  else
    let d : Decision := { isCommit := isCommit, step := step, cause := cause, aborts := aborts, final := final }
    let held := s.beat.held.filter (fun h => decide (h.1 ≠ job)) ++ [(job, d)]
    let s := { s with beat := { s.beat with held := held } }
    .next (s.sendMgmt src.toNat (s.decisionPayload job.toNat d))

/-- The decision of a job that the master has sent its backup and no echo has come back for. -/
def State.unechoed (s : State) (job : Nat) : Option Decision := let j := s.job job; if j.echoed then none else j.decision

/-- A job whose decision goes out now. -/
def State.release (s : State) (job : Nat) (d : Decision) : State := (s.setJob job { s.job job with echoed := true }).broadcast job d

/-- The backup's echo: the master broadcasts the decision. -/
def execDecisionEcho (src : BitVec 16) (job : Word) (step : BitVec 64) (s : State) : Host.Outcome State Fault Refusal :=
  match s.unechoed job.toNat with
  | none => .next s
  | some d => if s.isMaster ∧ src = s.beat.backup ∧ d.step = step then .next (s.release job.toNat d) else .next s

/-- The backup has failed: another one is chosen, and is sent what it has to hold; with none to choose, the decision goes out. -/
def State.retryBackup (s : State) (job : Nat) (d : Decision) : State :=
  let s := { s with beat := { s.beat with failedBackups := s.beat.failedBackups ++ [s.beat.backup] } }
  let s := { s with beat := { s.beat with backup := BitVec.ofNat 16 (s.pickBackup s.chip) } }
  let s := s.setJob job { s.job job with sentBeat := s.beatNow }
  if s.hasBackup then s.sendMgmt s.beat.backup.toNat (s.decisionPayload job d) else s.release job d

/-- ECHO_TIMEOUT: no echo has come back within 2L beats. -/
def execEchoTimeout (job : Word) (s : State) : Host.Outcome State Fault Refusal :=
  match s.unechoed job.toNat with
  | none => .next s
  | some d =>
    if s.isMaster ∧ (s.job job.toNat).sentBeat + 2 * s.beat.lead ≤ s.beatNow then .next (s.retryBackup job.toNat d) else .next s

/-- JOB_REG: job id, member count less one, remove flag (R324). Master and backup keep the counts of up to 256 jobs. -/
def State.onJobReg (s : State) (msg : Nat) : State :=
  let job := field msg 31 0
  let j := s.job job
  if field msg 48 48 = 1 then s.setJob job { j with members := 0 }
  else if j.members = 0 ∧ 256 ≤ (s.jobs.filter (fun x => decide (x.2.members ≠ 0))).length then s
  else s.setJob job { j with members := field msg 47 32 + 1 }

def execJobReg (_src : BitVec 16) (msg : BitVec 128) (s : State) : Host.Outcome State Fault Refusal :=
  if s.isMaster ∨ s.isBackup then .next (s.onJobReg msg.toNat) else .next s

/-! ## PWR_SLACK (R388, R389) -/

/-- Effective cap (R381). -/
def State.capEff (s : State) : Nat := (max 1000 (min 3200 ((s.power.cap : Int) + s.power.offset))).toNat

/-- The largest sum of C_POWER claims over any plan beat of a plan. -/
def Plan.mostPower (p : Plan) : Nat :=
  let beats := (0 :: p.events.map (fun e => evOffset e % p.period)).eraseDups
  (beats.map (fun b => sumNat (p.events.map (fun e => evClaim e 4 * evCovers p.period b e)))).foldl max 0

/-- Plan beats until the COMMIT event of the open step. -/
def Plan.toCommit (p : Plan) : Nat :=
  match p.waiting.find? (fun w => match p.events[w.idx]? with
      | some e => decide (evKind e = 4)
      | none => false) with
  | some w => w.beat - p.clock
  | none => 0

/-- Watts in 5 W units, at most what the field holds. -/
def fiveWatts (w : Int) : Nat := min 255 (w.toNat / 5)

/-- Does a compute die throttle? -/
def State.anyThrottle (s : State) : Bool := (List.range 4).any (fun d => (s.die d).throttling)

/-- The member's PWR_SLACK; a quiet function's package reports no headroom (R387). -/
def State.slackReport (s : State) (f : FnId) : BitVec 256 :=
  let x := s.fn f
  let off := s.power.offset
  let shift := (s.power.shiftMax : Int)
  let claims := (x.active.map Plan.mostPower).getD 0
  let down := min ((x.powerShare : Int) + off - claims) (min ((s.capEff : Int) - 1000) (off + shift))
  let up := if s.anyThrottle then 0 else min (3200 - (s.capEff : Int)) (shift - off)
  let slack := min ((x.active.map Plan.toCommit).getD 0) 0xFFFF
  BitVec.ofNat 256 (jmJobId x.job.map + (s.openStep f % 2 ^ 64) * 2 ^ 32 + slack * 2 ^ 96
    + (if x.quiet then 0 else fiveWatts down) * 2 ^ 112 + (if x.quiet then 0 else fiveWatts up) * 2 ^ 120 + s.chip * 2 ^ 128)

/-- Send it to the master where the package's group is enabled for the function's job. -/
def State.sendSlack (s : State) (f : FnId) : State :=
  if s.power.groupOn ∧ s.power.groupJob.toNat = jmJobId (s.fn f).job.map ∧ s.mapped f then
    let r := s.slackReport f
    if s.isMaster then s.onSlack r else s.sendMgmt s.beat.master.toNat (leBytes 32 r.toNat)
  else s

def execPwrSlack (msg : BitVec 256) (s : State) : Host.Outcome State Fault Refusal :=
  if s.isMaster then .next (s.onSlack msg) else .next s

def execPwrShift (job : Word) (offset : BitVec 12) (s : State) : Host.Outcome State Fault Refusal :=
  .next (s.takeShift job.toNat offset.toInt)

/-! ## report-ready (R323) -/

/-- Operations a function issued before this one that have not completed. A beat-wait is none: it is held at dispatch. -/
def State.issuedBefore (s : State) (o : Op) : Bool :=
  (s.ops.takeWhile (fun x => !x.is o.ref)).any (fun x =>
    decide (x.fn = o.fn) && !s.isMgmt x && x.flying && decide (hdClass x.desc ≠ 5))

/-- Send the READY of the open step, and the slack of a group's member. A function without a job has no master to report to (log
entry 10). -/
def State.sendReady (s : State) (f : FnId) : State :=
  if s.mapped f then
    let plan := ((s.fn f).active.map (fun p => phPlanId p.header)).getD 0
    let s := (s.modStep f (fun st => { st with sent := true, ready := true }))
    (s.sendSlack f).toMaster 5 (s.openStep f) (jmJobId (s.fn f).job.map) plan
  else s

def execReportReady (q : QueueId) (d : Desc) (s : State) : Host.Outcome State Fault Refusal :=
  .next (s.issue (.reportReady q d) (fun o s =>
    let st := (s.fn o.fn).step
    if s.issuedBefore o then s.park (.reportReady q d) o
    else if st.fail then s.complete o 9 0 0 0
    else if st.decision.isSome then s.complete o 8 0 0 0
    else if flag d 64 then (s.failStep o.fn 6).complete o 9 0 0 0
    else (s.sendReady o.fn).done o))

/-! ## DECIDE_LOST (R329) -/

/-- Operations that wait for a decision: report-ready and scarf. -/
def Op.reports (o : Op) : Bool := (decide (hdClass o.desc = 6) && decide (hdOp o.desc = 0x46)) || (decide (hdClass o.desc = 4) && decide (hdOp o.desc = 5))

/-- DECIDE_LOST: a member that sent READY holds no decision 4,096 beats after its COMMIT event. -/
def execDecideLost (f : FnId) (s : State) : Host.Outcome State Fault Refusal :=
  let st := (s.fn f).step
  match st.commitBeat with
  | none => .next s
  | some b =>
    if st.ready ∧ st.decision.isNone ∧ b + 4096 ≤ s.beatNow ∧ (s.fn f).job.st ≠ 3 then
      let job := jmJobId (s.fn f).job.map
      let pending := s.ops.filter (fun o => decide (o.fn = f) && o.reports)
      let s : State := pending.foldl (fun s o => s.kill o 1 0x87) s
      .next (((s.breakJob f).raise (pageStepf f.val) 1).logFn 0x6442 f 0 (s.openStep f) job)
    else .next s

/-! ## set-epoch-pair (R321) -/

def epSide1 (d : Desc) : Nat := fld d 171 128
def epBytes (d : Desc) : Nat := fld d 203 172 * 128

/-- Does a range lie in owned HBM, owned SCRATCH partitions or tiered companion pages? -/
def State.stateRangeCause (s : State) (f : FnId) (a n : Nat) : Nat :=
  let c := s.accessCause f a n true
  if c ≠ 0 then c
  else if region a = .companion ∧ (pagesOf a n).any (fun p => !s.tieredPage f p) then 0x42
  else 0

/-- Cause of a set-epoch-pair's checks. -/
def State.pairCause (s : State) (o : Op) : Nat :=
  let d := o.desc
  let a := ctAddr d
  let b := epSide1 d
  let n := epBytes d
  let ca := s.stateRangeCause o.fn a n
  let cb := s.stateRangeCause o.fn b n
  let meets := fun (x : Nat) => (s.pairs o.fn).any (fun p => overlaps x n p.side0 p.bytes || overlaps x n p.side1 p.bytes)
  lowestCause [
    (decide (ca ≠ 0), ca),
    (decide (cb ≠ 0), cb),
    (overlaps a n b n || meets a || meets b || (s.fn o.fn).step.issued || decide (64 ≤ (s.fn o.fn).step.pairs.length), 0x85)]

def execSetEpochPair (q : QueueId) (d : Desc) (s : State) : Host.Outcome State Fault Refusal :=
  .next (s.issue (.setEpochPair q d) (fun o s =>
    if s.pairCause o ≠ 0 then s.faultOp o (s.pairCause o)
    else (s.modStep o.fn (fun st => { st with pairs := st.pairs ++ [(ctAddr d, epSide1 d, epBytes d)] })).done o))

end Sys2Proof.Machine
end

