-- ==== Sys2Proof/Machine/Functions.lean ====
section
/-! DEFINITION. Functions: create, resize and its effect (R335 to R339, R345, R494), disable and scrubbing (R343, R372), counters
(R344, R474), and what the management role gives a function: frames, mortise ranges, apertures (R170, R223, R242, R497, R498). -/

namespace Sys2Proof.Machine

/-! ## The resource record (R335) -/

/-- The function a management operation names. -/
def ctFn (d : Desc) : FnId := fnId (fld d 133 128)

/-- Bits of the resource record that may be set: first bit and width, from the FUNC page offset less 0x040. -/
def recordFields : List (Nat × Nat) :=
  [(0x04, 5), (0x08, 16), (0x0C, 21), (0x10, 12), (0x14, 8), (0x18, 12), (0x30, 17)].map (fun x => (8 * x.1, x.2))
  ++ (List.range 24).map (fun st => (8 * (0x40 + 4 * st), 8))
  ++ (List.range 12).map (fun p => (8 * (0xA0 + 4 * p), 24))
  ++ (List.range 24).map (fun st => (8 * (0x100 + 8 * st), 48))
  ++ [(8 * 0x1C0, 64), (8 * 0x1C8, 32), (8 * 0x1CC, 1)]

def recordMask : Nat := recordFields.foldl (fun m x => m ||| ((2 ^ x.2 - 1) <<< x.1)) 0

/-- Does a record break R335, or hold a number outside the range of Table 14-1 that no pool states (log entry 47)? -/
def resourcesBad (r : BitVec 4096) : Bool :=
  let x : Fn := { Fn.reset with record := r }
  decide (r.toNat ||| recordMask ≠ recordMask) || decide (x.cores = 0) || decide (x.queueCount = 0)

/-- Whether the whole ranges of a record exist (log entry 47). -/
def rangesFit (x : Fn) : Bool :=
  decide (x.ctxFirst + x.ctxCount ≤ 65536) && decide (x.queueFirst + x.queueCount ≤ 1024) && decide (x.cores ≤ 20)

/-! ## Pools (R333, R334) -/

/-- Functions whose shares and resources count: not OFF, and not SCRUBBING, whose shares have returned (R343). -/
def Fn.holds (x : Fn) : Bool := decide (x.st ≠ .off) && decide (x.st ≠ .scrubbing)

/-- The records that other functions hold or have reserved by an accepted resize. -/
def State.others (s : State) (f : FnId) : List Fn :=
  (allFns.filter (fun g => decide (g ≠ f) && (s.fn g).holds)).flatMap (fun g => [s.fn g, (s.fn g).next])

/-- Sum over the other functions of the larger of a share and the one its accepted resize brings. -/
def State.shareSum (s : State) (f : FnId) (share : Fn → Nat) : Nat :=
  sumNat ((allFns.filter (fun g => decide (g ≠ f) && (s.fn g).holds)).map (fun g => max (share (s.fn g)) (share (s.fn g).next)))

/-- Is the refresh of a stack pinned by a quiet function that shares it (R345)? -/
def pinned (xs : List Fn) (st : Nat) : Bool :=
  xs.any (fun x => x.quiet && decide (x.granules st ≠ 0)) && decide (2 ≤ (xs.filter (fun x => decide (x.hbmShare st ≠ 0))).length)

/-- Stacks of the functions that hold resources, each once, with a new record in place of one function's. -/
def State.withRecord (s : State) (f : FnId) (x : Fn) : List Fn :=
  x :: (allFns.filter (fun g => decide (g ≠ f) && (s.fn g).holds)).map (fun g => s.fn g)

/-- Would a share sum exceed its pool? -/
def State.overPool (s : State) (f : FnId) (x : Fn) : Bool :=
  let beyond := fun (share : Fn → Nat) (pool : Nat) => decide (pool < s.shareSum f share + share x)
  beyond Fn.llmShare 4000 || beyond Fn.dlkShare 230 || beyond Fn.powerShare (s.capEff - 700)
  || (List.range 24).any (fun st => beyond (fun y => y.hbmShare st) (if pinned (s.withRecord f x) st then 168 else 190)
      || (decide (x.hbmShare st ≠ 0) && decide (x.granules st = 0)))
  || (List.range 12).any (fun p => beyond (fun y => y.fabShare p) 188)

/-- Do two contiguous ranges share a number? -/
def rangesMeet (a n b m : Nat) : Bool := overlaps a n b m

/-- Pages of a granule that hold something or wait for their scrub. -/
def State.granuleBusy (s : State) (st g : Nat) : Bool :=
  let inside := fun (p : Nat) => decide (p / 16384 = st * 64 + g)
  s.dir.any (fun x => inside x.1 && decide (pgTier x.2 = 1 ∨ pgTier x.2 = 2)) || s.scrubs.any inside

/-- Numbers of a new range that an old one does not hold. -/
def addedIds (a n b m : Nat) : List Nat := ((List.range n).map (· + a)).filter (fun i => !(decide (b ≤ i) && decide (i < b + m)))

/-- Context descriptors that are in use, of a range. -/
def State.ctxsUsed (s : State) (ids : List Nat) : Bool := ids.any (fun c => decide (cxState (s.ctx c) ≠ 0))

/-- Is an exclusive resource that a record adds to another not free, or reserved? `old` is what the function holds, nothing
for a create. -/
def State.taken (s : State) (f : FnId) (old x : Fn) : Bool :=
  let os := s.others f
  let parts := setBits 64 (x.partMask &&& (x.partMask ^^^ (x.partMask &&& old.partMask)))
  parts.any (fun p => (s.part p).failed || (s.part p).owner.isSome || (s.part p).scrubbing || os.any (fun y => y.partMask.testBit p))
  || (List.range 24).any (fun st =>
      let gs := x.granules st
      os.any (fun y => decide (y.granules st &&& gs ≠ 0))
      || (setBits 48 gs).any (fun g => !(old.granules st).testBit g && s.granuleBusy st g))
  || (List.range 12).any (fun p => os.any (fun y => decide (y.channels p &&& x.channels p ≠ 0)))
  || os.any (fun y => rangesMeet x.ctxFirst x.ctxCount y.ctxFirst y.ctxCount || rangesMeet x.queueFirst x.queueCount y.queueFirst y.queueCount)
  || s.ctxsUsed (addedIds x.ctxFirst x.ctxCount old.ctxFirst old.ctxCount)
  || (addedIds x.queueFirst x.queueCount old.queueFirst old.queueCount).any (fun q => (s.queue q).set)

/-- Are there fewer cores to be had, idle or in the reserve within 20 in service (R23), than accepted resizes and n more need? -/
def State.coresShort (s : State) (n : Nat) : Bool :=
  let reserve := allCores.filter (fun c => decide ((s.cell c).st = .eligible) && s.free c)
  decide (s.idleCores.length + min reserve.length (20 - s.serving) < s.reservedCores + n)

/-- Do quiet functions keep back too many cores in their clusters (R345)? -/
def State.coresKept (s : State) (f : FnId) (n : Nat) : Bool := decide ((s.poolFor f false).length < n)

/-- Can a quiet function's cores, those it keeps and n more, not be placed so that no cluster holds another's (R345)? -/
def State.quietUnplaced (s : State) (f : FnId) (x : Fn) (n : Nat) : Bool :=
  x.quiet && (decide ((s.poolFor f true).length < n)
    || allCores.any (fun c => decide ((s.cell c).owner = some f) && allCores.any (fun k => decide (k.val / 3 = c.val / 3)
        && (s.cell k).holder.isSome && decide ((s.cell k).holder ≠ some f))))

/-- RESIZE_POOL of a record (R494, R337). -/
def State.poolBad (s : State) (f : FnId) (old x : Fn) : Bool :=
  let n := x.cores - old.cores
  !rangesFit x || s.taken f old x || s.overPool f x || s.coresShort n || (!x.quiet && s.coresKept f n)

/-! ## create-function (R494) -/

/-- The record that ADDR names. -/
def State.resourceRecord (s : State) (o : Op) : BitVec 4096 := BitVec.ofNat 4096 (s.record o 512)

/-- At a beat boundary, cores for the logical numbers of a list, as many as there are. -/
def State.takeCores (s : State) (f : FnId) (logical : List Nat) : State :=
  logical.foldl (fun s l => match s.poolFor f (s.fn f).quiet with
    | c :: _ => (s.enterService f l c).countMapChange
    | [] => s.modFn f (fun y => { y with unavailable := y.unavailable ++ [l] })) s

/-- Cores chosen for the logical numbers of a list, which they carry from the next beat boundary on (R24). -/
def State.chooseCores (s : State) (f : FnId) (logical : List Nat) : State :=
  logical.foldl (fun s l => match s.poolFor f (s.fn f).quiet with
    | c :: _ => (s.prepareCore c).modCell c (fun x => { x with taking := some (f, l) })
    | [] => s) s

/-- Give partitions to a function: SCRATCH, zero-filled (R197). -/
def State.giveParts (s : State) (f : FnId) (ps : List Nat) : State :=
  ps.foldl (fun s p => (s.zeroRange (llmAddr p 0) (2 ^ 25)).setPart p { Part.reset with owner := some f, failed := (s.part p).failed }) s

/-- Partitions that a creation makes the tenon cache: the 12 highest of 13 or more, else all but the lowest (R167). -/
def cacheParts (ps : List Nat) : List Nat := ps.drop (if 13 ≤ ps.length then ps.length - 12 else 1)

/-- Set partitions to CACHE_TENON. -/
def State.tenonParts (s : State) (ps : List Nat) : State := ps.foldl (fun s p => s.setPart p { s.part p with mode := 3 }) s

/-- Clear the per-function pages of a function. -/
def State.clearFnPages (s : State) (f : Nat) : State :=
  [pageFunc f, pageHlth f, pageMemf f, pageJobf f, pageStepf f].foldl State.clearPage s

/-- A function as it is created: RUNNING, KEY_GEN 0, with a key drawn from the TRNG (R359); a session opened before goes on (R355). -/
def Fn.created (r : BitVec 4096) (key : Nat) : Fn :=
  { Fn.reset with st := .running, record := r, sec := { SecState.reset with key0 := key } }

def State.create (s : State) (f : FnId) (r : BitVec 4096) : State :=
  let (key, s) := s.draw
  let x := Fn.created r (key % 2 ^ 512)
  let session := (s.fn f).sec.session
  let s := ((s.clearFnPages f.val).setFn f x).modSec f (fun y => { y with session := session })
  let parts := setBits 64 x.partMask
  ((s.chooseCores f (List.range x.cores)).giveParts f parts).tenonParts (cacheParts parts)

/-- A create or restore completes as the cell map changes for it, at once where it takes no core; until then nothing of the function
is dispatched. -/
def State.awaitMap (s : State) (o : Op) (f : FnId) : State :=
  if (s.fn f).cores = 0 then s.done o else s.modFn f (fun x => { x with mapOp := some o.ref })

/-- Cause of a create's checks, in the order of R494. -/
def State.createCause (s : State) (f : FnId) (r : BitVec 4096) : Nat :=
  let x : Fn := { Fn.reset with record := r }
  firstCause [
    (decide ((s.fn f).st ≠ .off), 0x90),
    (resourcesBad r, 0xC0),
    (s.poolBad f Fn.reset x, 0x91),
    (s.quietUnplaced f x x.cores, 0x99)]

def execCreateFunction (q : QueueId) (d : Desc) (s : State) : Host.Outcome State Fault Refusal :=
  .next (s.issue (.createFunction q d) (fun o s =>
    let rc := s.recordCause o (ctAddr d) 512
    if rc ≠ 0 then s.faultOp o rc
    else
      let r := s.resourceRecord o
      let c := s.createCause (ctFn d) r
      if c ≠ 0 then s.faultOp o c else (s.create (ctFn d) r).awaitMap o (ctFn d)))

/-! ## resize (R337) -/

def rzTag (d : Desc) : BitVec 16 := BitVec.ofNat 16 (fld d 159 144)
def rzEffect (d : Desc) : Nat := fld d 255 192

/-- A removed granule that holds a TIER 1 page of the function. -/
def State.quotaBelow (s : State) (f : FnId) (x : Fn) : Bool :=
  s.dir.any (fun e => decide (pgTier e.2 = 1) && decide (pgOwner e.2 = f.val) && (match stackOfPage e.1 with
    | some st => !(x.granules st).testBit (e.1 % 2 ^ 20 / 16384)
    | none => false))

/-- Is a resource that a resize would remove in use? -/
def State.removeBusy (s : State) (f : FnId) (x : Fn) : Bool :=
  let old := s.fn f
  (setBits 64 old.partMask).any (fun p => !x.partMask.testBit p && s.partBusy f p)
  || (List.range 12).any (fun p => s.reduces.any (fun r => decide (r.fn = f) && (old.channels p).testBit (rdChannel r.desc)
      && !(x.channels p).testBit (rdChannel r.desc)))
  || s.ctxsUsed (addedIds old.ctxFirst old.ctxCount x.ctxFirst x.ctxCount)
  || (addedIds old.queueFirst old.queueCount x.queueFirst x.queueCount).any (fun q =>
      let y := s.queue q
      (y.set && decide (y.head ≠ y.tail)) || s.ops.any (fun o => decide (o.queue.val = q)))

/-- The first failing check of the admitted plans and classes at lowered shares (R337, R55). -/
def State.admitFails (s : State) (f : FnId) (x : Fn) : List Failing :=
  let old := s.fn f
  let x : Fn := { old with record := x.record }
  let lowered := fun (p : Failing) => resources.any (fun r => decide (resCode r = p.2.1) && decide (x.budget r < old.budget r))
  (match old.active with
    | some p => x.sweep none p.period p.events
    | none => []).filter lowered
  ++ (match old.pendingPlan with
    | some p => x.sweep old.active p.period p.events
    | none => []).filter lowered
  ++ (if old.classes.any (fun c => s.classFits old c.2 && !s.classFits x c.2) then [untied 0x12 0xFFFFFFFF] else [])

/-- A resize of a function without an active plan needs L beats (R338). -/
def State.tooSoon (s : State) (f : FnId) (beat : Nat) : Bool := (s.fn f).active.isNone && decide (beat < s.beatNow + s.beat.lead)

/-- Refuse a resize with the admission reason and the first failing beat. -/
def State.refuseResize (s : State) (o : Op) (x : Failing) : State := s.complete o 1 0x94 0 (packDetail [(8, x.2.1), (32, x.1)])

/-- Cause of a resize's checks but for admission, in the order of R337. -/
def State.resizeCause (s : State) (f : FnId) (r : BitVec 4096) : Nat :=
  let old := s.fn f
  let x : Fn := { Fn.reset with record := r }
  firstCause [
    (resourcesBad r, 0xC0),
    (decide (old.st ≠ .running) || old.resize.isSome, 0x90),
    (s.poolBad f old x, 0x91),
    (s.quotaBelow f x, 0x93),
    (s.removeBusy f x, 0x92)]

/-- Accept a resize: it stands until it takes effect, lapses or is cancelled. -/
def State.acceptResize (s : State) (o : Op) (f : FnId) (r : BitVec 4096) : State :=
  let z : Resize := { op := o.ref, record := r, tag := rzTag o.desc, effect := BitVec.ofNat 64 (rzEffect o.desc) }
  s.modFn f (fun x => { x with resize := some z })

def execResize (q : QueueId) (d : Desc) (s : State) : Host.Outcome State Fault Refusal :=
  .next (s.issue (.resize q d) (fun o s =>
    let rc := s.recordCause o (ctAddr d) 512
    let f := ctFn d
    let r := s.resourceRecord o
    let x : Fn := { Fn.reset with record := r }
    if rc ≠ 0 then s.faultOp o rc
    else if s.resizeCause f r ≠ 0 then s.faultOp o (s.resizeCause f r)
    else match firstFailing (s.admitFails f x) with
      | some p => s.refuseResize o p
      | none =>
        if s.tooSoon f (rzEffect d) then s.refuseResize o (untied 0x08 0xFFFFFFFF)
        else if s.quietUnplaced f x (x.cores - (s.fn f).cores) then s.faultOp o 0x99
        else s.acceptResize o f r))

/-! ## The effect of a resize (R338) -/

/-- A core leaves its function: its work ends, its slots are discarded, and it waits for its scrub (R26). -/
def State.removeCore (s : State) (c : CoreId) : State :=
  let s := (((s.supersedeMove c).cancelCore c.val 4).discardCore c.val).clearCore c.val
  let x := s.cell c
  if x.st = .inService then (s.setCell c { x with st := .eligible, scrubbing := true }).countMapChange
  else s.setCell c { x with owner := none }

/-- Cores of a function that carry logical numbers from n up. -/
def State.coresFrom (s : State) (f : FnId) (n : Nat) : List CoreId :=
  allCores.filter (fun c => decide ((s.cell c).owner = some f) && !(s.cell c).scrubbing && decide (n ≤ (s.cell c).logical))

/-- Partitions that leave a function wait for their scrub. -/
def State.dropParts (s : State) (ps : List Nat) : State := ps.foldl (fun s p => s.setPart p { s.part p with scrubbing := true }) s

/-- Queues whose numbers return to the pool. -/
def State.dropQueues (s : State) (qs : List Nat) : State := qs.foldl (fun s q => s.setQueue q Queue.reset) s

/-- The record changes: shares at once, exclusive resources as R338 gives. -/
def State.applyResize (s : State) (f : FnId) (r : BitVec 4096) : State :=
  let old := s.fn f
  let s := s.modFn f (fun x => { x with record := r, resize := none, unavailable := x.unavailable.filter (fun l => decide (l < Fn.cores { x with record := r })) })
  let x := s.fn f
  let s := (s.coresFrom f x.cores).reverse.foldl State.removeCore s
  let s := s.takeCores f ((List.range x.cores).drop old.cores)
  let s := s.dropParts (setBits 64 (old.partMask &&& (old.partMask ^^^ (old.partMask &&& x.partMask))))
  let s := s.giveParts f (setBits 64 (x.partMask &&& (x.partMask ^^^ (old.partMask &&& x.partMask))))
  s.dropQueues (addedIds old.queueFirst old.queueCount x.queueFirst x.queueCount)

/-- An accepted resize takes effect and completes. -/
def State.resizeNow (s : State) (f : FnId) : State :=
  match (s.fn f).resize with
  | none => s
  | some z =>
    let s := (s.applyResize f z.record).raiseFn f 0
    match s.op? z.op with
    | some o => s.done o
    | none => s

/-- RESIZE_EFFECT of a function without an active plan: at EFFECT_BEAT, a hold beat included. -/
def execResizeEffect (f : FnId) (s : State) : Host.Outcome State Fault Refusal :=
  match (s.fn f).resize with
  | none => .next s
  | some z => if (s.fn f).active.isNone ∧ (s.fn f).mapOp.isNone ∧ z.effect.toNat ≤ s.beatNow then .next (s.resizeNow f) else .next s

/-- A resize ends without effect: its reservations return, and it completes. -/
def State.endResize (s : State) (f : FnId) (status cause : Nat) : State :=
  match (s.fn f).resize with
  | none => s
  | some z =>
    let s := s.modFn f (fun x => { x with resize := none })
    match s.op? z.op with
    | some o => s.complete o status cause 0 0
    | none => s

/-- RESIZE_LAPSED: no event has taken the resize by the end of EFFECT_BEAT (R339). -/
def execResizeLapsed (f : FnId) (s : State) : Host.Outcome State Fault Refusal :=
  match (s.fn f).resize with
  | none => .next s
  | some z => if (s.fn f).active.isSome ∧ z.effect.toNat < s.beatNow then .next (s.endResize f 1 0x9B) else .next s

/-! ## disable (R343) -/

/-- Is a control operation only waiting for its directory changes (R207)? -/
def Op.changing (o : Op) : Bool := decide (hdClass o.desc = 6) && (!o.lag.isEmpty || decide (hdOp o.desc = 0x25))

/-- Operations of a function's own queues. -/
def State.opsOf (s : State) (f : FnId) : List Op := s.ops.filter (fun o => decide (o.fn = f) && !s.isMgmt o)

/-- Is an operation cancelled by an abort: it waits at dispatch, or is a collective, a move, a beat-wait or a control operation in
flight? Engine operations in progress complete (R20). -/
def Op.aborts (o : Op) : Bool :=
  decide (o.stage = .dispatched) || decide (o.stage = .held) || (decide (3 ≤ hdClass o.desc) && !o.truss && !o.changing)

/-- Abort: queued work completes with status cancelled; a scarf that is stopped breaks the job. -/
def State.abortFn (s : State) (f : FnId) : State :=
  let cores := allCores.filter (fun c => decide ((s.cell c).owner = some f))
  let s : State := cores.foldl (fun s c => s.cancelCore c.val 2) s
  let s := if (s.fn f).job.scarf.isSome then (s.spoilScarf f).breakJob f else s
  let s := { s with reduces := s.reduces.filter (fun r => decide (r.fn ≠ f)) }.dropKept f
  let s : State := ((s.opsOf f).filter Op.aborts).foldl (fun s o => (s.openMove o).kill o 2 0) s
  s.modFn f (fun x => { x with st := .aborting })

def dsDrain (d : Desc) : Nat := fld d 191 160

/-- A freeze in progress ends without its COMMIT and completes cancelled (R343). -/
def State.cancelFreeze (s : State) (f : FnId) : State :=
  match (s.fn f).freeze with
  | none => s
  | some z =>
    let freezing := decide ((s.fn f).st = .freezing)
    let s := s.modFn f (fun x => { x with freeze := none })
    match s.op? z.op with
    | some o => if freezing then s.kill o 2 0 else s
    | none => s

/-- Cores chosen for a function are given up. -/
def State.dropTaking (s : State) (f : FnId) : State :=
  allCores.foldl (fun (s : State) c => if (s.cell c).taking.map (·.1) = some f then s.modCell c (fun x => { x with taking := none }) else s) s

/-- A create or restore that still waits for the cell map ends cancelled. -/
def State.cancelMap (s : State) (f : FnId) : State :=
  match (s.fn f).mapOp with
  | none => s
  | some r =>
    let s := (s.modFn f (fun x => { x with mapOp := none })).dropTaking f
    match s.op? r with
    | some o => s.complete o 2 0 0 0
    | none => s

/-- Start to disable a function: an accepted resize is cancelled; what a FROZEN function keeps withdrawn is cancelled (R343). -/
def State.disable (s : State) (o : Op) (f : FnId) : State :=
  let frozen := decide ((s.fn f).st = .frozen)
  let s := ((s.endResize f 2 0).cancelFreeze f).cancelMap f
  let s := s.modFn f (fun x => { x with st := .draining, disableOp := some o.ref, drainEnd := s.beatNow + dsDrain o.desc })
  if flag o.desc 134 || frozen then s.abortFn f else s

def execDisable (q : QueueId) (d : Desc) (s : State) : Host.Outcome State Fault Refusal :=
  .next (s.issue (.disable q d) (fun o s =>
    let st := (s.fn (ctFn d)).st
    if dsDrain d = 0 then s.faultOp o 0xC0
    else if st = .off ∨ st = .draining ∨ st = .aborting ∨ st = .scrubbing then s.faultOp o 0x90
    else s.disable o (ctFn d)))

/-- DRAIN_BEATS_EXPIRY: operations remain, and the device proceeds as for abort. -/
def execDrainBeatsExpiry (f : FnId) (s : State) : Host.Outcome State Fault Refusal :=
  let x := s.fn f
  if x.st = .draining ∧ x.drainEnd ≤ s.beatNow ∧ !(s.opsOf f).isEmpty then .next (s.abortFn f) else .next s

/-! ## SCRUBBING (R343, R372) -/

/-- A frame that ends: bindings to it lapse and its contexts become stale. -/
def State.undefineFrame (s : State) (id : Nat) : State :=
  let s := s.setFrame id FrameState.reset
  let unbind := fun (x : Fn) => ({ x with frames := x.frames.filter (· ≠ id), serving := x.serving.filter (· ≠ id) } : Fn)
  let s := { s with fns := s.fns.map unbind }
  { s with ctxs := s.ctxs.map (fun c => if cxFrame c.2 = id ∧ cxState c.2 ∈ [1, 2, 3] then (c.1, withFld c.2 34 32 4) else c) }

/-- Frames that a function owns. -/
def State.framesOf (s : State) (f : FnId) : List Nat := (s.frames.filter (fun x => x.2.defined && decide (frOwner x.2.record = f.val))).map (·.1)

/-- What stays of a function in SCRUBBING: its record, its disable operation and confidential mode (R368); its shares have returned
and its keys are zero (R372). -/
def Fn.scrubbed (x : Fn) : Fn :=
  { Fn.reset with st := .scrubbing, record := x.record, disableOp := x.disableOp, sec := { SecState.reset with confidential := x.sec.confidential } }

/-- Contexts of a function are released (R251). -/
def State.releaseCtxs (s : State) (f : FnId) : State :=
  { s with ctxs := s.ctxs.map (fun c => if cxOwner c.2 = f.val ∧ cxState c.2 ≠ 0 then (c.1, withFld c.2 34 32 5) else c) }

/-- Pages that a function owns. -/
def State.pagesOwned (s : State) (f : FnId) : List Nat :=
  (s.dir.filter (fun x => decide (pgTier x.2 = 1 ∨ pgTier x.2 = 2) && decide (pgOwner x.2 = f.val) && decide (pgMove x.2 ≠ 2))).map (·.1)

/-- A core of a function in SCRUBBING: its work ends, and it leaves service at the next beat boundary (R24, R26). -/
def State.leaveCore (s : State) (c : CoreId) : State :=
  (((s.supersedeMove c).cancelCore c.val 4).discardCore c.val).modCell c (fun x =>
    { x with nextSt := if x.nextSt = some .quarantined then x.nextSt else some .eligible, movePending := false })

/-- Enter SCRUBBING: keys first, then every resource waits for its scrub. -/
def State.startScrub (s : State) (f : FnId) : State :=
  let job := jmJobId (s.fn f).job.map
  let cores := allCores.filter (fun c => decide ((s.cell c).owner = some f))
  let s : State := cores.foldl (fun s c => s.discardCore c.val) s
  let parts := (List.range 64).filter (fun p => decide ((s.part p).owner = some f))
  let s := s.modFn f Fn.scrubbed
  let s := { s with heldOps := s.heldOps.filter (fun h => decide (h.fn ≠ f)) }
  let s := s.dropLinks job
  let s : State := (s.framesOf f).foldl State.undefineFrame s
  let s := (s.releasePages (s.pagesOwned f)).releaseCtxs f
  (cores.reverse.foldl State.leaveCore s).dropParts parts

/-- FUNCTION_SCRUBBING: nothing of a disabled function is in flight. -/
def execFunctionScrubbing (f : FnId) (s : State) : Host.Outcome State Fault Refusal :=
  let st := (s.fn f).st
  if (st = .draining ∨ st = .aborting) ∧ (s.opsOf f).isEmpty then .next (s.startScrub f)
  else .next s

/-- Has every resource of a function returned, and every record of its queues been written? -/
def State.allReturned (s : State) (f : FnId) : Bool :=
  let x := s.fn f
  allCores.all (fun c => decide ((s.cell c).owner ≠ some f))
  && (List.range 64).all (fun p => decide ((s.part p).owner ≠ some f))
  && s.dir.all (fun e => !(decide (pgTier e.2 = 1 ∨ pgTier e.2 = 2) && decide (pgOwner e.2 = f.val)))
  && s.ctxs.all (fun c => !(decide (x.ctxFirst ≤ c.1) && decide (c.1 < x.ctxFirst + x.ctxCount) && decide (cxState c.2 ≠ 0)))
  && s.queues.all (fun q => q.2.mgmt || decide (q.2.owner ≠ f) || q.2.waiting.isEmpty)

/-- FUNCTION_OFF: the last scrub has read back clean; the disable completes (log entry 50). -/
def execFunctionOff (f : FnId) (s : State) : Host.Outcome State Fault Refusal :=
  let x := s.fn f
  if x.st = .scrubbing ∧ s.allReturned f then
    let mine := (s.queues.filter (fun q => !q.2.mgmt && decide (q.2.owner = f))).map (·.1)
    let s := ((s.dropQueues mine).clearFnPages f.val).setFn f Fn.reset
    match x.disableOp.bind s.op? with
    | some o => .next (s.done o)
    | none => .next s
  else .next s

/-- PARTITION_SCRUB: zero-fill and read-back of a partition that leaves; a read-back that fails is a device fault (R372). -/
def execPartitionScrub (part : PartId) (clean : Bool) (s : State) : Host.Outcome State Fault Refusal :=
  let x := s.part part.val
  if !x.scrubbing then .next s
  else
    let s := s.zeroRange (llmAddr part.val 0) (2 ^ 25)
    if clean then .next (s.setPart part.val { Part.reset with failed := x.failed })
    else .next (s.deviceFault 0x7181 part.val part.val 0)

/-! ## read-counters (R344, R474) -/

/-- RC registers of the CORE, ME and TE pages (Table 20-6). -/
def rcCore : List Nat := [0x44, 0x5C, 0x60]
def rcMe : List Nat := [0x4C, 0x50, 0x54, 0x58, 0x5C, 0x60, 0x64, 0x68, 0x6C, 0x70, 0x74, 0x78]
def rcTe : List Nat := [0x44, 0x48, 0x4C, 0x50, 0x54, 0x58, 0x5C, 0x60, 0x64, 0x68]

/-- A block of 128 bytes of a page: each register at its offset less 0x040. -/
def State.counterBlock (s : State) (page : Nat) (offs : List Nat) : List Byte :=
  (List.range 32).flatMap (fun i => leBytes 4 (if (0x40 + 4 * i) ∈ offs then s.reg 0 (page + 0x40 + 4 * i) else 0))

/-- The four blocks of a core. -/
def State.coreBlocks (s : State) (c : Nat) : List Byte :=
  s.counterBlock (pageCore c) rcCore ++ s.counterBlock (pageMe (2 * c)) rcMe ++ s.counterBlock (pageMe (2 * c + 1)) rcMe
    ++ s.counterBlock (pageTe c) rcTe

def execReadCounters (q : QueueId) (d : Desc) (s : State) : Host.Outcome State Fault Refusal :=
  .next (s.issue (.readCounters q d) (fun o s =>
    let ls := setBits 20 (fld d 147 128)
    let cores := ls.filterMap (s.phys? o.fn)
    if ls.any (fun l => decide ((s.fn o.fn).cores ≤ l)) then s.faultOp o 0xC0
    else if cores.length < ls.length then s.complete o 4 0 0 0
    else s.deliver (.readCounters q d) o (flag d 148) (cores.flatMap (fun c => s.coreBlocks c.val)) (fun s =>
      let s : State := if flag d 149 then cores.foldl (fun s c => s.clearCore c.val) s else s
      s.done o)))

/-! ## Frames and mortise ranges (R170, R242, R498) -/

def bfFrame (d : Desc) : Nat := fld d 143 136

def execBindFrame (q : QueueId) (d : Desc) (s : State) : Host.Outcome State Fault Refusal :=
  .next (s.issue (.bindFrame q d) (fun o s =>
    let f := ctFn d
    let id := bfFrame d
    let xs := (s.fn f).frames
    if !(s.frame id).defined then s.faultOp o 0x5A
    else if !xs.contains id ∧ 8 ≤ xs.length then s.faultOp o 0x91
    else
      let bound := if xs.contains id then xs else xs ++ [id]
      let serving := if flag d 145 then some id else (s.fn f).serving
      (s.modFn f (fun x => { x with frames := bound, serving := serving })).done o))

def execUnbind (q : QueueId) (d : Desc) (s : State) : Host.Outcome State Fault Refusal :=
  .next (s.issue (.unbind q d) (fun o s =>
    let f := ctFn d
    let id := bfFrame d
    if !(s.fn f).frames.contains id then s.faultOp o 0x5A
    else
      let s := s.modFn f (fun x => { x with frames := x.frames.filter (· ≠ id), serving := x.serving.filter (· ≠ id) })
      let stale := fun (c : Nat × BitVec 1024) =>
        if cxFrame c.2 = id ∧ cxOwner c.2 = f.val ∧ cxState c.2 ∈ [1, 2, 3] then (c.1, withFld c.2 34 32 4) else c
      { s with ctxs := s.ctxs.map stale }.done o))

def mrBase (d : Desc) : Nat := fld d 149 144
def mrCount (d : Desc) : Nat := fld d 156 150

/-- Would a mortise range share a mortise with another function's range of the frame? -/
def State.mortiseMeets (s : State) (f : FnId) (frame base count : Nat) : Bool :=
  (allFns.filter (· ≠ f)).any (fun g => let r := SMap.get (0, 0) (s.fn g).mortises frame; rangesMeet base count r.1 r.2)

def execSetMortiseRange (q : QueueId) (d : Desc) (s : State) : Host.Outcome State Fault Refusal :=
  .next (s.issue (.setMortiseRange q d) (fun o s =>
    let f := ctFn d
    if 64 < mrCount d ∨ 64 < mrBase d + mrCount d then s.faultOp o 0xC0
    else if s.mortiseMeets f (bfFrame d) (mrBase d) (mrCount d) then s.refuseOpen o
    else (s.modFn f (fun x => { x with mortises := SMap.put (0, 0) x.mortises (bfFrame d) (mrBase d, mrCount d) })).done o))

/-! ## Apertures and the directory extension (R223, R224, R497) -/

def saIndex (d : Desc) : Nat := fld d 139 136

/-- The aperture a set-aperture gives. -/
def apertureOf (d : Desc) : Aperture :=
  { base := ctAddr d - 2 ^ 43, units := fld d 175 144, read := flag d 176, write := flag d 177, tiered := flag d 178, enable := flag d 179 }

/-- Every enabled aperture, with its function and index. -/
def State.apertures (s : State) : List (FnId × Nat × Aperture) :=
  allFns.flatMap (fun f => ((s.fn f).apertures.filter (fun a => a.2.enable)).map (fun a => (f, a.1, a.2)))

/-- Bytes of the extension: 8 per page of every enabled tiered aperture. -/
def extensionBytes (as : List Aperture) : Nat := 8 * sumNat ((as.filter (fun a => a.tiered)).map (fun a => a.units))

/-- Does an aperture overlap a companion range? -/
def Aperture.meets (a : Aperture) (base n : Nat) : Bool := overlaps a.base (a.units * 65536) base n

/-- Does a set of apertures with the extension break R497? -/
def aperturesBad (as : List Aperture) (ext : Option Nat) : Bool :=
  match ext with
  | none => false
  | some b => as.any (fun a => a.meets b (extensionBytes as))

/-- Cause of a set-aperture. -/
def State.apertureCause (s : State) (f : FnId) (d : Desc) : Nat :=
  let a := apertureOf d
  let rest := (s.apertures.filter (fun x => !(decide (x.1 = f) && decide (x.2.1 = saIndex d)))).map (fun x => x.2.2)
  lowestCause [
    (decide (region (ctAddr d) ≠ .companion) || decide (ctAddr d % 65536 ≠ 0) || decide (2 ^ 43 < a.base + a.units * 65536), 0xC0),
    (a.enable && (rest.any (fun b => b.meets a.base (a.units * 65536)) || aperturesBad (a :: rest) s.extension), 0x9C)]

def execSetAperture (q : QueueId) (d : Desc) (s : State) : Host.Outcome State Fault Refusal :=
  .next (s.issue (.setAperture q d) (fun o s =>
    let f := ctFn d
    let c := s.apertureCause f d
    if c ≠ 0 then s.faultOp o c
    else (s.modFn f (fun x => { x with apertures := SMap.put Aperture.reset x.apertures (saIndex d) (apertureOf d) })).done o))

def execExtension (q : QueueId) (d : Desc) (s : State) : Host.Outcome State Fault Refusal :=
  .next (s.issue (.extension q d) (fun o s =>
    let b := ctAddr d - 2 ^ 43
    if region (ctAddr d) ≠ .companion then s.faultOp o 0xC0
    else if aperturesBad (s.apertures.map (fun x => x.2.2)) (some b) then s.faultOp o 0x9C
    else { s with extension := some b }.done o))

end Sys2Proof.Machine
end

