-- ==== Sys2Proof/Machine/Reduce.lean ====
section
/-! DEFINITION. Exact gradient reduction (R304 to R320): the reduce operation and its checks, the ways of each chunk, window
agreement, partials with residues and limbs, results, thinning, and the order of a channel's collectives. -/

namespace Sys2Proof.Machine

/-! ## Elements and chunks (R306) -/

def rdElems (d : Desc) : Nat := rdElemsM1 d + 1

/-- Chunks of a reduce. -/
def rdChunks (d : Desc) : Nat := (rdElems d + 4095) / 4096

/-- Present elements of chunk c. -/
def rdCount (d : Desc) (c : Nat) : Nat := min 4096 (rdElems d - 4096 * c)

def rdThin (d : Desc) : Nat := rdThinM1 d + 1

/-- Is this a send step (R319)? -/
def rdSends (d : Desc) : Bool := decide ((rdStep d + 1) % rdThin d = 0)

/-- Bytes of one source or of the results. -/
def rdBytes (d : Desc) : Nat := 2 * rdElems d

/-- Addresses of the sources, as the descriptor names them. -/
def rdSources (d : Desc) : List Nat := (List.range (rdSrcsM1 d + 1)).map (fun j => rdSrcAddr d + j * rdSrcStride d * 128)

/-! ## Ways (R307, R308). A link is 2 × axis + direction as this package sees it. -/

/-- Links of a ring: toward the owner, and from the neighbours whose way passes through here. -/
def ringLinks (len own owner axis : Nat) : Option Nat × List Nat :=
  let below := (own + len - 1) % len
  let above := (own + 1) % len
  (if own = owner then none else some (2 * axis + shorterWay own owner len),
   (if below ≠ owner ∧ below ≠ own ∧ shorterWay below owner len = 0 then [2 * axis + 1] else [])
   ++ (if above ≠ owner ∧ above ≠ own ∧ shorterWay above owner len = 1 then [2 * axis] else []))

/-- Links of chunk c at a position: toward the owner, and those values come from. -/
def chunkLinks (lenM1 pos : Nat) (axes : List Nat) (c : Nat) : Option Nat × List Nat :=
  match axes with
  | [a] => let len := coord lenM1 a + 1; ringLinks len (coord pos a) (c % len) a
  | [a, b] =>
    let la := coord lenM1 a + 1
    let lb := coord lenM1 b + 1
    let first := ringLinks la (coord pos a) (c % la) a
    if coord pos a = c % la then
      let second := ringLinks lb (coord pos b) (c / la % lb) b
      (second.1, first.2 ++ second.2)
    else first
  | _ => (none, [])

/-- Chunks apart in one RED_WINDOW frame on an axis (R310). -/
def windowStride (lenM1 : Nat) (axes : List Nat) (axis : Nat) : Nat :=
  match axes with
  | [a, b] => if axis = a then coord lenM1 a + 1 else (coord lenM1 a + 1) * (coord lenM1 b + 1)
  | [a] => coord lenM1 a + 1
  | _ => 1

/-- Axes of a reduce's job map. -/
def Reduce.axes (r : Reduce) : List Nat := axesOf (rdAxes r.desc)

/-- Links of chunk c of a reduce. -/
def State.linksOf (s : State) (r : Reduce) (c : Nat) : Option Nat × List Nat :=
  let m := (s.fn r.fn).job.map
  chunkLinks (jmLenM1 m) (jmPos m) r.axes c

/-- Ports of a link: on an axis of length 2 both directions reach the one neighbour (R275). -/
def State.linkPorts (s : State) (f : FnId) (link : Nat) : List Nat :=
  let mask := s.topoOf f
  let a := link / 2
  if coord (jmLenM1 (s.fn f).job.map) a = 1 then
    (List.range 12).filter (fun p => (s.portsToward mask a 0).contains p || (s.portsToward mask a 1).contains p)
  else s.portsToward mask a (link % 2)

/-- The port that carries a chunk's frames on a link (R308). -/
def State.linkPort (s : State) (f : FnId) (d : Desc) (link c : Nat) : Option Nat :=
  match s.linkPorts f link with
  | [] => none
  | p :: rest => if rdDouble d = 1 ∧ c % 2 = 1 then some (rest.headD p) else some p

/-- Every link a reduce uses. -/
def State.usedLinks (s : State) (f : FnId) (d : Desc) : List Nat :=
  let m := (s.fn f).job.map
  match axesOf (rdAxes d) with
  | [] => []
  | axes =>
    let n := (axes.map (fun a => coord (jmLenM1 m) a + 1)).foldl (· * ·) 1
    ((List.range (min n (rdChunks d))).flatMap (fun c => let l := chunkLinks (jmLenM1 m) (jmPos m) axes c; l.1.toList ++ l.2)).eraseDups

/-- Every port it uses on a link. -/
def State.portsOf (s : State) (f : FnId) (d : Desc) (link : Nat) : List Nat :=
  (s.linkPort f d link 0).toList ++ (if rdDouble d = 1 then (s.linkPort f d link 1).toList else [])

/-! ## Checks at issue (R305, R266, R496) -/

/-- A function in confidential mode whose job has no active slot sends nothing (R367). -/
def State.noLinkKey (s : State) (f : FnId) : Bool := (s.fn f).sec.confidential && (s.sealSlot f).isNone

def State.reduceCause (s : State) (o : Op) : Nat :=
  let d := o.desc
  let f := o.fn
  let links := s.usedLinks f d
  let n := rdBytes d
  let accs := if rdThinM1 d = 0 then [] else [(rdAccAddr d, rdAccBytes d)]
  let reads := (rdSources d).map (fun a => (a, n)) ++ accs
  let writes := (rdDstAddr d, n) :: accs
  let fmtBad := fun (c : Nat) => decide (c ≠ 1) && decide (c ≠ 2)
  let cause := lowestCause [
    (fmtBad (rdSrcFmt d) || fmtBad (rdDstFmt d) || decide (rdSat d = 3) || (axesOf (rdAxes d)).isEmpty || !s.mapped f
      || decide (2 ^ 35 ≤ rdElemBase d + rdElemsM1 d)
      || (if rdThinM1 d = 0 then decide (rdAccAddr d ≠ 0)
          else !(s.pairs f).any (fun p => decide (p.side0 = rdAccAddr d) && decide (p.bytes = rdAccBytes d)))
      || reads.any (fun r => decide (s.stateRangeCause f (s.readAddr f r.1) r.2 ≠ 0))
      || writes.any (fun r => decide (s.stateRangeCause f (s.writeAddr f r.1) r.2 ≠ 0)), 0x80),
    (links.any (fun l => (s.linkPorts f l).isEmpty), 0x69),
    (links.any (fun l => (s.portsOf f d l).any (fun p => !((s.fn f).channels p).testBit (rdChannel d))), 0x6B),
    (s.noLinkKey f, 0xA7),
    ((reads ++ writes).any (fun r => s.epochSpan f r.1 r.2), 0x86)]
  if cause ≠ 0 then cause
  else if s.heldBy f (some o.ref) (s.writeAddr f (rdDstAddr d)) n then 0x0E
  else 0

/-! ## Contributions (R309, R312, R319) -/

/-- Contributions of a package to element i: every source, and at a send step the accumulator. -/
def State.contributions (s : State) (f : FnId) (d : Desc) (i : Nat) : List Val :=
  let fm := fmtOf (rdSrcFmt d)
  let at0 := fun (a : Nat) => fm.decode (s.nat (s.readAddr f (a + 2 * i)) 2)
  (rdSources d).map at0 ++ (if rdThinM1 d = 0 then [] else [at0 (rdAccAddr d)])

/-- floor(log2 |v|) of a nonzero finite value. -/
def Val.floorLog (v : Val) : Option Int :=
  match v with
  | .num _ m e => if m = 0 then none else some ((Nat.log2 m : Int) + e)
  | _ => none

/-- The window value of some contributions (R309). -/
def windowOf (vs : List Val) : Int :=
  if vs.any (fun v => !v.isFinite) then 0x7FFF
  else vs.foldl (fun w v => match v.floorLog with
    | some e => max w e
    | none => w) (-32768)

/-- A value as a whole number of grid steps 2^(W − 62), rounded to the nearest, ties to even (R312). -/
def Val.onGrid (v : Val) (w : Int) : Int :=
  match v with
  | .num neg m e => let n := rneCount m e (w - 62); if neg then -(n : Int) else (n : Int)
  | _ => 0

/-- Own integer of an element. -/
def State.ownSum (s : State) (f : FnId) (d : Desc) (w : Int) (i : Nat) : Int :=
  (s.contributions f d i).foldl (fun (a : Int) v => a + v.onGrid w) 0

/-- Store an exact value of element i stochastically (R317, R319). -/
def State.storeElem (s : State) (f : FnId) (d : Desc) (fc i : Nat) (v : Val) : Nat :=
  ((fmtOf fc).sr (rdSat d) (random16 (s.fn f).seed.toNat (rdStep d) (rdRtid d) (rdElemBase d + i)) v).code

/-- The sum of an element as a value: s × 2^(W − 62). -/
def gridVal (n : Int) (w : Int) : Val := .num (decide (n < 0)) n.natAbs (w - 62)

/-- Write results of a chunk from element e on. -/
def State.writeResults (s : State) (r : Reduce) (c e : Nat) (codes : List Nat) : State :=
  s.write (s.writeAddr r.fn (rdDstAddr r.desc + 2 * (4096 * c + e))) (codes.flatMap (fun x => leBytes 2 x))

/-- A step that is no send step: a' = sr16(a + Σ v) into the accumulator's shadow side. -/
def State.accumulate (s : State) (r : Reduce) : State :=
  let d := r.desc
  let codes := (List.range (rdElems d)).map (fun i =>
    s.storeElem r.fn d (rdSrcFmt d) i (plusZero ((s.contributions r.fn d i).foldl Val.add Val.zero)))
  s.write (s.writeAddr r.fn (rdAccAddr d)) (codes.flatMap (fun x => leBytes 2 x))

/-! ## Frames (Table 11-3) -/

def rsTag (x : Nat) : Nat := field x 31 0
def rsChunk (x : Nat) : Nat := field x 63 32
def rsFirst (x : Nat) : Nat := field x 75 64
def rsCountM1 (x : Nat) : Nat := field x 82 76
def rsWexp (x : Nat) : Int := toSigned 16 (field x 98 83)

/-- Sub-header of a frame. -/
def redHead (fr : Frame) : Nat := ofBytes (fr.payload.take 16)

def redSub (d : Desc) (chunk first countM1 : Nat) (w : Int) : Nat :=
  rdCollTag d + (chunk % 2 ^ 32) * 2 ^ 32 + first * 2 ^ 64 + countM1 * 2 ^ 76 + ofSigned 16 w * 2 ^ 83

/-- A reduction frame for the neighbour on a port. -/
def State.redFrame (s : State) (type p sub channel : Nat) (body : List Byte) : Frame :=
  let h := (s.port p).hello
  mkFrame type true channel (hePos h) (heChip h) s.chip (leBytes 16 sub ++ body)

/-- Send one on a link; the frame as it was sent. -/
def State.sendRed (s : State) (f : FnId) (p : Nat) (fr : Frame) : Frame × State := let (g, s) := s.sealFrame f fr; (g, s.sendOn p g)

/-- A 64-bit word of a partial, and the residue byte of an integer. -/
def word64 (n : Int) : List Byte := leBytes 8 (ofSigned 64 n)

def rho (n : Int) : Nat := (n % 127).toNat

/-- The frames of up to 128 partials from element e on: one frame, or high limbs before low limbs (R313, R314). -/
def State.partialFrames (s : State) (r : Reduce) (p c e : Nat) (w : Int) (xs : List Int) : List Frame :=
  let d := r.desc
  let frame := fun (chunk : Nat) (words residues : List Int) =>
    s.redFrame 5 p (redSub d chunk e (xs.length - 1) w) (rdChannel d) (words.flatMap word64 ++ residues.map (fun n => BitVec.ofNat 8 (rho n)))
  if xs.all (fun n => decide (-(2 ^ 63) ≤ n) && decide (n < 2 ^ 63)) then [frame c xs xs]
  else
    let hi := xs.map (fun n => n / 2 ^ 64)
    let lo := xs.map (fun n => n % 2 ^ 64)
    [frame (c + 2 ^ 31) hi (hi.map (fun h => 2 * h)), frame c lo lo]

/-! ## The reduce in the state -/

def State.reduce? (s : State) (r : OpRef) : Option Reduce := s.reduces.find? (fun x => decide (x.op = r))

def State.modReduce (s : State) (r : OpRef) (g : Reduce → Reduce) : State :=
  { s with reduces := s.reduces.map (fun x => if x.op = r then g x else x) }

def State.modChunk (s : State) (r : OpRef) (c : Nat) (g : Chunk → Chunk) : State :=
  s.modReduce r (fun x => { x with chunks := x.chunks.mapIdx (fun i y => if i = c then g y else y) })

def Chunk.fresh : Chunk :=
  { wins := [], window := none, sentUp := false, sentDown := [], got := [], high := [], sentPartial := false, written := 0, resends := 0 }

/-- Collectives of one channel of a function, in issue order. -/
def State.channelReduces (s : State) (f : FnId) (ch : Nat) : List Reduce :=
  s.reduces.filter (fun r => decide (r.fn = f) && decide (rdChannel r.desc = ch))

/-- Does a plan's DEADLINE govern the reduce, or its TIMEOUT (R320)? -/
def State.hasDeadline (s : State) (o : Op) : Bool :=
  match o.event, (s.fn o.fn).active with
  | some i, some p => p.events.any (fun e => decide (fld e 55 48 = 8) && !flag e 106 && decide (fld e 95 80 = i))
  | _, _ => false

/-- Is a link of a reduce without its partner now (R274)? -/
def State.linkDown (s : State) (r : Reduce) : Bool :=
  (s.usedLinks r.fn r.desc).any (fun l => (s.portsOf r.fn r.desc l).any (fun p => decide ((s.port p).st ≠ 3)))

/-! ## Window agreement (R309 to R311) -/

/-- First chunks of the blocks of up to 512 chunks that one RED_WINDOW frame carries at a stride. -/
def windowBlocks (stride n : Nat) : List Nat := (List.range n).filter (fun c => decide (c / stride % 512 = 0))

/-- Chunks of a block. -/
def blockChunks (stride n first : Nat) : List Nat := ((List.range 512).map (fun i => first + stride * i)).filter (fun c => decide (c < n))

/-- Send window values of a block on a port, padded to a multiple of four. -/
def State.sendWindows (s : State) (r : Reduce) (p first : Nat) (ws : List Int) : State :=
  let ws := ws ++ List.replicate ((4 - ws.length % 4) % 4) (-32768)
  (s.sendRed r.fn p (s.redFrame 4 p (redSub r.desc first 0 (ws.length / 4 - 1) 0) (rdChannel r.desc) (ws.flatMap (fun w => leBytes 2 (ofSigned 16 w))))).2

/-- Own window value of a chunk, with those received. -/
def State.chunkWindow (s : State) (r : Reduce) (c : Nat) (x : Chunk) : Int :=
  let own := windowOf ((List.range (rdCount r.desc c)).flatMap (fun e => s.contributions r.fn r.desc (4096 * c + e)))
  (x.wins.map (·.2)).foldl max own

/-- Have the window values of every neighbour on the way arrived? -/
def State.windowReady (s : State) (r : Reduce) (c : Nat) (x : Chunk) : Bool :=
  (s.linksOf r c).2.all (fun l => x.wins.any (fun w => decide (w.1 = l)))

/-- The link of a block toward the owner, and the stride of its chunks. -/
def State.upBlocks (s : State) (r : Reduce) : List (Nat × Nat × List Nat) :=
  let lenM1 := jmLenM1 (s.fn r.fn).job.map
  r.axes.flatMap (fun a =>
    let st := windowStride lenM1 r.axes a
    (windowBlocks st r.chunks.length).filterMap (fun b => match (s.linksOf r b).1 with
      | some l => if l / 2 = a then some (l, b, blockChunks st r.chunks.length b) else none
      | none => none))

/-- Values toward the owner: a block goes once every value of it is complete. -/
def State.windowsUp (s : State) (r : OpRef) : State :=
  match s.reduce? r with
  | none => s
  | some x => (s.upBlocks x).foldl (fun (s : State) b =>
      let cs := b.2.2.filterMap (fun c => (x.chunks[c]?).map (fun y => (c, y)))
      match s.linkPort x.fn x.desc b.1 b.2.1 with
      | some p =>
        if cs.all (fun c => !c.2.sentUp && s.windowReady x c.1 c.2) then
          let s := s.sendWindows x p b.2.1 (cs.map (fun c => s.chunkWindow x c.1 c.2))
          cs.foldl (fun s c => s.modChunk r c.1 (fun y => { y with sentUp := true })) s
        else s
      | none => s) s

/-- What an agreed window alone settles: +0, or NaN under SAT, for every present element (R311). -/
def State.settleSpecial (s : State) (x : Reduce) (c : Nat) (w : Int) : State :=
  if w ≠ 0x7FFF ∧ w ≠ -32768 then s
  else
    let code := if w = 0x7FFF then ((fmtOf (rdDstFmt x.desc)).rne (rdSat x.desc) .nan).code else 0
    let n := rdCount x.desc c
    (s.writeResults x c 0 (List.replicate n code)).modChunk x.op c (fun y => { y with written := n })

/-- A chunk's window is agreed. -/
def State.agree (s : State) (x : Reduce) (c : Nat) (w : Int) : State :=
  (s.modChunk x.op c (fun y => { y with window := some w })).settleSpecial x c w

/-- The final owner agrees the windows that are complete. -/
def State.agreeOwn (s : State) (r : OpRef) : State :=
  match s.reduce? r with
  | none => s
  | some x => x.chunks.zipIdx.foldl (fun (s : State) y =>
      if (s.linksOf x y.2).1.isNone ∧ y.1.window.isNone ∧ s.windowReady x y.2 y.1 then s.agree x y.2 (s.chunkWindow x y.2 y.1) else s) s

/-- Blocks of agreed windows on the links away from the owner. -/
def State.downBlocks (s : State) (r : Reduce) : List (Nat × Nat × List Nat) :=
  let lenM1 := jmLenM1 (s.fn r.fn).job.map
  r.axes.flatMap (fun a =>
    let st := windowStride lenM1 r.axes a
    (windowBlocks st r.chunks.length).flatMap (fun b =>
      ((s.linksOf r b).2.filter (fun l => decide (l / 2 = a))).map (fun l => (l, b, blockChunks st r.chunks.length b))))

/-- Agreed windows back along the ways: a block goes once every window of it is agreed. -/
def State.windowsDown (s : State) (r : OpRef) : State :=
  match s.reduce? r with
  | none => s
  | some x => (s.downBlocks x).foldl (fun (s : State) b =>
      let cs := b.2.2.filterMap (fun c => (x.chunks[c]?).map (fun y => (c, y)))
      match s.linkPort x.fn x.desc b.1 b.2.1 with
      | some p =>
        if cs.all (fun c => c.2.window.isSome && !c.2.sentDown.contains b.1) then
          let s := s.sendWindows x p b.2.1 (cs.map (fun c => c.2.window.getD 0))
          cs.foldl (fun s c => s.modChunk r c.1 (fun y => { y with sentDown := b.1 :: y.sentDown })) s
        else s
      | none => s) s

/-! ## Partials and results (R312 to R317) -/

/-- Have the partials of every neighbour on the way arrived? -/
def State.partialsReady (s : State) (x : Reduce) (c : Nat) (y : Chunk) : Bool :=
  (s.linksOf x c).2.all (fun l => decide ((y.got.filter (fun g => decide (g.1 = l))).length = rdCount x.desc c))

/-- Sums of a chunk: own integers and every partial received. -/
def State.chunkSums (s : State) (x : Reduce) (c : Nat) (y : Chunk) (w : Int) : List Int :=
  (List.range (rdCount x.desc c)).map (fun e =>
    (y.got.filter (fun g => decide (g.2.1 = e))).foldl (fun (a : Int) g => a + g.2.2) (s.ownSum x.fn x.desc w (4096 * c + e)))

/-- Bytes a port's resend store holds. -/
def Port.storeBytes (x : Port) : Nat := sumNat (x.store.flatMap (fun e => e.2.2.map (fun f => 16 + f.payload.length)))

/-- Send the partials of a chunk toward its owner, kept in the port's resend store; a store without room makes them wait (R316). -/
def State.sendPartials (s : State) (x : Reduce) (p c : Nat) (w : Int) (sums : List Int) : State :=
  let frames := (chunks 128 sums).zipIdx.flatMap (fun g => s.partialFrames x p c (128 * g.2) w g.1)
  let high := (frames.filter (fun f => decide (2 ^ 31 ≤ rsChunk (redHead f)))).length
  if 2621440 < (s.port p).storeBytes + sumNat (frames.map (fun f => 16 + f.payload.length)) then s.wait (pageStepf x.fn.val + 0x68)
  else
    let r := frames.foldl (fun (a : List Frame × State) f => let (g, s) := a.2.sendRed x.fn p f; (a.1 ++ [g], s)) ([], s)
    let s := r.2
    let y := s.port p
    let s := s.setPort p { y with store := y.store ++ [(rdCollTag x.desc, c, r.1)] }
    let s := if high = 0 then s else s.count (pageStepf x.fn.val + 0x64) high
    s.modChunk x.op c (fun y => { y with sentPartial := true })

/-- Send results of a chunk from element e on along the ways that pass through here. -/
def State.sendResults (s : State) (x : Reduce) (c e : Nat) (w : Int) (codes : List Nat) : State :=
  let codes := codes ++ List.replicate ((4 - codes.length % 4) % 4) 0
  (s.linksOf x c).2.foldl (fun s l => match s.linkPort x.fn x.desc l c with
    | some p => (s.sendRed x.fn p (s.redFrame 6 p (redSub x.desc c e (codes.length / 4 - 1) w) (rdChannel x.desc)
        (codes.flatMap (fun k => leBytes 2 k)))).2
    | none => s) s

/-- The final owner rounds each element once, writes and sends the results. -/
def State.finalResults (s : State) (x : Reduce) (c : Nat) (w : Int) (sums : List Int) : State :=
  let codes := sums.zipIdx.map (fun n => s.storeElem x.fn x.desc (rdDstFmt x.desc) (4096 * c + n.2) (gridVal n.1 w))
  let s := (chunks 512 codes).zipIdx.foldl (fun (s : State) g =>
    (s.writeResults x c (512 * g.2) g.1).sendResults x c (512 * g.2) w g.1) s
  s.modChunk x.op c (fun y => { y with sentPartial := true, written := rdCount x.desc c })

/-- Partials and final sums of every chunk that is ready. -/
def State.partialsUp (s : State) (r : OpRef) : State :=
  match s.reduce? r with
  | none => s
  | some x => x.chunks.zipIdx.foldl (fun (s : State) y =>
      match y.1.window with
      | none => s
      | some w =>
        if w = 0x7FFF ∨ w = -32768 ∨ y.1.sentPartial ∨ !s.partialsReady x y.2 y.1 then s
        else
          let sums := s.chunkSums x y.2 y.1 w
          match (s.linksOf x y.2).1 with
          | none => s.finalResults x y.2 w sums
          | some l => match s.linkPort x.fn x.desc l y.2 with
            | some p => s.sendPartials x p y.2 w sums
            | none => s) s

/-- Has every present element of every chunk been written, and every frame others need been sent? -/
def Reduce.complete (x : Reduce) : Bool := x.chunks.zipIdx.all (fun y => decide (y.1.written = rdCount x.desc y.2))

/-- Mark the end of a reduce; the first end counts. -/
def State.endReduce (s : State) (r : OpRef) (status cause : Nat) : State :=
  s.modReduce r (fun x => { x with ended := some (x.ended.getD (status, cause)) })

/-- Let a started reduce do what it can. -/
def State.pumpReduce (s : State) (r : OpRef) : State :=
  let s := (((s.windowsUp r).agreeOwn r).windowsDown r).partialsUp r
  match s.reduce? r, s.op? r with
  | some x, some o =>
    if x.complete then s.endReduce r 0 0
    else if s.linkDown x ∧ !s.hasDeadline o ∧ rdTimeout x.desc = 0 then s.endReduce r 1 0x6A
    else s
  | _, _ => s

/-! ## Frames received -/

/-- The link of a chunk on which a frame came. -/
def State.linkFrom (s : State) (x : Reduce) (c p : Nat) : Option Nat :=
  let l := s.linksOf x c
  (l.1.toList ++ l.2).find? (fun k => (s.linkPorts x.fn k).contains p)

/-- Numbers of n bytes in a payload after its sub-header. -/
def payloadNums (fr : Frame) (off n count : Nat) : List Nat :=
  (List.range count).map (fun i => ofBytes (((fr.payload.drop (16 + off)).drop (n * i)).take n))

/-- RED_WINDOW: values from a neighbour on the way, or agreed windows from the owner's side (R310). -/
def State.onWindow (s : State) (x : Reduce) (p : Nat) (fr : Frame) : State :=
  let sub := redHead fr
  let st := windowStride (jmLenM1 (s.fn x.fn).job.map) x.axes (s.portAxis p)
  let ws := (payloadNums fr 0 2 (4 * (rsCountM1 sub + 1))).map (toSigned 16)
  ws.zipIdx.foldl (fun (s : State) w =>
    let c := rsChunk sub + st * w.2
    match x.chunks[c]?, s.linkFrom x c p with
    | some y, some l =>
      if (s.linksOf x c).1 = some l then (if y.window.isSome then s else s.agree x c w.1)
      else s.modChunk x.op c (fun y => { y with wins := (l, w.1) :: y.wins.filter (fun v => decide (v.1 ≠ l)) })
    | _, _ => s) s

/-- A mismatch of a chunk: the first asks for it again on the given links, the second ends the reduce (R315). -/
def State.residueFault (s : State) (x : Reduce) (c : Nat) (links : List Nat) : State :=
  let y := x.chunks[c]?.getD Chunk.fresh
  if y.resends ≠ 0 then (s.count (pageStepf x.fn.val + 0x58)).endReduce x.op 1 0x82
  else
    let s := s.modChunk x.op c (fun y => { y with resends := 1, got := y.got.filter (fun g => !links.contains g.1), high := [] })
    links.foldl (fun s l => match s.linkPort x.fn x.desc l c with
      | some p => (s.sendRed x.fn p (s.redFrame 7 p (rdCollTag x.desc + c * 2 ^ 32) (rdChannel x.desc) [])).2
      | none => s) s

/-- Words of a partial frame as integers: high limbs stand for h × 2^64; a low frame that follows its high limbs is unsigned. -/
def partialWords (fr : Frame) (n : Nat) (high : Option (List Int)) : List Int :=
  let ws := payloadNums fr 0 8 n
  match high with
  | none => ws.map (toSigned 64)
  | some hs => List.zipWith (fun (h : Int) (w : Nat) => h * 2 ^ 64 + w) hs ws

/-- Does every word agree with its residue byte (R314)? -/
def residuesOk (fr : Frame) (n : Nat) (words : List Int) : Bool :=
  (List.zipWith (fun w b => decide (rho w = b)) words (payloadNums fr (8 * n) 1 n)).all id

/-- RED_PARTIAL of the current collective (R312 to R315). -/
def State.onPartial (s : State) (x : Reduce) (p : Nat) (fr : Frame) (adderFault : Bool) : State :=
  let sub := redHead fr
  let c := rsChunk sub % 2 ^ 31
  let isHigh := decide (2 ^ 31 ≤ rsChunk sub)
  let n := rsCountM1 sub + 1
  match x.chunks[c]?, s.linkFrom x c p with
  | some y, some l =>
    match y.window with
    | none => s
    | some w =>
      if w ≠ rsWexp sub then s.endReduce x.op 1 0x84
      else
        let hi := (y.high.find? (fun h => decide (h.1 = p) && decide (h.2.1 = rsFirst sub))).map (·.2.2)
        let raw := if isHigh then (payloadNums fr 0 8 n).map (fun v => 2 * toSigned 64 v)
          else if hi.isSome then (payloadNums fr 0 8 n).map (fun (v : Nat) => (v : Int)) else partialWords fr n none
        if !residuesOk fr n raw then s.residueFault x c [l]
        else if isHigh then
          s.modChunk x.op c (fun y => { y with high := (p, rsFirst sub, (payloadNums fr 0 8 n).map (toSigned 64)) :: y.high })
        else
          let words := partialWords fr n hi
          let new := words.zipIdx.map (fun v => (l, rsFirst sub + v.2, v.1))
          let s := s.modChunk x.op c (fun y =>
            { y with got := y.got.filter (fun g => !new.any (fun v => decide (v.1 = g.1) && decide (v.2.1 = g.2.1))) ++ new,
                     high := y.high.filter (fun h => !(decide (h.1 = p) && decide (h.2.1 = rsFirst sub))) })
          if adderFault then s.residueFault x c ((y.got.map (·.1)) ++ [l]).eraseDups else s
  | _, _ => s

/-- RED_RESULT of the current collective: written and forwarded; the chunk's partials leave the resend store once all are back
(R316, R317). -/
def State.onResult (s : State) (x : Reduce) (p : Nat) (fr : Frame) : State :=
  let sub := redHead fr
  let c := rsChunk sub
  match x.chunks[c]? with
  | none => s
  | some y =>
    match y.window with
    | none => s
    | some w =>
      if w ≠ rsWexp sub then s.endReduce x.op 1 0x84
      else
        let n := min (4 * (rsCountM1 sub + 1)) (rdCount x.desc c - rsFirst sub)
        let codes := payloadNums fr 0 2 n
        let s := (s.writeResults x c (rsFirst sub) codes).sendResults x c (rsFirst sub) w codes
        let s := s.modChunk x.op c (fun y => { y with written := y.written + n })
        if y.written + n = rdCount x.desc c then
          let z := s.port p
          s.setPort p { z with store := z.store.filter (fun e => !(decide (e.1 = rdCollTag x.desc) && decide (e.2.1 = c))) }
        else s

/-- RED_RESEND: the chunk's frames go again from the resend store (R315). -/
def State.onResend (s : State) (f : FnId) (p : Nat) (fr : Frame) : State :=
  let sub := redHead fr
  match (s.port p).store.find? (fun e => decide (e.1 = rsTag sub) && decide (e.2.1 = rsChunk sub)) with
  | none => s
  | some e =>
    let s := e.2.2.foldl (fun s g => s.sendOn p g) s
    ((s.count (pageStepf f.val + 0x54)).raise (pageStepf f.val) 2).logFn 0x1441 f 0 (rsChunk sub) (rsTag sub)

/-- One frame of the collective that receives on a channel. -/
def State.onRed (s : State) (x : Reduce) (p : Nat) (fr : Frame) (adderFault : Bool) : State :=
  match fhType fr.hdr with
  | 4 => s.onWindow x p fr
  | 5 => s.onPartial x p fr adderFault
  | 6 => s.onResult x p fr
  | _ => s

/-! ## The order of a channel (R318) -/

/-- Frames kept on a channel of a function's ports: port and frame. -/
def State.keptFrames (s : State) (f : FnId) (ch : Nat) : List (Nat × Frame) :=
  (List.range 12).flatMap (fun p => if ((s.fn f).channels p).testBit ch
    then ((s.port p).kept.filter (fun k => decide (k.1 = ch))).map (fun k => (p, k.2)) else [])

/-- They leave the receive buffers. -/
def State.freeKept (s : State) (f : FnId) (ch : Nat) : State :=
  (List.range 12).foldl (fun (s : State) p =>
    let x := s.port p
    let mine := x.kept.filter (fun k => decide (k.1 = ch) && ((s.fn f).channels p).testBit ch)
    let owed := mine.foldl (fun o k => listSet o (poolOf k.2) (fun v => v + frameCredits k.2)) x.owed
    s.setPort p { x with kept := x.kept.filter (fun k => !mine.contains k), owed := owed }) s

/-- Start the first collective of a channel: kept frames are matched against it; the accumulator's shadow side is written; on a
step that is no send step it accumulates and ends. -/
def State.startReduce (s : State) (x : Reduce) : State :=
  let d := x.desc
  let s := s.modReduce x.op (fun x => { x with started := true })
  if !rdSends d then (s.accumulate x).endReduce x.op 7 0
  else
    let s := if rdThinM1 d = 0 then s else s.write (s.writeAddr x.fn (rdAccAddr d)) (List.replicate (rdBytes d) 0)
    let kept := s.keptFrames x.fn (rdChannel d)
    let s := s.freeKept x.fn (rdChannel d)
    let bad := (kept.filter (fun k => decide (rsTag (redHead k.2) ≠ rdCollTag d))).length
    let s := if bad = 0 then s else (s.count (pageStepf x.fn.val + 0x60) bad).endReduce x.op 1 0x83
    let s := kept.foldl (fun (s : State) k => match s.reduce? x.op with
      | some y => if rsTag (redHead k.2) = rdCollTag d ∧ y.ended.isNone then s.onRed y k.1 k.2 false else s
      | none => s) s
    s.pumpReduce x.op

/-- The completion of an ended reduce. -/
def State.closeReduce (s : State) (x : Reduce) (status cause : Nat) : State :=
  let s := { s with reduces := s.reduces.filter (fun y => decide (y.op ≠ x.op)),
                    redDone := (x.fn.val, rdChannel x.desc, rdCollTag x.desc) :: s.redDone }
  match s.op? x.op with
  | none => s
  | some o => if status = 1 then s.fail o cause else s.complete o status 0 0 0

/-- Complete what has ended and start what is first, while there is any. -/
def State.flushChannel (f : FnId) (ch : Nat) : Nat → State → State
  | 0, s => s
  | n + 1, s =>
    match s.channelReduces f ch with
    | [] => s
    | x :: _ =>
      match x.ended with
      | some e => State.flushChannel f ch n (s.closeReduce x e.1 e.2)
      | none => if x.started then s else State.flushChannel f ch n (s.startReduce x)

def State.flush (s : State) (f : FnId) (ch : Nat) : State := State.flushChannel f ch (2 * s.reduces.length + 1) s

/-- Let every started reduce go on, as a lost or a freed port may let it. -/
def State.pumpAll (s : State) : State :=
  s.reduces.foldl (fun (s : State) x => if x.started ∧ x.ended.isNone then (s.pumpReduce x.op).flush x.fn (rdChannel x.desc) else s) s

/-! ## Commands -/

/-- Sources, and both sides of the accumulator, held until completion (R305). -/
def State.reduceHolds (s : State) (f : FnId) (d : Desc) : List (Nat × Nat) :=
  (rdSources d).map (fun a => (s.readAddr f a, rdBytes d))
  ++ (if rdThinM1 d = 0 then [] else [(s.readAddr f (rdAccAddr d), rdAccBytes d), (s.writeAddr f (rdAccAddr d), rdAccBytes d)])

/-- The accumulator, where there is one. -/
def rdAcc (d : Desc) : List (Nat × Nat) := if rdThinM1 d = 0 then [] else [(rdAccAddr d, rdAccBytes d)]

/-- Ranges a reduce reads and writes, by the addresses it names. -/
def rdReads (d : Desc) : List (Nat × Nat) := (rdSources d).map (fun a => (a, rdBytes d)) ++ rdAcc d

def rdWrites (d : Desc) : List (Nat × Nat) := (rdDstAddr d, rdBytes d) :: rdAcc d

/-! ## Waiting before issue (R205, R219, R291, R327) -/

/-- The reads and writes of a collective, by the device addresses it names, wait for pages that are being filled or moved, for
window slots, for stage slots and for a decision. A read that meets poison ends it: no engine is given such data (R233). DEDUCED. -/
def State.gate (s : State) (i : Instr) (o : Op) (reads writes : List (Nat × Nat)) (run : State → State) : State :=
  let f := o.fn
  let real := reads.map (fun r => (s.readAddr f r.1, r.2))
  let dest := writes.map (fun r => (s.writeAddr f r.1, r.2))
  if !(s.oldKeyPages (s.tieredPages f dest)).isEmpty then s.keyWait i o (s.oldKeyPages (s.tieredPages f dest))
  else if (s.tieredPages f (real ++ dest)).any s.pageBusy then (s.wait (pageMemf f.val + 0x5C)).park i o
  else if (s.windowWait? f (reads.flatMap (fun r => if region r.1 = .llm then partsOf r.1 r.2 else []))).isSome then
    (s.winStall f ((s.windowWait? f (reads.flatMap (fun r => if region r.1 = .llm then partsOf r.1 r.2 else []))).getD 0)).park i o
  else if s.stageWait f reads then s.parkStage i o
  else if s.decideHold f (reads ++ writes) then (s.wait (pageStepf f.val + 0x6C)).park i o
  else match real.flatMap (fun r => s.poison.filter (fun b => overlaps r.1 r.2 (64 * b) 64)) with
    | [] => run s
    | b :: _ => s.fail o 0x50 (packDetail [(64, 64 * b)])

def execReduce (q : QueueId) (d : Desc) (s : State) : Host.Outcome State Fault Refusal :=
  .next (s.issue (.reduce q d) (fun o s =>
    if s.reduceCause o ≠ 0 then s.fail o (s.reduceCause o)
    else s.gate (.reduce q d) o (rdReads d) (rdWrites d) (fun s =>
      let s := s.putOp { o with holds := s.reduceHolds o.fn d }
      let n := if rdSends d then rdChunks d else 0
      let x : Reduce := { op := o.ref, fn := o.fn, desc := d, started := false, ended := none, chunks := List.replicate n Chunk.fresh }
      let s := { s with reduces := s.reduces ++ [x],
                        redDone := s.redDone.filter (fun t => decide (t ≠ (o.fn.val, rdChannel d, rdCollTag d))) }
      s.flush o.fn (rdChannel d))))

/-- Function that owns a reduction channel of a port (R266). -/
def State.channelOwner (s : State) (p ch : Nat) : Option FnId :=
  allFns.find? (fun f => decide ((s.fn f).st ≠ .off) && decide ((s.fn f).st ≠ .scrubbing) && ((s.fn f).channels p).testBit ch)

/-- A reduction frame: for the collective that receives on its channel, late, or kept (R318, R320). -/
def State.redArrive (s : State) (p : Nat) (fr : Frame) (type : Nat) (adderFault : Bool) : State :=
  if !s.takes p fr type then s
  else
    let ch := fhChannel fr.hdr
    match s.openFrame fr, s.channelOwner p ch with
    | none, _ => (s.setPort p ((s.port p).accept fr)).sealFail p fr
    | some _, none => s.setPort p ((s.port p).accept fr)
    | some g, some f =>
      let freed := s.setPort p ((s.port p).accept fr)
      if type = 7 then freed.onResend f p g
      else
        match (s.channelReduces f ch).head? with
        | some x =>
          if x.started ∧ rsTag (redHead g) = rdCollTag x.desc then
            ((freed.onRed x p g adderFault).pumpReduce x.op).flush f ch
          else if s.redDone.contains (f.val, ch, rsTag (redHead g)) then freed.count (pageStepf f.val + 0x5C)
          else s.setPort p ((s.port p).keep fr g)
        | none =>
          if s.redDone.contains (f.val, ch, rsTag (redHead g)) then freed.count (pageStepf f.val + 0x5C)
          else s.setPort p ((s.port p).keep fr g)

def execRedWindow (port : PortId) (fr : Frame) (s : State) : Host.Outcome State Fault Refusal := .next (s.redArrive port.val fr 4 false)

def execRedPartial (port : PortId) (fr : Frame) (adderFault : Bool) (s : State) : Host.Outcome State Fault Refusal :=
  .next (s.redArrive port.val fr 5 adderFault)

def execRedResult (port : PortId) (fr : Frame) (s : State) : Host.Outcome State Fault Refusal := .next (s.redArrive port.val fr 6 false)

def execRedResend (port : PortId) (fr : Frame) (s : State) : Host.Outcome State Fault Refusal := .next (s.redArrive port.val fr 7 false)

/-- REDUCE_TIMEOUT: a reduce that no deadline governs, TIMEOUT beats after its issue (R320). -/
def execReduceTimeout (q : QueueId) (opId : BitVec 16) (s : State) : Host.Outcome State Fault Refusal :=
  let due := fun (x : Reduce) (o : Op) => o.named q opId && decide (rdTimeout x.desc ≠ 0) && !s.hasDeadline o
    && decide (o.issued + rdTimeout x.desc ≤ s.beatNow)
  match s.reduces.find? (fun x => (s.op? x.op).any (due x)) with
  | some x => .next ((s.endReduce x.op 1 0x81).flush x.fn (rdChannel x.desc))
  | none => .next s

end Sys2Proof.Machine
end

