-- ==== Sys2Proof/Machine/Jobs.lean ====
section
/-! DEFINITION. The job: its map (R280 to R289), stage queues (R290 to R293), shard gathers (R283 to R286), the scarf (R295 to
R298) and checkpoints (R299 to R301). -/

namespace Sys2Proof.Machine

/-! ## Open step -/

/-- Does a function of a job have an open step: an operation issued in it, or a READY or vote sent (log entry 58)? DEDUCED. -/
def State.stepOpen (s : State) (f : FnId) : Bool := s.mapped f && ((s.fn f).step.issued || (s.fn f).step.sent)

/-! ## set-job-map (R280, R281, R289) -/

/-- Members of a job: the product of its axis lengths (R324). -/
def jmMembers (m : BitVec 512) : Nat := ((List.range 5).map (fun a => coord (jmLenM1 m) a + 1)).foldl (· * ·) 1

/-- The bound that no schedule of the stated budgets can beat, in plan beats (R289). -/
def stageBound (m : BitVec 512) : Nat :=
  let v := jmVstagesM1 m + 1
  let lenP := coord (jmLenM1 m) 2 + 1
  let long := jmLongCount m
  let f := jmFBeats m
  let b := jmBBeats m
  let w := jmWBeats m
  let most := fun (x y : Nat) => if long = 0 then x else max x y
  let work := v * ((jmMicroM1 m + 1 - long) * (f + b + w) + long * (jmLfBeats m + jmLbBeats m + jmLwBeats m))
  let fo := most f (jmLfBeats m)
  let bo := most b (jmLbBeats m)
  let wo := most w (jmLwBeats m)
  if jmSchedule m = 0 then work + (lenP * v - 1) * (fo + bo) else work + (lenP - 1) * (fo + bo + wo)

/-- Is a field of a map outside what Table 12-1 allows? -/
def mapFieldsBad (m : BitVec 512) : Bool :=
  (decide (jmSchedule m = 0) && decide (jmVstagesM1 m ≠ 0))
  || (decide (jmSchedule m = 1) && (decide (jmWBeats m ≠ 0) || decide (jmLwBeats m ≠ 0)))
  || decide (jmMicroM1 m + 1 < jmLongCount m)

/-- Jobs that the other functions of the package take part in. -/
def State.otherJobs (s : State) (f : FnId) : List Nat :=
  ((allFns.filter (fun g => decide (g ≠ f))).flatMap (fun g =>
    let j := (s.fn g).job
    (if j.st ≠ 0 then [jmJobId j.map] else []) ++ (j.pendingMap.map jmJobId).toList)).eraseDups.filter (fun j => decide (j ≠ 0))

/-- Cause of a set-job-map's own checks; a map that removes the function needs no more than its reserved bits to be zero. -/
def State.jobMapCause (s : State) (f : FnId) (m : BitVec 512) : Nat :=
  let others := s.otherJobs f
  let leaves := decide (jmJobId m = 0)
  lowestCause [
    (decide (fld m 511 248 ≠ 0)
      || (!leaves && (decide (jmLenM1 m ≠ s.lenM1) || decide (jmPos m ≠ s.pos) || decide (65536 < jmMembers m) || mapFieldsBad m
        || (decide (4 ≤ others.length) && !others.contains (jmJobId m)))), 0x70),
    (!leaves && decide (jmStepBeats m < stageBound m), 0x71),
    (!leaves && (s.fn f).sec.confidential && decide (256 < jmMembers m), 0xA3)]

/-- Send a JOB_REG to the master and to the backup (R324). -/
def State.sendJobReg (s : State) (m : BitVec 512) (remove : Bool) : State :=
  let msg := jmJobId m + ((jmMembers m - 1) % 2 ^ 16) * 2 ^ 32 + b2n remove * 2 ^ 48
  let s := if s.isMaster || s.isBackup then s.onJobReg msg else s
  ([s.beat.master.toNat, s.beat.backup.toNat].eraseDups.filter (fun c => decide (c ≠ 0xFFFF) && decide (c ≠ s.chip))).foldl
    (fun s c => s.sendMgmt c (leBytes 16 msg)) s

/-- Accept a map: at once where no step is open, else at the next step boundary; a removal always waits for the boundary. -/
def State.acceptMap (s : State) (f : FnId) (m : BitVec 512) : State :=
  if jmJobId m = 0 then
    if s.mapped f then (s.modJob f (fun j => { j with pendingMap := some m })).sendJobReg (s.fn f).job.map true else s
  else if s.stepOpen f then (s.modJob f (fun j => { j with pendingMap := some m })).sendJobReg m false
  else (s.takeMap f m).sendJobReg m false

def execSetJobMap (q : QueueId) (d : Desc) (s : State) : Host.Outcome State Fault Refusal :=
  .next (s.issue (.setJobMap q d) (fun o s =>
    let r := s.recordCause o (ctAddr d) 64
    if r ≠ 0 then s.faultOp o r
    else
      let m := BitVec.ofNat 512 (s.record o 64)
      let c := s.jobMapCause o.fn m
      if c ≠ 0 then s.faultOp o c else (s.acceptMap o.fn m).done o))

/-! ## Stage queues (R290 to R293) -/

def State.stageQ? (s : State) (f : FnId) (q : Nat) : Option StageQ := SMap.get none (s.fn f).job.stages q

def State.putStageQ (s : State) (f : FnId) (q : Nat) (x : StageQ) : State :=
  s.modJob f (fun j => { j with stages := SMap.put none j.stages q (some x) })

/-- Is the BASE of a receiving end wrong: outside the scratchpad or its function's cores, or not the function's to write? -/
def State.stageBaseBad (s : State) (f : FnId) (r : BitVec 256) : Bool :=
  let n := (sqDepthM1 r + 1) * sqSlotBytes r * 128
  if sqEnd r = 1 then false
  else if sqSp r = 1 then
    decide (2 ^ 24 ≤ sqBase r) || !spOk (sqBase r) n || decide ((s.fn f).cores ≤ sqCore r)
  else decide (s.accessCause f (sqBase r) n true ≠ 0)

/-- Is a set-stage-queue refused? -/
def State.stageQueueBad (s : State) (f : FnId) (r : BitVec 256) : Bool :=
  let busy := match s.stageQ? f (sqQid r) with
    | some x => !x.held.isEmpty
    | none => false
  decide (sqDepthM1 r = 0) || decide (fld r 31 18 ≠ 0) || decide (fld r 255 114 ≠ 0) || decide (11 < sqPort r) || busy || s.stepOpen f
    || s.stageBaseBad f r

def execSetStageQueue (q : QueueId) (d : Desc) (s : State) : Host.Outcome State Fault Refusal :=
  .next (s.issue (.setStageQueue q d) (fun o s =>
    let c := s.recordCause o (ctAddr d) 32
    if c ≠ 0 then s.faultOp o c
    else
      let r := BitVec.ofNat 256 (s.record o 32)
      if s.stageQueueBad o.fn r then s.faultOp o 0x74
      else (s.putStageQ o.fn (sqQid r) { record := r, credits := sqDepthM1 r + 1, nextMb := 0, held := [] }).done o))

/-- Send a message to the partner on a port. -/
def State.sendNext (s : State) (f : FnId) (r : OpRef) (p sub : Nat) (body : List Byte) : State :=
  let h := (s.port p).hello
  s.sendMessage f r p (hePos h) (heChip h) sub body

def sgFreeQid (d : Desc) : Nat := fld d 133 128
def sgFreeMb (d : Desc) : Nat := fld d 191 160

/-- stage-free: the slot is free, and its credit goes back to the sending end. -/
def execStageFree (q : QueueId) (d : Desc) (s : State) : Host.Outcome State Fault Refusal :=
  .next (s.issue (.stageFree q d) (fun o s =>
    match s.stageQ? o.fn (sgFreeQid d) with
    | none => s.faultOp o 0x74
    | some x =>
      if sqEnd x.record = 1 then s.faultOp o 0x74
      else if !x.held.contains (sgFreeMb d) then s.refuseOpen o
      else
        let s := s.putStageQ o.fn (sgFreeQid d) { x with held := x.held.filter (fun m => decide (m ≠ sgFreeMb d)) }
        (s.sendNext o.fn o.ref (sqPort x.record) (dataSub (sgFreeQid d) 2 (sgFreeMb d)) []).done o))

def ssBytes (d : Desc) : Nat := (ssBytesM1 d + 1) * 128

/-- Is the send one its queue cannot take: not set, no sending end, out of order, or larger than a slot (Table 12-11)? -/
def stageSendBad (x : Option StageQ) (d : Desc) : Bool :=
  match x with
  | none => true
  | some x => decide (sqEnd x.record = 0) || decide (sqSlotBytes x.record < ssBytesM1 d + 1) || decide (ssMb d ≠ x.nextMb)

/-- Cause of a read of a collective's source, in a scratchpad or at a device address. -/
def State.sourceCause (s : State) (f : FnId) (sp : Bool) (core a n : Nat) : Nat :=
  if sp then lowestCause [(decide (2 ^ 24 ≤ a) || !spOk a n, 0x40), (decide ((s.fn f).cores ≤ core), 0x41)]
  else s.accessCause f a n false

def State.stageSendCause (s : State) (o : Op) : Nat :=
  let d := o.desc
  let f := o.fn
  let x := s.stageQ? f (ssQid d)
  let port := (x.map (fun y => sqPort y.record)).getD 0
  let src := s.sourceCause f (decide (ssSrcSp d = 1)) (ssSrcCore d) (ssSrcAddr d) (ssBytes d)
  let bad := stageSendBad x d
  lowestCause [
    (decide ((s.fn f).job.st = 3), 0x77),
    (bad, 0x74),
    (decide (src ≠ 0), src),
    (decide (ssSrcSp d = 0) && s.epochSpan f (ssSrcAddr d) (ssBytes d), 0x86),
    (!bad && decide ((s.fn f).fabShare port = 0), 0x6B),
    (!bad && !(s.topoOf f).testBit port, 0x68),
    (s.noLinkKey f, 0xA7)]

/-- Memory the send reads: its scratchpad, or its device address in the epoch in force. -/
def State.stageSource (s : State) (f : FnId) (d : Desc) : Option Nat :=
  if ssSrcSp d = 1 then (s.phys? f (ssSrcCore d)).map (fun c => spKey c.val (ssSrcAddr d)) else some (s.readAddr f (ssSrcAddr d))

/-- Bodies of the messages under way that an acknowledgement ends: an operation that sent messages and only waits for them. -/
def State.settleSend (s : State) (o : Op) : State := if s.sending o.ref ∨ o.cause ≠ 0 then s else s.done o

def execStageSend (q : QueueId) (d : Desc) (s : State) : Host.Outcome State Fault Refusal :=
  .next (s.issue (.stageSend q d) (fun o s =>
    let f := o.fn
    let cause := s.stageSendCause o
    if cause ≠ 0 then s.fail o cause
    else
      match s.stageQ? f (ssQid d), s.stageSource f d with
      | some x, some a =>
        if decide (ssSrcSp d = 1) && s.moving f (ssSrcCore d) then s.park (.stageSend q d) o
        else if x.credits = 0 then
          ((s.wait (pageJobf f.val + 0x100 + 4 * ssQid d)).wait (pageJobf f.val + 0x4C)).park (.stageSend q d) o
        else if s.stageWait f [(a, ssBytes d)] then s.parkStage (.stageSend q d) o
        else s.gate (.stageSend q d) o (if ssSrcSp d = 1 then [] else [(ssSrcAddr d, ssBytes d)]) [] (fun s =>
          let body := s.bytes a (ssBytes d)
          let s := s.putStageQ f (ssQid d) { x with credits := x.credits - 1, nextMb := x.nextMb + 1 }
          let s := s.sendNext f o.ref (sqPort x.record) (dataSub (ssQid d) 1 (ssMb d)) body
          s.settleSend o)
      | _, _ => s.complete o 4 0 0 0))

/-! ## Shard gather (R283 to R286) -/

def sgBytes (d : Desc) : Nat := (sgShardM1 d + 1) * 128

/-- Position of a rank of a cut, seen from a position (Table 12-2). -/
def rankPos (lenM1 pos : Nat) (axes : List Nat) (r : Nat) : Nat :=
  match axes with
  | [a] => withCoord pos a r
  | [a, b] => let la := coord lenM1 a + 1; withCoord (withCoord pos a (r % la)) b (r / la)
  | _ => pos

/-- Rank of a position in a cut. -/
def posRank (lenM1 pos : Nat) (axes : List Nat) : Nat :=
  match axes with
  | [a] => coord pos a
  | [a, b] => coord pos a + (coord lenM1 a + 1) * coord pos b
  | _ => 0

/-- Number of members, and own rank. -/
def State.cut (s : State) (f : FnId) (d : Desc) : Nat × Nat :=
  let m := (s.fn f).job.map
  let axes := axesOf (sgAxes d)
  (cutSize (jmLenM1 m) axes, posRank (jmLenM1 m) (jmPos m) axes)

/-- The other members: rank and position. -/
def State.cutOthers (s : State) (f : FnId) (d : Desc) : List (Nat × Nat) :=
  let m := (s.fn f).job.map
  let c := s.cut f d
  ((List.range c.1).filter (fun r => decide (r ≠ c.2))).map (fun r => (r, rankPos (jmLenM1 m) (jmPos m) (axesOf (sgAxes d)) r))

/-- What names a shard within its job: the gather's AXES, TAG_SLOT and CHECK, and the sender's rank (log entry 56). -/
def shardName (d : Desc) (rank : Nat) : Nat := sgAxes d + sgTagSlot d * 2 ^ 3 + sgCheck d * 2 ^ 13 + rank * 2 ^ 14

/-- CRC-64 of R284. -/
def crc64Bit (c : Nat) : Nat := if 2 ^ 63 ≤ c then ((2 * c) % 2 ^ 64) ^^^ 0x42F0E1EBA9EA3693 else 2 * c

def crc64Byte (c : Nat) (b : Byte) : Nat := Nat.repeat crc64Bit 8 (c ^^^ (b.toNat * 2 ^ 56))

def crc64 (bs : List Byte) : Nat := bs.foldl crc64Byte 0

/-- The shards of a gather that have arrived, own one among them, by rank. -/
def State.shards (s : State) (f : FnId) (d : Desc) : List (Nat × Mail) :=
  let job := jmJobId (s.fn f).job.map
  (List.range (s.cut f d).1).filterMap (fun r =>
    (s.mail.find? (fun m => decide (m.kind = 0) && decide (m.job = job) && decide (m.name = shardName d r))).map (fun m => (r, m)))

/-- Where rank r's shard is placed. -/
def State.shardKeys (s : State) (f : FnId) (d : Desc) (r : Nat) : List Nat :=
  let off := sgDstAddr d + r * sgBytes d
  if sgDstSp d = 1 then (setBits 20 (sgDstCores d)).filterMap (fun l => (s.phys? f l).map (fun c => spKey c.val off))
  else [s.writeAddr f off]

/-- Place the shards that have arrived. -/
def State.placeShards (s : State) (f : FnId) (d : Desc) : State :=
  (s.shards f d).foldl (fun (t : State) x => (s.shardKeys f d x.1).foldl (fun t a => t.write a (x.2.body.take (sgBytes d))) t) s

/-- A gather's shards leave the store. -/
def State.dropShards (s : State) (f : FnId) (d : Desc) : State :=
  (s.shards f d).foldl (fun (t : State) x => { t with mail := (takeFirst (fun m => decide (m = x.2)) t.mail).2 }) s

/-- A SHARD_VERSION completion (R286). -/
def State.shardVersion (s : State) (o : Op) (detail : Nat) : State :=
  (((s.dropShards o.fn o.desc).count (pageJobf o.fn.val + 0x48)).raise (pageJobf o.fn.val) 0).fail o 0x72 detail

/-- Record or compare the tag of a gather whose shards are all there (R284 to R286). -/
def State.endGather (s : State) (o : Op) (tag : Nat) : State :=
  let f := o.fn
  let d := o.desc
  let slot := SMap.get 0 (s.fn f).job.tags (sgTagSlot d)
  if sgCheck d = 0 then
    if slot ≠ 0 then (s.dropShards f d).fail o 0x73
    else ((s.dropShards f d).modJob f (fun j => { j with tags := SMap.put 0 j.tags (sgTagSlot d) (tag + 2 ^ 128) })).done o
  else if slot = 0 then (s.dropShards f d).fail o 0x73
  else if slot % 2 ^ 128 ≠ tag then
    s.shardVersion o (packDetail [(64, slot), (64, slot / 2 ^ 64), (64, tag), (64, tag / 2 ^ 64)])
  else (s.dropShards f d).done o

/-- Let a gather in flight do what it can. -/
def State.settleGather (s : State) (o : Op) : State :=
  let f := o.fn
  let d := o.desc
  let xs := s.shards f d
  let s := s.placeShards f d
  let step := (s.fn f).step.step.toNat
  if xs.any (fun x => decide (x.2.version ≠ step)) then s.shardVersion o 0
  else if xs.length = (s.cut f d).1 ∧ !s.sending o.ref ∧ o.cause = 0 then
    s.endGather o (step + crc64 (xs.flatMap (fun x => x.2.body.take (sgBytes d))) * 2 ^ 64)
  else s

/-- Descriptor in front of a shard or a piece: job, name and version (log entry 56). DESIGN CHOICE. -/
def mailHead (job name version : Nat) : List Byte := leBytes 32 (job % 2 ^ 32 + (name % 2 ^ 64) * 2 ^ 32 + (version % 2 ^ 64) * 2 ^ 128)

/-- Port of a route for one message: the ports of a doubled direction alternate, message by message (R276). -/
def State.routePort (s : State) (f : FnId) (pos id : Nat) : Option Nat :=
  match s.route (s.topoOf f) pos with
  | some (p :: ps) => (p :: ps)[id % (ps.length + 1)]?
  | _ => none

/-- Send one message to a position on its route, under the next message id. -/
def State.post (s : State) (o : Op) (pos addr kind : Nat) (body : List Byte) : State :=
  match s.routePort o.fn pos s.nextMsg with
  | some p =>
    let sub := dataSub addr kind s.nextMsg
    { s with nextMsg := (s.nextMsg + 1) % 2 ^ 32 }.sendMessage o.fn o.ref p pos (s.chipAtPos pos) sub body
  | none => s

/-- Complete with a fault whose cause the manual does not give (log entry 39). -/
def State.failOpen (s : State) (o : Op) : State := let (c, s) := s.draw; s.fail o (c % 256)

/-- Does no path lead to one of some positions, or one through a port outside the function's share? -/
def State.pathless (s : State) (f : FnId) (ps : List Nat) : Bool := ps.any (fun p => decide (s.route (s.topoOf f) p = some []))

def State.unshared (s : State) (f : FnId) (ps : List Nat) : Bool :=
  ps.any (fun p => ((s.route (s.topoOf f) p).getD []).any (fun x => decide ((s.fn f).fabShare x = 0)))

/-- Ranges a gather reads and writes by device address. -/
def State.gatherDst (s : State) (f : FnId) (d : Desc) : List (Nat × Nat) :=
  if sgDstSp d = 1 then [] else [(sgDstAddr d, sgBytes d * (s.cut f d).1)]

def State.shardCause (s : State) (o : Op) : Nat :=
  let d := o.desc
  let f := o.fn
  let n := sgBytes d * (s.cut f d).1
  let others := (s.cutOthers f d).map (·.2)
  let src := s.accessCause f (sgSrcAddr d) (sgBytes d) false
  let dst := if sgDstSp d = 1 then
      lowestCause [(decide (2 ^ 24 ≤ sgDstAddr d) || !spOk (sgDstAddr d) n, 0x40),
        (decide (sgDstCores d = 0) || decide (2 ^ (s.fn f).cores ≤ sgDstCores d), 0x41)]
    else s.accessCause f (sgDstAddr d) n true
  let keys := (List.range (s.cut f d).1).flatMap (fun r => s.shardKeys f d r)
  let cause := lowestCause [
    (decide ((s.fn f).job.st = 3), 0x77),
    (decide (src ≠ 0), src),
    (decide (dst ≠ 0), dst),
    (s.epochSpan f (sgSrcAddr d) (sgBytes d) || (s.gatherDst f d).any (fun r => s.epochSpan f r.1 r.2), 0x86),
    (s.pathless f others, 0x68),
    (s.unshared f others, 0x6B),
    (s.noLinkKey f, 0xA7)]
  if cause ≠ 0 then cause else if keys.any (fun a => s.heldBy f (some o.ref) a (sgBytes d)) then 0x0E else 0

def execShardGather (q : QueueId) (d : Desc) (s : State) : Host.Outcome State Fault Refusal :=
  .next (s.issue (.shardGather q d) (fun o s =>
    let f := o.fn
    if (axesOf (sgAxes d)).isEmpty ∨ (s.fn f).job.st = 0 then s.failOpen o
    else
      let cause := s.shardCause o
      if cause ≠ 0 then s.fail o cause
      else if sgDstSp d = 1 ∧ (setBits 20 (sgDstCores d)).any (fun l => (s.phys? f l).isNone) then s.complete o 4 0 0 0
      else if sgDstSp d = 1 ∧ (setBits 20 (sgDstCores d)).any (s.moving f) then s.park (.shardGather q d) o
      else s.gate (.shardGather q d) o [(sgSrcAddr d, sgBytes d)] (s.gatherDst f d) (fun s =>
        let src := s.readAddr f (sgSrcAddr d)
        let fills := s.tieredPages f ((s.gatherDst f d).map (fun r => (s.writeAddr f r.1, r.2)))
        let pages := (s.tieredPages f [(src, sgBytes d)] ++ fills).eraseDups
        let o := { o with pages := pages, fills := fills }
        let s := (s.markPages pages fills).putOp o
        let body := s.bytes src (sgBytes d)
        let rank := (s.cut f d).2
        let job := jmJobId (s.fn f).job.map
        let ver := (s.fn f).step.step.toNat
        let own : Mail := { kind := 0, job := job, name := shardName d rank, version := ver, body := body }
        let s := { s with mail := s.mail ++ [own] }
        let s : State := (s.cutOthers f d).foldl (fun s x =>
          s.post o x.2 (sgDstAddr d + rank * sgBytes d) 0 (mailHead job (shardName d rank) ver ++ body)) s
        s.settleGather o)))

/-! ## The scarf (R295 to R298) -/

/-- Does one of two pieces overlap the other? -/
def Piece.meets (a b : Piece) : Bool := overlaps a.addr a.bytes b.addr b.bytes

/-- Does any pair of a list, earlier and later, satisfy a test? -/
def anyPair {α : Type} (p : α → α → Bool) : List α → Bool
  | [] => false
  | x :: xs => xs.any (p x) || anyPair p xs

def sfBytes (d : Desc) : Nat := sfRegionLen d * 128

/-- Does a piece table break R296? -/
def tableBad (d : Desc) (ps : List Piece) : Bool :=
  let outs := ps.filter (fun p => !p.incoming)
  let ins := ps.filter (fun p => p.incoming)
  let clash := fun (a b : Piece) => a.meets b || decide (a.id = b.id)
  ps.any (fun p => p.reserved || decide (sfRoundsM1 d < p.round) || decide (p.addr < sfRegion d)
    || decide (sfRegion d + sfBytes d < p.addr + p.bytes))
  || anyPair clash outs || anyPair clash ins
  || ins.any (fun a => outs.any (fun b => decide (a.round < b.round) && a.meets b))
  || (List.range (sfRoundsM1 d + 1)).any (fun r =>
      decide ((sfStagePartsM1 d + 1) * 2 ^ 25 < sumNat ((outs.filter (fun p => decide (p.round = r))).map (·.bytes))))

/-- Staging partitions. -/
def sfParts (d : Desc) : List Nat := (List.range (sfStagePartsM1 d + 1)).map (· + sfStagePart d)

def State.scarfCause (s : State) (o : Op) (ps : List Piece) : Nat :=
  let d := o.desc
  let f := o.fn
  let region := lowestCause [(decide (region (sfRegion d) = .companion), 0x42),
    (let c := s.accessCause f (sfRegion d) (sfBytes d) true; (decide (c ≠ 0), c))]
  let partners := ps.map (·.partner)
  let cause := lowestCause [
    (decide ((s.fn f).job.st = 3), 0x77),
    (!spOk (sfPieceAddr d) (16 * (sfPiecesM1 d + 1)), 0x40),
    (decide ((s.fn f).cores ≤ sfPcore d), 0x41),
    (decide (region ≠ 0), region),
    ((sfParts d).any (fun p => !s.hasPart f p || decide (64 ≤ p)), 0x42),
    ((sfParts d).any (fun p => s.hasPart f p && decide ((s.part p).mode ≠ 0)), 0x48),
    (tableBad d ps, 0x75),
    (s.epochSpan f (sfRegion d) (sfBytes d), 0x86),
    (s.pathless f partners, 0x68),
    (s.unshared f partners, 0x6B),
    (s.noLinkKey f, 0xA7)]
  let staging := (llmAddr (sfStagePart d) 0, (sfStagePartsM1 d + 1) * 2 ^ 25)
  if cause ≠ 0 then cause
  else if s.heldBy f (some o.ref) (s.writeAddr f (sfRegion d)) (sfBytes d) || s.heldBy f (some o.ref) staging.1 staging.2 then 0x0E
  else 0

/-- Name of a piece's message: PIECE_ID and ROUND. -/
def pieceName (p : Piece) : Nat := p.id + p.round * 2 ^ 24

/-- Read the outgoing pieces of a round into staging and send each. A piece for this package itself arrives at once. -/
def State.startRound (s : State) (o : Op) (r : Nat) : State :=
  let f := o.fn
  let d := o.desc
  let job := jmJobId (s.fn f).job.map
  let outs := (s.pieces f d).filter (fun p => !p.incoming && decide (p.round = r))
  let bodies := outs.map (fun p => (p, s.bytes (s.readAddr f p.addr) p.bytes))
  let s := s.write (llmAddr (sfStagePart d) 0) (bodies.flatMap (·.2))
  bodies.foldl (fun (s : State) x =>
    if x.1.partner = s.pos then
      { s with mail := s.mail ++ [{ kind := 3, job := job, name := pieceName x.1, version := 0, body := x.2 }] }
    else s.post o x.1.partner x.1.addr 3 (mailHead job (pieceName x.1) 0 ++ x.2)) s

/-- The first piece message of the present round or of one before it. -/
def State.pieceMail (s : State) (f : FnId) (z : Scarf) : Option Mail :=
  let job := jmJobId (s.fn f).job.map
  s.mail.find? (fun m => decide (m.kind = 3) && decide (m.job = job) && (decide (m.name / 2 ^ 24 ≤ z.round) || decide (sfRoundsM1 z.desc < m.name / 2 ^ 24)))

/-- Write incoming pieces of the present round as their messages come; one the table does not name ends the scarf. -/
def State.settleScarf (f : FnId) : Nat → State → State
  | 0, s => s
  | n + 1, s =>
    match (s.fn f).job.scarf with
    | none => s
    | some z =>
      match s.op? z.op, s.pieceMail f z with
      | some o, some m =>
        let s := { s with mail := (takeFirst (fun x => decide (x = m)) s.mail).2 }
        match (s.pieces f z.desc).find? (fun p => p.incoming && decide (p.round = z.round) && decide (pieceName p = m.name)
            && decide (p.bytes = m.body.length)) with
        | some p =>
          if z.written.contains p.id then s.fail o 0x76
          else
            let s := s.write (s.writeAddr f p.addr) m.body
            State.settleScarf f n (s.modJob f (fun j => { j with scarf := some { z with written := p.id :: z.written } }))
        | none => s.fail o 0x76
      | _, _ => s

def State.pumpScarf (s : State) (f : FnId) : State := State.settleScarf f (s.mail.length + 1) s

def execScarf (q : QueueId) (d : Desc) (s : State) : Host.Outcome State Fault Refusal :=
  .next (s.issue (.scarf q d) (fun o s =>
    let f := o.fn
    if (s.fn f).job.st = 0 then s.failOpen o
    else if sfPcore d < (s.fn f).cores ∧ (s.phys? f (sfPcore d)).isNone then s.complete o 4 0 0 0
    else
      let cause := s.scarfCause o (s.pieces f d)
      if cause ≠ 0 then s.fail o cause
      else if s.moving f (sfPcore d) then s.park (.scarf q d) o
      else s.gate (.scarf q d) o [(sfRegion d, sfBytes d)] [(sfRegion d, sfBytes d)] (fun s =>
        let table := (s.phys? f (sfPcore d)).map (fun c => (spKey c.val (sfPieceAddr d), 16 * (sfPiecesM1 d + 1)))
        let staging := (llmAddr (sfStagePart d) 0, (sfStagePartsM1 d + 1) * 2 ^ 25)
        let region := [(s.readAddr f (sfRegion d), sfBytes d), (s.writeAddr f (sfRegion d), sfBytes d)]
        let s := s.putOp { o with holds := region ++ table.toList ++ [staging] }
        let z : Scarf := { op := o.ref, desc := d, round := 0, written := [], done := false }
        let s := s.modJob f (fun j => { j with st := 2, scarf := some z })
        (s.startRound o 0).pumpScarf f)))

/-- Has the present round ended: its incoming pieces are written and its messages delivered? -/
def State.roundDone (s : State) (f : FnId) (z : Scarf) : Bool :=
  ((s.pieces f z.desc).filter (fun p => p.incoming && decide (p.round = z.round))).all (fun p => z.written.contains p.id)
    && !s.sending z.op

/-- SCARF_ROUND: the next round starts, or after the last one the package sends its ready report (R297). -/
def execScarfRound (f : FnId) (s : State) : Host.Outcome State Fault Refusal :=
  match (s.fn f).job.scarf with
  | none => .next s
  | some z =>
    match s.op? z.op with
    | none => .next s
    | some o =>
      if z.done || !s.roundDone f z || decide (o.cause ≠ 0) then .next s
      else if z.round = sfRoundsM1 z.desc then
        .next ((s.modJob f (fun j => { j with scarf := some { z with done := true } })).sendReady f)
      else
        let s := s.modJob f (fun j => { j with scarf := some { z with round := z.round + 1, written := [] } })
        .next ((s.startRound o (z.round + 1)).pumpScarf f)

/-! ## Messages and acknowledgements -/

/-- A collective that waits for its messages or for others' goes on as far as it can. -/
def State.settleOp (s : State) (o : Op) : State :=
  if hdClass o.desc ≠ 4 ∨ o.stage ≠ .inflight then s
  else if hdOp o.desc = 3 then s.settleGather o
  else if hdOp o.desc = 4 then s.settleSend o
  else s

/-- Every one of them; a message that is no longer under way is forgotten. -/
def State.settleAll (s : State) : State :=
  let s := { s with outbox := s.outbox.filter s.underway }
  let s : State := s.ops.foldl (fun s o => match s.op? o.ref with
    | some x => s.settleOp x
    | none => s) s
  allFns.foldl (fun s f => if (s.fn f).job.scarf.isSome then s.pumpScarf f else s) s

/-- Function at an end of a stage queue that reaches its partner through a port (log entry 56). -/
def State.stageEnd (s : State) (p qid endCode : Nat) : Option (FnId × StageQ) :=
  allFns.findSome? (fun f => match s.stageQ? f qid with
    | some x => if sqPort x.record = p ∧ sqEnd x.record = endCode then some (f, x) else none
    | none => none)

/-- A stage message lands in slot MB mod DEPTH. -/
def State.landStage (s : State) (f : FnId) (x : StageQ) (mb : Nat) (body : List Byte) : State :=
  let r := x.record
  let off := sqBase r + mb % (sqDepthM1 r + 1) * sqSlotBytes r * 128
  let key := if sqSp r = 1 then (s.phys? f (sqCore r)).map (fun c => spKey c.val off) else some (s.writeAddr f off)
  let s := s.putStageQ f (sqQid r) { x with held := x.held ++ [mb] }
  match key with
  | some a => s.write a (body.take (sqSlotBytes r * 128))
  | none => s

/-- A whole DATA message has arrived for this package. -/
def State.onMessage (s : State) (p sub : Nat) (bytes : List Byte) : State :=
  let name := ofBytes ((bytes.drop 4).take 8)
  let version := ofBytes ((bytes.drop 16).take 8)
  let m : Mail := { kind := dsKind sub, job := ofBytes (bytes.take 4), name := name, version := version, body := bytes.drop 32 }
  let store : State := { s with mail := s.mail ++ [m] }
  if dsKind sub = 1 then
    match s.stageEnd p (dsAddr sub) 0 with
    | some (f, x) => s.landStage f x (dsId sub) bytes
    | none => s
  else if dsKind sub = 2 then
    match s.stageEnd p (dsAddr sub) 1 with
    | some (f, x) => s.putStageQ f (dsAddr sub) { x with credits := min (x.credits + 1) (sqDepthM1 x.record + 1) }
    | none => s
  else if (s.jobFns m.job).isEmpty then s
  else store.settleAll

/-! ## Checkpoints (R299 to R301) -/

/-- Cause of a save's checks: the list in a scratchpad, its regions to read, the range of entries, the record to write. -/
def State.saveCause (s : State) (o : Op) (list : List (Nat × Nat × Nat)) : Nat :=
  let d := o.desc
  let f := o.fn
  let first := fld d 175 164
  let count := fld d 188 176
  let n := (256 + 32 * list.length + 128 * count + 127) / 128 * 128 + sumNat (list.map (fun r => (r.2.1 + 127) / 128 * 128))
  let base := lowestCause [(decide (region (ctAddr d) ≠ .companion), 0x42), (let c := s.ctlWriteCause o (ctAddr d) n; (decide (c ≠ 0), c))]
  lowestCause ([
    (decide (ctAddr d % 64 ≠ 0) || decide (4096 < count), 0xC0),
    (decide (base ≠ 0), base),
    (!spOk (ckOff d) (16 * ckRegions d), 0x40),
    (decide (count ≠ 0) && ((s.fn f).watchEntry? (first + count - 1)).isNone, 0x38)]
    ++ list.flatMap (fun r => let c := s.accessCause f r.1 r.2.1 false
      [(decide (c ≠ 0), c), (s.epochSpan f r.1 r.2.1, 0x86)]))

def execSaveCheckpoint (q : QueueId) (d : Desc) (s : State) : Host.Outcome State Fault Refusal :=
  .next (s.issueOnCore (.saveCheckpoint q d) (fun c o s =>
    let cause := s.saveCause o (s.regionList (spKey c.val (ckOff d)) (ckRegions d))
    if cause ≠ 0 then s.faultOp o cause
    else if s.stepOpen o.fn then
      if (s.fn o.fn).job.save.isSome then s.park (.saveCheckpoint q d) o
      else s.modJob o.fn (fun j => { j with save := some (o.ref, d) })
    else s.runSave o d))

/-! Fields of a checkpoint header (Table 12-8). -/
def chStep (h : Nat) : Nat := field h 127 64
def chRegions (h : Nat) : Nat := field h 223 208
def chWatch (h : Nat) : Nat := field h 236 224

/-- Does a header fail: version, COMMIT, counts, job, reserved bits (R301, R431)? -/
def headerBad (h regions job : Nat) : Bool :=
  decide (field h 15 0 ≠ 1) || decide (field h 2047 1984 ≠ chStep h % 2 ^ 32 + chRegions h * 2 ^ 32 + 0xC7A1 * 2 ^ 48)
  || decide (chRegions h ≠ regions) || (decide (field h 63 32 ≠ 0) && decide (field h 63 32 ≠ job))
  || decide (field h 31 22 ≠ 0) || decide (field h 255 237 ≠ 0) || decide (field h 1983 1024 ≠ 0) || decide (4096 < chWatch h)

/-- A region entry: bytes, offset, CRC, and whether a reserved bit is set (Table 12-9). -/
def regionEntry (e : Nat) : Nat × Nat × Nat × Bool :=
  (field e 111 64, field e 159 112, field e 223 192, decide (field e 63 44 ≠ 0) || decide (field e 255 224 ≠ 0))

/-- Region entries of a record. -/
def State.regionEntries (s : State) (base n : Nat) : List (Nat × Nat × Nat × Bool) :=
  (List.range n).map (fun i => regionEntry (s.nat (base + 256 + 32 * i) 32))

/-- Both sides of what a range names, where a pair stands for it. -/
def State.bothSides (s : State) (f : FnId) (a : Nat) : List Nat := [s.readAddr f a, s.writeAddr f a].eraseDups

/-- End of a record: its last region's end. -/
def recordEnd (regions watch : Nat) (es : List (Nat × Nat × Nat × Bool)) : Nat :=
  es.foldl (fun m e => max m (e.2.1 + (e.1 + 127) / 128 * 128)) ((256 + 32 * regions + 128 * watch + 127) / 128 * 128)

/-- Cause of a restore's checks before anything is written. -/
def State.restoreCause (s : State) (o : Op) (dests : List (Nat × Nat × Nat)) : Nat :=
  let d := o.desc
  let f := o.fn
  let base := s.readAddr f (ctAddr d)
  let n := ckRegions d
  let r := s.recordCause o (ctAddr d) (256 + 32 * n)
  let c := lowestCause ([(decide (r ≠ 0), r), (!spOk (ckOff d) (16 * n), 0x40)]
    ++ dests.flatMap (fun t => let w := s.ctlWriteCause o t.1 t.2.1
      [(decide (w ≠ 0), w), (s.epochSpan f t.1 t.2.1, 0x86)]))
  if c ≠ 0 then c
  else
    let h := s.nat base 256
    let es := s.regionEntries base n
    let job := if s.mapped f then jmJobId (s.fn f).job.map else 0
    let all := s.opAccess o (ctAddr d) (recordEnd n (chWatch h) es) false
    lowestCause [
      (headerBad h n job || (es.zip dests).any (fun x => decide (x.1.1 ≠ x.2.2.1) || x.1.2.2.2), 0x79),
      (decide (all ≠ 0), all),
      (flag d 164 && decide (chWatch h ≠ 0) && ((s.fn f).watchEntry? (fld d 176 165 + chWatch h - 1)).isNone, 0x38)]

/-- Load the watch entries of a record as load-history does (R192). -/
def State.loadWatch (s : State) (f : FnId) (first n base : Nat) : State :=
  (List.range n).foldl (fun (t : State) i => match (s.fn f).watchEntry? (first + i) with
    | some a => t.watchWrite a (loadEntry (BitVec.ofNat 1024 (s.nat (base + 128 * i) 128)) (t.watchRead a))
    | none => t) s

/-- The state of the function after a restore that succeeds: S is STEP, the seed is SEED, E is 0, and a job mapped anew is whole. -/
def State.restored (s : State) (f : FnId) (h : Nat) : State :=
  let s := s.modStep f (fun st => { st with step := BitVec.ofNat 64 (chStep h), epoch := false })
  let s := s.modFn f (fun x => { x with seed := BitVec.ofNat 64 (field h 191 128) })
  s.modJob f (fun j => if j.st = 3 ∧ j.remapped then { j with st := if jmJobId j.map = 0 then 0 else 1 } else j)

/-- Copy the regions, check them, and take the step. -/
def State.runRestore (s : State) (o : Op) (dests : List (Nat × Nat × Nat)) : State :=
  let f := o.fn
  let d := o.desc
  let base := s.readAddr f (ctAddr d)
  let h := s.nat base 256
  let n := ckRegions d
  let es := s.regionEntries base n
  let bodies := es.map (fun e => s.bytes (base + e.2.1) e.1)
  let rest := s.bytes (base + 256) (recordEnd n (chWatch h) es - 256)
  let good := (es.zip bodies).all (fun x => decide (crc32c x.2 = x.1.2.2.1))
    && decide (Config.shake256 rest 256 % 2 ^ 256 = field h 1023 768)
  if !good then
    (dests.foldl (fun (t : State) x => (s.bothSides f x.1).foldl (fun t a => t.scramble a x.2.1) t) s).faultOp o 0x78
  else
    let s : State := (dests.zip bodies).foldl (fun (t : State) x => (s.bothSides f x.1.1).foldl (fun t a => t.write a x.2) t) s
    let s := if flag d 164 then s.loadWatch f (fld d 176 165) (chWatch h) (base + 256 + 32 * n) else s
    (s.restored f h).done o

def execRestoreCheckpoint (q : QueueId) (d : Desc) (s : State) : Host.Outcome State Fault Refusal :=
  .next (s.issueOnCore (.restoreCheckpoint q d) (fun c o s =>
    let dests := s.regionList (spKey c.val (ckOff d)) (ckRegions d)
    let cause := s.restoreCause o dests
    if cause ≠ 0 then s.faultOp o cause
    else if s.decideHold o.fn (dests.map (fun x => (x.1, x.2.1))) then (s.wait (pageStepf o.fn.val + 0x6C)).park (.restoreCheckpoint q d) o
    else s.runRestore o dests))

end Sys2Proof.Machine
end

