-- ==== Sys2Proof/Machine/Fabric.lean ====
section
/-! DEFINITION. The fabric ports: link control (R263, R264), training and loss (R259, R260), hello and discovery (R271 to R274),
DATA frames delivered or forwarded (R265), and frames that are dropped (R261). -/

namespace Sys2Proof.Machine

/-! ## LCTRL (R263, R264; layout: log entry 57) -/

def lcAck {n : Nat} (d : BitVec n) : Nat := fld d 11 0
def lcNak {n : Nat} (d : BitVec n) : Bool := flag d 12
def lcSeq {n : Nat} (d : BitVec n) : Nat := fld d 27 16
def lcCredit {n : Nat} (d : BitVec n) (i : Nat) : Nat := fld d (12 * i + 39) (12 * i + 28)

/-- The LCTRL a port sends: last SEQ delivered, NAK, SEQ expected, credits returned. DESIGN CHOICE. -/
def Port.control (x : Port) : BitVec 256 :=
  BitVec.ofNat 256 ((x.rxSeq + 4095) % 4096 + b2n x.nak * 2 ^ 12 + x.rxSeq % 4096 * 2 ^ 16
    + (x.owed.foldr (fun c acc => min c 4095 + acc * 2 ^ 12) 0) * 2 ^ 28)

/-- Send it: the credits it returns are no longer owed. -/
def Port.sendControl (x : Port) : Port := { x with ctrl := x.control, owed := x.owed.map (fun c => c - 4095) }

/-- Is a frame acknowledged by a SEQ: not after it, in the half of the numbers that lies behind it? -/
def ackedBy (ack : Nat) (f : Frame) : Bool := decide ((ack + 4096 - fhSeq f.hdr) % 4096 < 2048)

/-- Acknowledged frames leave the replay buffer, and returned credits add up to no more than the initial ones. -/
def Port.takeControl (x : Port) (d : BitVec 256) : Port :=
  let left := x.replay.dropWhile (ackedBy (lcAck d))
  let freed := decide (left.length < x.replay.length)
  { x with replay := left, replays := if freed then 0 else x.replays,
           credits := x.credits.mapIdx (fun i c => min (c + lcCredit d i) (initialCredits.getD i 0)) }

/-- A port's queued frames leave as far as they can. -/
def State.drain (s : State) (p : Nat) : State := s.setPort p (drainQueued ((s.port p).queued.length) (s.port p))

/-! ## A link that is lost (R260, R270, R274) -/

/-- Own fields of HELLO have changed: a HELLO goes out at once (R271). -/
def State.helloIfChanged (s : State) (before : State) : State :=
  if (s.helloFields 0) = (before.helloFields 0) then s else s.sendHellos

/-- A member enters holdover (R44). -/
def State.enterHoldover (s : State) : State :=
  if s.beat.holdover then s
  else ({ s with beat := { s.beat with holdover := true } }.raise pageBeat 0).logPkg 0x9302 0 (s.beatNow - s.beat.sinceSync) 0

/-- A partner is no longer one: its event, and the tree without it; a member without a parent runs in holdover (R270). -/
def State.losePartner (s : State) (p chip : Nat) : State :=
  let lost := s.beat.parent.map (·.val) = some p
  let s := ((s.raise (pageFab p) 1).logPkg 0x9282 p chip 0).rebuildTree
  if lost ∧ s.beat.parent.isNone ∧ !s.isMaster then s.enterHoldover else s

/-- Messages of an operation were lost with a link: a deadline ends it, or without one FAB_LINK_LOST at once (R274). -/
def State.loseMessages (s : State) (o : Op) : State :=
  if s.hasDeadline o then s.putOp { o with cause := 0x6A } else s.fail o 0x6A

/-- The port as training starts: no partner, empty buffers, initial credits. -/
def Port.lost (x : Port) : Port :=
  { x with st := 1, width := 0, mismatch := 0, hello := 0, helloCount := 0, txSeq := 0, replay := [], rxSeq := 0, nak := false, replays := 0,
           credits := initialCredits, owed := List.replicate 19 0, kept := [], queued := [] }

/-- A port loses its link, for a fault or because a retrain is ordered. -/
def State.dropLink (s : State) (p : Nat) : State :=
  let x := s.port p
  let gone : List OpRef := (s.outbox.filter (fun o => decide (o.port = p) && s.underway o)).map (·.op)
  let before := s
  let chip := heChip x.hello
  let s := (s.setPort p x.lost)
  let s := { s with outbox := s.outbox.filter s.underway }
  let s := if x.st = 3 then s.losePartner p chip else s
  let s : State := (before.ops.filter (fun o => gone.contains o.ref && decide (hdClass o.desc = 4))).foldl (fun s o => s.loseMessages o) s
  (s.settleAll.pumpAll).helloIfChanged before

/-- A link is lost (R260). -/
def State.loseLink (s : State) (p : Nat) : State := (s.count (pageFab p + 0x64)).dropLink p

def execFabricLinkLost (port : PortId) (s : State) : Host.Outcome State Fault Refusal :=
  if 2 ≤ (s.port port.val).st then .next (s.loseLink port.val) else .next s

/-- Resend from the SEQ asked for; a frame replayed eight times without acknowledgement loses the link. -/
def State.goBack (s : State) (p seq : Nat) : State :=
  let x := s.port p
  let n := (x.replay.dropWhile (fun f => decide (fhSeq f.hdr ≠ seq))).length
  if n = 0 then s
  else
    let s := (s.setPort p { x with replays := x.replays + 1 }).count (pageFab p + 0x60) n
    if 8 ≤ x.replays + 1 then s.loseLink p else s

def execLctrl (port : PortId) (payload : BitVec 256) (s : State) : Host.Outcome State Fault Refusal :=
  let p := port.val
  if (s.port p).st < 2 then .next s
  else
    let s := s.setPort p ((s.port p).takeControl payload)
    let s := if lcNak payload then s.goBack p (lcSeq payload) else s
    .next (((s.drain p).settleAll).pumpAll)

def execLctrlSend (port : PortId) (s : State) : Host.Outcome State Fault Refusal :=
  let x := s.port port.val
  if x.st < 2 then .next s else .next (s.setPort port.val x.sendControl)

/-! ## Training (R259) -/

/-- A port that has trained: link up at its width, and an event where only half of it is used. -/
def State.linkTrained (s : State) (p width : Nat) : State :=
  let x := s.port p
  let s := s.setPort p { x.lost with st := 2, width := width }
  if width = 3 then s else ((s.count (pageFab p + 0x68)).raise (pageFab p) 2).logPkg 0x4281 p (if width = 1 then 0 else 1) (heChip x.hello)

/-- Does the reference clock of a port run (Table 21-3)? -/
def State.portClock (s : State) (p : Nat) : Bool := s.boot.clocks.getLsbD (2 + p / 6)

/-- PORT_TRAINING: lanes 0 to 7 and lanes 8 to 15 train or do not. -/
def execPortTraining (port : PortId) (low high : Bool) (s : State) : Host.Outcome State Fault Refusal :=
  let p := port.val
  let x := s.port p
  if 1 < x.st ∨ !s.portEnabled p ∨ !s.portClock p then .next s
  else if low then .next ((s.linkTrained p (if high then 3 else 1)).sendHello p)
  else if high then .next ((s.linkTrained p 2).sendHello p)
  else .next (s.setPort p { x with st := 0, width := 0 })

/-- PORT_RETRY: a port that is DOWN trains again. -/
def execPortRetry (port : PortId) (s : State) : Host.Outcome State Fault Refusal :=
  let x := s.port port.val
  if x.st = 0 ∧ s.portEnabled port.val ∧ s.portClock port.val then .next (s.setPort port.val { x with st := 1 }) else .next s

/-! ## HELLO (R271 to R273) -/

/-- A payload without DIST and MASTER_ID. -/
def helloKey (d : BitVec 512) : BitVec 512 := withFld d 127 104 0

/-- Position one step away on an axis. -/
def stepPos (pos lenM1 axis dir : Nat) : Nat :=
  let len := coord lenM1 axis + 1
  withCoord pos axis ((coord pos axis + (if dir = 0 then 1 else len - 1)) % len)

/-- First check of R272 that a partner fails, 1 AXIS to 6 CHIP_ID; 0 when it passes. -/
def State.helloFault (s : State) (p : Nat) (d : BitVec 512) : Nat :=
  firstCause [
    (decide (heAxis d ≠ s.portAxis p), 1),
    (decide (heDir d = s.portDir p), 2),
    (decide (heLenM1 d ≠ s.lenM1), 3),
    (decide (4 < s.portAxis p) || decide (hePos d ≠ stepPos s.pos s.lenM1 (s.portAxis p) (s.portDir p)), 4),
    (decide (hePeriod d ≠ s.beat.period), 5),
    (decide (heChip d = s.chip), 6)]

/-- Two consistent HELLOs: the partner passes its checks, or the port goes to MISMATCH. -/
def State.discover (s : State) (p : Nat) (d : BitVec 512) : State :=
  let c := s.helloFault p d
  if c = 0 then
    let s := ((s.setPort p { s.port p with st := 3, mismatch := 0 }).raise (pageFab p) 0).logPkg 0x9281 p (heChip d) 0
    if !s.beat.inDomain ∨ s.beat.master = 0xFFFF then s.elect else s.rebuildTree
  else ((s.setPort p { s.port p with st := 4, mismatch := c }).raise (pageFab p) 3).logPkg 0x9283 p (heChip d) c

def execHello (port : PortId) (payload : BitVec 512) (s : State) : Host.Outcome State Fault Refusal :=
  let p := port.val
  if (s.port p).st < 2 then .next s
  else
    let before := s
    let s := s.took p 0 4
    let x := s.port p
    let same := decide (helloKey payload = helloKey x.hello) && decide (0 < x.helloCount)
    let old := heChip x.hello
    let s := s.setPort p { x with hello := payload, helloCount := if same then min 2 (x.helloCount + 1) else 1,
                                  st := if same then x.st else 2, mismatch := if same then x.mismatch else 0 }
    if !same then
      .next ((if x.st = 3 then s.losePartner p old else s).helloIfChanged before)
    else if x.st = 2 then .next ((s.discover p payload).helloIfChanged before)
    else .next (s.rebuildTree.helloIfChanged before)

def execHelloSend (port : PortId) (s : State) : Host.Outcome State Fault Refusal := .next (s.sendHello port.val)

/-! ## DATA (R265 to R267) -/

/-- Port to pass a frame on: of a doubled direction the one its message id picks, which a sealed frame does not show. -/
def State.hop (s : State) (fr : Frame) : Option Nat :=
  match s.route s.forceMask (fhDestPos fr.hdr) with
  | some (p :: ps) =>
    if fhSealed fr.hdr then some p
    else (p :: ps)[dsId (ofBytes (fr.payload.take 16)) % (ps.length + 1)]?
  | _ => none

/-- A DATA frame for this package. -/
def State.deliverData (s : State) (p : Nat) (fr : Frame) : State :=
  match s.openFrame fr with
  | none => s.sealFail p fr
  | some g =>
    match s.assemble g with
    | (some m, s) => s.onMessage p m.1 m.2
    | (none, s) => s

def execData (port : PortId) (fr : Frame) (s : State) : Host.Outcome State Fault Refusal :=
  let p := port.val
  if !s.takes p fr 8 then .next s
  else
    let s := s.setPort p ((s.port p).accept fr)
    if fhDestPos fr.hdr = s.pos then
      if fhDestChip fr.hdr = s.chip then .next (s.deliverData p fr) else .next (s.count (pageFab p + 0x70))
    else match s.hop fr with
      | some q => .next (s.sendOn q (unstamp fr))
      | none => .next s

/-! ## Frames that are dropped (R261, R263) -/

/-- DROPPED_FRAME: on a CRC failure or a gap in SEQ an LCTRL asks for the frame again; a reserved TYPE or bit, or a DEST_CHIP that
does not match, is counted and the frame is not asked for again. -/
def execDroppedFrame (port : PortId) (fr : Frame) (crcOk : Bool) (s : State) : Host.Outcome State Fault Refusal :=
  let p := port.val
  let x := s.port p
  if x.st < 2 then .next s
  else if !crcOk then .next ((s.setPort p { x with nak := true }.sendControl).count (pageFab p + 0x5C))
  else if !headerOk fr ∨ (fhDestPos fr.hdr = s.pos ∧ fhDestChip fr.hdr ≠ s.chip) then
    .next ((s.setPort p (x.accept fr)).count (pageFab p + 0x70))
  else .next (s.setPort p { x with nak := true }.sendControl)

end Sys2Proof.Machine
end

