-- ==== Sys2Proof/Machine/Queues.lean ====
section
/-! DEFINITION. Command queues and the Darlek link (R411 to R419, R422, R425 to R429): the queue operations, the watchers of tail
and completion-head lines, companion writes, snoops, flits and the loss of ports. -/

namespace Sys2Proof.Machine

/-! ## Table 17-1: queue record -/

def qrBase {n : Nat} (d : BitVec n) : Nat := fld d 42 0
def qrLog2 {n : Nat} (d : BitVec n) : Nat := fld d 47 43
def qrTailAddr {n : Nat} (d : BitVec n) : Nat := fld d 90 48
def qrHeadAddr {n : Nat} (d : BitVec n) : Nat := fld d 133 91
def qrCplBase {n : Nat} (d : BitVec n) : Nat := fld d 176 134
def qrCplLog2 {n : Nat} (d : BitVec n) : Nat := fld d 181 177
def qrCplHeadAddr {n : Nat} (d : BitVec n) : Nat := fld d 224 182
def qrMsiAddr {n : Nat} (d : BitVec n) : Nat := fld d 267 225
def qrQueue {n : Nat} (d : BitVec n) : Nat := fld d 309 300
def qrFunction {n : Nat} (d : BitVec n) : Nat := fld d 315 310
def qrEnable {n : Nat} (d : BitVec n) : Bool := flag d 316
def qrMgmt {n : Nat} (d : BitVec n) : Bool := flag d 317

/-- Start of the 64-byte line that holds a companion address. -/
def lineOf (a : Nat) : Nat := a / 64 * 64

/-! ## set-queue (R416, R417) -/

/-- Does a companion range lie where the owner may have its rings: in its untiered read-write apertures, or in the management
region? -/
def State.ringOk (s : State) (r : BitVec 512) (a n : Nat) : Bool :=
  decide (a + n ≤ 2 ^ 43) && (pagesOf (compKey a) n).all (fun p =>
    if qrMgmt r then s.mgmtRegion (p * 65536)
    else match s.aperture? (fnId (qrFunction r)) (p * 65536) with
      | some x => x.read && x.write && !x.tiered
      | none => false)

/-- Lines of a record: tail, head, completion head. -/
def qrLines (r : BitVec 512) : List Nat := [lineOf (qrTailAddr r), lineOf (qrHeadAddr r), lineOf (qrCplHeadAddr r)]

/-- Rings of a record: base and bytes. -/
def qrRings (r : BitVec 512) : List (Nat × Nat) := [(qrBase r, 64 * 2 ^ qrLog2 r), (qrCplBase r, 64 * 2 ^ qrCplLog2 r)]

def sizeBad (log2 : Nat) : Bool := decide (log2 < 6) || decide (16 < log2)

/-- Do the lines of a record meet a ring or each other? -/
def linesBad (r : BitVec 512) : Bool :=
  let ls := qrLines r
  ls.any (fun l => (qrRings r).any (fun x => overlaps l 64 x.1 x.2)) || decide (ls.eraseDups.length < 3)

/-- Is a queue enabled with operations outstanding? -/
def State.queueBusy (s : State) (n : Nat) : Bool :=
  let q := s.queue n
  q.enabled && (!q.waiting.isEmpty || s.ops.any (fun o => decide (o.queue.val = n)))

/-- Does a record break R416 apart from who sets it? -/
def State.queueBad (s : State) (r : BitVec 512) : Bool :=
  decide (fld r 511 318 ≠ 0) || s.queueBusy (qrQueue r) || sizeBad (qrLog2 r) || sizeBad (qrCplLog2 r)
  || (qrRings r).any (fun x => decide (x.1 % 4096 ≠ 0)) || decide (qrMsiAddr r % 4 ≠ 0) || linesBad r
  || (qrRings r).any (fun x => !s.ringOk r x.1 x.2) || (qrLines r).any (fun l => !s.ringOk r l 64)

/-- Enable a queue: HEAD takes the value of the tail line, and the completion index starts at 0 (R417). -/
def State.enableQueue (s : State) (r : BitVec 512) : State :=
  let old := s.queue (qrQueue r)
  let tail := BitVec.ofNat 32 (s.nat (compKey (lineOf (qrTailAddr r))) 4)
  let q : Queue := { Queue.reset with record := r, set := true, head := tail, tail := tail, event := old.event, pass := old.pass, sequence := old.sequence, request := old.request }
  (s.setQueue (qrQueue r) q).write (compKey (lineOf (qrHeadAddr r))) (leBytes 4 tail.toNat)

/-- Set a queue's record. -/
def State.takeQueue (s : State) (r : BitVec 512) : State :=
  if qrEnable r then s.enableQueue r else s.setQueue (qrQueue r) { s.queue (qrQueue r) with record := r, set := true, stopped := false }

/-- Cause of a set-queue: a function sets queues of its own range. -/
def State.setQueueCause (s : State) (o : Op) (r : BitVec 512) : Nat :=
  let x := s.fn o.fn
  let own := s.isMgmt o
  lowestCause [
    (!own && decide (qrFunction r ≠ o.fn.val), 0xC2),
    (s.queueBad r || (!own && (qrMgmt r || !x.hasQueue (qrQueue r))), 0xC3)]

def execSetQueue (q : QueueId) (d : Desc) (s : State) : Host.Outcome State Fault Refusal :=
  .next (s.issue (.setQueue q d) (fun o s =>
    let rc := s.recordCause o (ctAddr d) 64
    let r := BitVec.ofNat 512 (s.record o 64)
    if rc ≠ 0 then s.faultOp o rc
    else if s.setQueueCause o r ≠ 0 then s.faultOp o (s.setQueueCause o r)
    else (s.takeQueue r).done o))

/-! ## set-coalesce, set-event-vector (R427, R428) -/

def execSetCoalesce (q : QueueId) (d : Desc) (s : State) : Host.Outcome State Fault Refusal :=
  .next (s.issue (.setCoalesce q d) (fun o s =>
    let cnt := fld d 135 128 + 1
    let time := fld d 151 136
    if s.isMgmt o then { s with mgmtCoalesce := (cnt, time) }.done o
    else (s.modFn o.fn (fun x => { x with coalesceCount := cnt, coalesceTime := time })).done o))

def execSetEventVector (q : QueueId) (d : Desc) (s : State) : Host.Outcome State Fault Refusal :=
  .next (s.issue (.setEventVector q d) (fun o s =>
    let addr := fld d 106 64
    let data := BitVec.ofNat 32 (fld d 159 128)
    if s.isMgmt o then { s with mgmtEvent := (addr, data) }.done o
    else (s.modFn o.fn (fun x => { x with eventAddr := addr, eventData := data })).done o))

/-! ## The watchers (R417 to R419, R422) -/

/-- Descriptor of a free-running index. -/
def State.descAt (s : State) (q : Queue) (i : Nat) : Desc :=
  BitVec.ofNat 512 (s.nat (compKey (qrBase q.record + 64 * (i % 2 ^ qrLog2 q.record))) 64)

/-- Read one descriptor: it is outstanding from now on, and completes at once where its header fails. -/
def State.readDesc (s : State) (n : QueueId) : State :=
  let q := s.queue n.val
  let d := s.descAt q q.head.toNat
  let o : Op := { Op.new n s.nextOp d (s.actsFor n d) with readBeat := s.beatNow }
  let s := (s.setQueue n.val { q with head := q.head + 1 }).addOp o
  let c := s.headerCause n d
  if c ≠ 0 then s.faultOp o c else s

/-- Read descriptors up to TAIL, as many as the limits of R422 let pass. -/
def State.readDescs (s : State) (n : QueueId) : Nat → State
  | 0 => s
  | fuel + 1 =>
    let q := s.queue n.val
    if q.stopped ∨ q.head = q.tail ∨ !s.dispatching n then s
    else if !s.room q.mgmt q.owner then (s.wait (pageDlk 0 + 0x54)).blame q
    else (s.readDesc n).readDescs n fuel

/-- A watcher takes what its queue holds, and writes HEAD to the head line. -/
def State.watch (s : State) (n : QueueId) : State :=
  let q := s.queue n.val
  let t := s.readDescs n (q.tail - q.head).toNat
  let h := (t.queue n.val).head
  if h = q.head then t else t.write (compKey (lineOf (qrHeadAddr q.record))) (leBytes 4 h.toNat)

/-- Every watcher in turn: by function in ascending id, then by queue (R422); management queues stand by their FUNCTION field. -/
def State.watchAll (s : State) : State :=
  let pending := s.queues.filter (fun x => x.2.enabled && !x.2.stopped && decide (x.2.head ≠ x.2.tail))
  if pending.isEmpty then s
  else (allFns.flatMap (fun f => (pending.filter (fun x => decide (x.2.owner = f))).map (·.1))).foldl (fun s n => s.watch (queueId n)) s

/-- A queue stops on overflow (R419): a function event, and the count. -/
def State.stopQueue (s : State) (n : QueueId) (beyond : Nat) : State :=
  let q := s.queue n.val
  let fn := if q.mgmt then none else some q.owner
  let s := (s.setQueue n.val { q with stopped := true }).logEvent 0x6481 fn (n.val % 256) none n.val beyond
  ((s.count (pageDlk 0 + 0x50)).raise (pageDlk 0) 1).pageError (pageDlk 0) 0x6481 fn q.mgmt

/-- The watcher reads a tail line. -/
def State.seeTail (s : State) (n : QueueId) : State :=
  let q := s.queue n.val
  let tail := BitVec.ofNat 32 (s.nat (compKey (lineOf (qrTailAddr q.record))) 4)
  if !q.enabled ∨ q.stopped then s
  else if 2 ^ qrLog2 q.record < (tail - q.head).toNat then s.stopQueue n (tail - q.head).toNat
  else (s.setQueue n.val { q with tail := tail }).watch n

/-- Write waiting records while slots are free (R425). -/
def State.flushRing (s : State) (n : QueueId) : Nat → State
  | 0 => s
  | fuel + 1 =>
    let q := s.queue n.val
    match q.waiting with
    | [] => s
    | r :: rest =>
      if q.cplFull then s
      else
        let s := (s.setQueue n.val { q with waiting := rest }).putRecord n (withFld r 511 511 0)
        (if flag r 511 then s.countIrq n else s).flushRing n fuel

/-- The device reads a completion-head line. -/
def State.seeCplHead (s : State) (n : QueueId) : State :=
  let q := s.queue n.val
  if !q.set then s
  else
    let idx := BitVec.ofNat 32 (s.nat (compKey (lineOf (qrCplHeadAddr q.record))) 4)
    (s.setQueue n.val { q with cplHead := idx }).flushRing n q.waiting.length

def execTailWrite (q : QueueId) (tail : Word) (s : State) : Host.Outcome State Fault Refusal :=
  let x := s.queue q.val
  if x.set then .next ((s.write (compKey (lineOf (qrTailAddr x.record))) (leBytes 4 tail.toNat)).seeTail q) else .next s

def execCplHeadWrite (q : QueueId) (index : Word) (s : State) : Host.Outcome State Fault Refusal :=
  let x := s.queue q.val
  if x.set then .next ((s.write (compKey (lineOf (qrCplHeadAddr x.record))) (leBytes 4 index.toNat)).seeCplHead q) else .next s

/-- COALESCE_TIMER: the time of the first pending record has passed. -/
def execCoalesceTimer (q : QueueId) (s : State) : Host.Outcome State Fault Refusal :=
  let x := s.queue q.val
  if x.timer ∧ x.irqPending ≠ 0 then .next (s.interrupt q) else .next s

/-! ## Companion writes (R201, R358, R361, R413) -/

/-- Key slot of a page: the owner's, in the generation its KGEN names. -/
def State.pageKey (s : State) (e : BitVec 64) : Nat :=
  let x := (s.fn (fnId (pgOwner e))).sec
  if pgKgen e = 1 then x.key1 else x.key0

/-- Bytes placed at an offset of a list. -/
def splice (xs : List Byte) (off : Nat) (ys : List Byte) : List Byte := xs.take off ++ ys ++ xs.drop (off + ys.length)

/-- Replace ciphertext of one 512-byte data unit: what the device reads there is its decryption under the page's key. -/
def State.writeCipher (s : State) (a : Nat) (bs : List Byte) : State :=
  let e := s.page (pageOf a)
  let u := a / 512 * 512
  let key := s.pageKey e
  let ct := Config.xtsEncrypt key (u / 512) (s.bytes u 512)
  s.write u ((Config.xtsDecrypt key (u / 512) (splice ct (a - u) bs)).take 512)

/-- The bytes of a companion write land: as they are in untiered memory, as ciphertext in a tiered page; a page that the sweep
holds RELOCATING is open afterwards. -/
def State.companionWrite (s : State) (a : Nat) (bs : List Byte) : State :=
  let e := s.page (pageOf a)
  if pgTier e ≠ 2 then s.write a bs
  else if pgMove e = 3 then s.scramble (pageOf a * 65536) 65536
  else s.writeCipher a bs

/-- Queues that watch a companion line. -/
def State.watchers (s : State) (addr : BitVec 512 → Nat) (line : Nat) : List Nat :=
  (s.queues.filter (fun x => x.2.set && decide (lineOf (addr x.2.record) = line))).map (·.1)

/-- COMPANION_LINE_WRITE: the device's copies are invalidated, and a watched line is read again. -/
def execCompanionLineWrite (addr : BitVec 43) (data : BitVec 512) (s : State) : Host.Outcome State Fault Refusal :=
  let line := lineOf addr.toNat
  let s := (s.companionWrite (compKey line) (leBytes 64 data.toNat)).invalidate (compKey line) 64
  let s : State := (s.watchers qrTailAddr line).foldl (fun s n => s.seeTail (queueId n)) s
  .next ((s.watchers qrCplHeadAddr line).foldl (fun s n => s.seeCplHead (queueId n)) s)

/-! ## The link (R411 to R413) -/

/-- LINK of a Darlek port (Table 17-7). -/
def State.dlk (s : State) (port : Nat) : Nat := if port = 0 then s.boot.dlk0 else s.boot.dlk1

def State.setDlk (s : State) (port v : Nat) : State :=
  if port = 0 then { s with boot := { s.boot with dlk0 := v } } else { s with boot := { s.boot with dlk1 := v } }

def dlkUp (v : Nat) : Bool := decide (2 ≤ v)

/-- SNOOP: answered by the lowest port that is up (log entry 51). -/
def execSnoop (_addr : BitVec 43) (s : State) : Host.Outcome State Fault Refusal :=
  if dlkUp s.boot.dlk0 then .next (s.count (pageDlk 0 + 0x4C))
  else if dlkUp s.boot.dlk1 then .next (s.count (pageDlk 1 + 0x4C))
  else .next s

/-- FLIT: one that fails its check is replayed, and changes nothing else. -/
def execFlit (port : Fin 2) (ok : Bool) (s : State) : Host.Outcome State Fault Refusal :=
  if dlkUp (s.dlk port.val) ∧ !ok then .next (s.count (pageDlk port.val + 0x44)) else .next s

/-- LINK code of a number of lanes: 0 none, 1 sixteen, 2 thirty-two. -/
def lanesCode (lanes : Nat) : Nat := if lanes = 0 then 0 else lanes + 1

/-- DARLEK_PORT_LOSS: a port goes down, or trains again; a boot ROM without a link goes on once a port has trained (Table 19-4). -/
def execDarlekPortLoss (port : Fin 2) (lanes : Fin 3) (s : State) : Host.Outcome State Fault Refusal :=
  let lanes : Fin 3 := if s.boot.clocks.getLsbD port.val then lanes else 0
  let s := s.setDlk port.val (lanesCode lanes.val)
  let s := if s.boot.st = 0 ∧ s.boot.powered ∧ lanes.val ≠ 0 then { s with boot := { s.boot with st := 1 } } else s
  if lanes.val = 2 then .next s
  else
    let s := if lanes.val = 0 then s.count (pageDlk port.val + 0x48) else s
    .next ((s.raise (pageDlk port.val) 0).logPkg 0x42C1 port.val (16 * lanes.val) 0)

/-- DARLEK_LINK_LOSS: both ports have been down for 1 ms. -/
def execDarlekLinkLoss (s : State) : Host.Outcome State Fault Refusal :=
  if s.boot.dlk0 = 0 ∧ s.boot.dlk1 = 0 then .next (s.deviceFault 0x72C2 0 0 0) else .next s

end Sys2Proof.Machine
end

