-- ==== Sys2Proof/Machine/Power.lean ====
section
/-! DEFINITION. Power, heat and ageing (R376 to R403): issue levels and the governor, the cap and its controller, power groups,
temperatures, drift alarms, active tests and margin plans, and the changes of the cell map (R20 to R29). -/

namespace Sys2Proof.Machine

/-! ## The cap (R381 to R383) -/

/-- Shares of the quiet functions, in watts. -/
def State.quietPower (s : State) : Nat := sumNat ((allFns.filter (fun f => (s.fn f).holds && (s.fn f).quiet)).map (fun f => (s.fn f).powerShare))

def scCap (d : Desc) : Nat := fld d 139 128

def execSetCap (q : QueueId) (d : Desc) (s : State) : Host.Outcome State Fault Refusal :=
  .next (s.issue (.setCap q d) (fun o s =>
    let cap := scCap d
    let c := lowestCause [
      (decide (cap < 1000) || decide (3200 < cap) || decide (cap % 5 ≠ 0), 0xB0),
      (decide (cap < s.quietPower + 700), 0x9A)]
    if c ≠ 0 then s.faultOp o c else { s with power := { s.power with nextCap := some cap } }.done o))

def pgJob (d : Desc) : Nat := fld d 159 128
def pgShiftMax (d : Desc) : Nat := 5 * fld d 168 161

/-- A package's power group (R387); a group that is disabled sets its offset to 0 at the next beat boundary (R390). -/
def Power.setGroup (p : Power) (d : Desc) : Power :=
  if flag d 160 then { p with groupOn := true, groupJob := BitVec.ofNat 32 (pgJob d), shiftMax := pgShiftMax d }
  else { p with groupOn := false, groupJob := BitVec.ofNat 32 (pgJob d), shiftMax := pgShiftMax d, nextOffset := some 0 }

def execSetPowerGroup (q : QueueId) (d : Desc) (s : State) : Host.Outcome State Fault Refusal :=
  .next (s.issue (.setPowerGroup q d) (fun o s =>
    if (s.jobFns (pgJob d)).isEmpty ∨ 800 < pgShiftMax d then s.faultOp o 0xB1
    else { s with power := s.power.setGroup d }.done o))

/-! ## The cap controller (R382 to R384, log entry 52) -/

/-- Pool of power shares: the effective cap less what the reserved consumers draw, 700 W at least. -/
def State.powerPool (s : State) : Nat := s.capEff - max 700 s.power.reserved

/-- A function's power share with its group's offset (R387). -/
def State.groupShare (s : State) (f : FnId) : Nat :=
  let x := s.fn f
  if s.power.groupOn ∧ !x.quiet ∧ s.mapped f ∧ jmJobId x.job.map = s.power.groupJob.toNat
  then ((x.powerShare : Int) + s.power.offset).toNat else x.powerShare

/-- Functions whose shares count. -/
def State.holders (s : State) : List FnId := allFns.filter (fun f => (s.fn f).holds)

/-- A function's share in force: a pool below the sum of the shares lowers those of the non-quiet functions in proportion (R345). -/
def State.shareNow (s : State) (f : FnId) : Nat :=
  let quiet := s.quietPower
  let rest := sumNat ((s.holders.filter (fun g => !(s.fn g).quiet)).map s.groupShare)
  if (s.fn f).quiet ∨ quiet + rest ≤ s.powerPool then s.groupShare f else s.groupShare f * (s.powerPool - quiet) / rest

/-- Cores in service of a function. -/
def State.coresOf (s : State) (f : FnId) : List CoreId :=
  allCores.filter (fun c => decide ((s.cell c).owner = some f) && decide ((s.cell c).st = .inService))

/-- Estimated draw of a core at a level, anew at each update. -/
def State.coreDraw (s : State) (c : CoreId) (level : Nat) : Nat := Config.drawEstimate (32 * s.fresh + c.val) level

/-- Estimated draw of a function with every core at a level. -/
def State.drawAt (s : State) (f : FnId) (level : Nat) : Nat := sumNat ((s.coresOf f).map (fun c => s.coreDraw c level))

/-- Estimated draw of a function at its cores' present levels. -/
def State.drawNow (s : State) (f : FnId) : Nat := sumNat ((s.coresOf f).map (fun c => s.coreDraw c (s.cell c).level))

/-- The highest level at which a function draws no more than some watts. -/
def State.levelFor (s : State) (f : FnId) (watts : Nat) : Nat :=
  ((List.range 17).reverse.find? (fun l => decide (s.drawAt f l ≤ watts))).getD 0

/-- Set the cap ceiling of a function's cores. -/
def State.setCeiling (s : State) (f : FnId) (level : Nat) : State :=
  (s.coresOf f).foldl (fun s c => s.modCell c (fun x => { x with capCeiling := level })) s

/-- Ceilings of the functions, what is left of the pool lent in free parts to those that are not quiet (R336, R384). -/
def State.ceilings (s : State) : List FnId → Nat → List Nat → List (FnId × Nat)
  | [], _, _ => []
  | f :: fs, left, lent =>
    let part := if (s.fn f).quiet then 0 else lent.headD 0 % (left + 1)
    (f, s.levelFor f (s.shareNow f + part)) :: s.ceilings fs (left - part) lent.tail

/-- The cap controller at a beat boundary. -/
def State.capControl (s : State) : State :=
  let fs := s.holders.filter (fun f => !(s.coresOf f).isEmpty)
  if fs.isEmpty then s
  else
    let used := sumNat (fs.map (fun f => min (s.shareNow f) (s.drawNow f)))
    let lent := fs.zipIdx.map (fun x => Config.freeValue (s.fresh + 1 + x.2))
    let cs := s.ceilings fs (s.powerPool - used) lent
    let s := { (cs.foldl (fun (s : State) x => s.setCeiling x.1 x.2) s) with fresh := s.fresh + 1 + fs.length }
    if cs.any (fun x => decide (x.2 < 16)) then s.wait (pagePwr + 0x9C) else s

/-- As an owner's level rises, the ceilings of functions above their share fall until the package is within its pool (R384). -/
def State.reclaim (s : State) (f : FnId) : State :=
  (s.holders.filter (fun g => decide (g ≠ f) && !(s.fn g).quiet && !(s.coresOf g).isEmpty && decide (s.shareNow g < s.drawNow g))).foldl
    (fun s g =>
      let total := sumNat (s.holders.map s.drawNow)
      if total ≤ s.powerPool then s
      else s.setCeiling g (min (s.levelFor g (s.drawNow g - (total - s.powerPool))) (((s.coresOf g).head?.map (fun c => (s.cell c).capCeiling)).getD 16))) s

def execTelemetryCalibration (power : BitVec 12) (reserved : BitVec 12) (s : State) : Host.Outcome State Fault Refusal :=
  .next ({ s with power := { s.power with package := power.toNat, reserved := reserved.toNat } }.capControl)

/-! ## The governor (R377 to R379) -/

/-- Floor of a function's SHIM events (R391). -/
def Fn.floor (x : Fn) : Nat := (x.shims.map (·.1)).foldl max 0

/-- Ceiling of a core: the least of cap, thermal and ramp ceiling. -/
def State.ceiling (s : State) (c : CoreId) : Nat :=
  let x := s.cell c
  min (min x.capCeiling x.thermal) ((x.owner.map (fun f => (s.fn f).ramp)).getD 16)

/-- Target of a core whose real work would use `demand` of 16 cycles. -/
def State.target (s : State) (c : CoreId) (demand : Nat) : Nat :=
  min (s.ceiling c) (max (((s.cell c).owner.map (fun f => (s.fn f).floor)).getD 0) demand)

/-- One step of a level toward its target. -/
def stepLevel (level target : Nat) : Nat := if level < target then level + 1 else if target < level then level - 1 else level

/-- What a step counts: cycles real work waited, shim entries, cycles slowed by the cap or the heat, cycles above a share (R336). -/
def State.countLevel (s : State) (c : CoreId) (demand : Nat) : State :=
  let x := s.cell c
  let s := if x.level < demand then (s.wait (pageCore c.val + 0x5C)).wait (pagePwr + 0x94) else s
  let s := if demand < x.level then (s.wait (pageCore c.val + 0x60)).wait (pagePwr + 0x98) else s
  match x.owner with
  | some f =>
    let s := if min x.capCeiling x.thermal < demand then s.wait (pageFunc f.val + 0x6C) else s
    if s.shareNow f < s.drawNow f then s.wait (pageFunc f.val + 0x68) else s
  | none => s

def execGovernorStep (core : CoreId) (demand : Fin 17) (s : State) : Host.Outcome State Fault Refusal :=
  let x := s.cell core
  if x.st ≠ .inService ∨ (s.die (core.val / 6)).tripped then .next s
  else
    let t := s.target core demand.val
    let l := stepLevel x.level t
    let s := (s.countLevel core demand.val).modCell core (fun y => { y with level := l, target := t })
    match x.owner with
    | some f => if x.level < l then .next (s.reclaim f) else .next s
    | none => .next s

/-! ## Temperatures (R393 to R395) -/

/-- Cores of a compute die. -/
def coresOfDie (d : Nat) : List CoreId := allCores.filter (fun c => decide (c.val / 6 = d))

/-- Links of a die that stop with it: the fabric ports and the Darlek port of an I/O die (Table 0-4). -/
def State.stopLinks (s : State) (die : Nat) : State :=
  if die = 8 ∨ die = 9 then
    let ports := (List.range 6).map (· + 6 * (die - 8))
    (ports.foldl (fun (s : State) p => s.setPort p { s.port p with st := 0 }) s).setDlk (die - 8) 0
  else s

/-- Every engine of a core stops at once: nothing of it goes on (R395). -/
def State.stopEngines (s : State) (c : CoreId) : State :=
  let s := (s.cancelCore c.val 2).discardCore c.val
  let on := s.ops.filter (fun o => decide (hdClass o.desc ≤ 2) && decide ((s.coreOf o) = some c))
  s.killAll on 2

/-- A die at 115 °C: engines and links stop, THERM_N and a device fault are raised, and both stay (R395). -/
def State.trip (s : State) (die t : Nat) : State :=
  let s := s.setDie die { s.die die with tripped := true }
  let s := { s with boot := { s.boot with thermN := true } }
  let s : State := (coresOfDie die).foldl (fun s c => s.stopEngines c) s
  (s.stopLinks die).deviceFault 0x7341 die t 0

/-- A compute die starts to throttle. -/
def State.startThrottle (s : State) (die t : Nat) (ceiling : Nat) : State := (s.raise pagePwr 0).logPkg 0xA341 die t ceiling

/-- The thermal ceiling after a reading: the first step at once, the next ones every sixteen readings of 1 µs (log entry 53). -/
def Die.ceilingAfter (x : Die) (t : Nat) : Nat :=
  if 105 ≤ t ∧ x.thermalCeiling ≤ 4 then 0
  else if x.thermalCeiling = 0 then (if t < 100 then 4 else 0)
  else if x.sinceCeiling < 15 ∧ (x.throttling ∨ x.thermalCeiling < 16) then x.thermalCeiling
  else if 98 ≤ t then max 4 (x.thermalCeiling - 1)
  else if t < 96 then min 16 (x.thermalCeiling + 1)
  else x.thermalCeiling

/-- Readings since the last change of the ceiling. -/
def Die.readings (x : Die) (ceiling : Nat) : Nat := if ceiling = x.thermalCeiling then min 15 (x.sinceCeiling + 1) else 0

/-- Throttling starts at 98 °C and is released below 96 °C. -/
def Die.throttles (x : Die) (t : Nat) : Bool := decide (98 ≤ t) || (x.throttling && decide (96 ≤ t))

/-- A reading of a compute die. -/
def State.readCompute (s : State) (die t : Nat) : State :=
  let x := s.die die
  let c := x.ceilingAfter t
  let on := x.throttles t
  let s := s.setDie die { x with temp := BitVec.ofNat 8 t, thermalCeiling := c, sinceCeiling := x.readings c, throttling := on }
  let s := if on then s.wait (pagePwr + 0xA0) else s
  if on && !x.throttling then s.startThrottle die t c
  else if c = 0 ∧ x.thermalCeiling ≠ 0 then s.logPkg 0xA341 die t 0
  else s

/-- DIE_SENSOR_READ: two readings, which a compute die's cores show (log entry 53); the hottest counts. -/
def execDieSensorRead (die : Fin 10) (temp0 temp1 : Byte) (s : State) : Host.Outcome State Fault Refusal :=
  let t := max temp0.toNat temp1.toNat
  let s : State := (coresOfDie die.val).foldl (fun s c => s.modCell c (fun x => { x with temp0 := temp0, temp1 := temp1 })) s
  let s := if die.val < 4 then s.readCompute die.val t else s.setDie die.val { s.die die.val with temp := BitVec.ofNat 8 t }
  if 115 ≤ t ∧ !(s.die die.val).tripped then .next (s.trip die.val t) else .next s

/-! ## Margin plans (R400 to R403) -/

/-- V_req of a core in 0.1 mV. -/
def Cell.need (x : Cell) : Nat := 10 * x.vReq

/-- GUARD of a plan: 2.5 mV lower, down to 20 mV, where no drift alarm came since the last plan (R401). -/
def Die.planGuard (x : Die) : Nat := if x.alarmed then (x.nextGuard.getD x.guard) else max 200 (min x.guard (x.guard - 25))

/-- In-service cores of a die. -/
def State.dieCores (s : State) (d : Nat) : List CoreId := (coresOfDie d).filter (fun c => decide ((s.cell c).st = .inService))

/-- Cores whose V_req sets a die's voltage: those in service; where none is, the eligible ones, since a plan of such a die has no
largest V_req of the manual's (log entry 61). DESIGN CHOICE. -/
def State.planCores (s : State) (d : Nat) : List CoreId :=
  if (s.dieCores d).isEmpty then (coresOfDie d).filter (fun c => decide ((s.cell c).st = .eligible)) else s.dieCores d

/-- Is OUTLIER of PLAN_CTRL set, with an eligible reserve core on another die (R402)? -/
def State.outlierRule (s : State) (d : Nat) : Bool :=
  (s.reg 0 (pagePwr + 0x84)).testBit 1
    && allCores.any (fun c => decide (c.val / 6 ≠ d) && decide ((s.cell c).st = .eligible) && !(s.cell c).scrubbing)

/-- The core whose V_req exceeds that of every other in-service core of its die by more than 25 mV. -/
def State.outlier? (s : State) (d : Nat) : Option CoreId :=
  if s.outlierRule d then
    (s.dieCores d).find? (fun c => decide (2 ≤ (s.dieCores d).length)
      && (s.dieCores d).all (fun k => decide (k = c) || decide ((s.cell k).need + 250 < (s.cell c).need)))
  else none

/-- Set point for a highest V_req: up to 2.5 mV, within 0.60 to 0.85 V. -/
def setPoint (need guard : Nat) : Nat := max 6000 (min 8500 ((need + guard + 24) / 25 * 25))

/-- A core that has to leave service: by a planned move that a CORE_MOVE event names, or at a beat boundary where no function owns
it. -/
def State.retireCore (s : State) (c : CoreId) (st : CellState) : State :=
  s.modCell c (fun x => if x.nextSt.isSome ∨ x.quarantining then x else { x with nextSt := some st, movePending := x.owner.isSome })

/-- What a plan orders for one core (R402). -/
def State.planCore (s : State) (guard : Nat) (outlier : Option CoreId) (c : CoreId) : State :=
  let x := s.cell c
  match x.st with
  | .inService =>
    if 8500 < x.need + 100 then s.orderQuarantine c 4
    else if 8500 < x.need + guard then s.retireCore c .ineligible
    else if outlier = some c then s.retireCore c .eligible
    else s
  | .eligible => if 8500 < x.need + guard ∧ x.holder.isNone then s.retireCore c .ineligible else s
  | .ineligible => if x.need + guard ≤ 8500 then s.modCell c (fun y => { y with nextSt := some .eligible }) else s
  | .quarantined => s

/-- Payload of a MARGIN_PLAN record: VCORE and GUARD in 0.1 mV, V_req of the six cores in mV (log entry 37). DESIGN CHOICE. -/
def State.planPayload (s : State) (d vcore guard : Nat) : List Byte :=
  leBytes 2 vcore ++ leBytes 2 guard ++ (coresOfDie d).flatMap (fun c => leBytes 2 (s.cell c).vReq)

/-- Payload of an AGEING record: drift and leakage of a core. -/
def Cell.ageing (x : Cell) : List Byte := leBytes 2 (ofSigned 16 x.drift) ++ leBytes 2 x.leakage.toNat

/-- Request a set point; whether the regulator acknowledges the first request is open (R447, log entry 54). -/
def State.requestVolts (s : State) (d v : Nat) : State :=
  let (b, s) := s.draw
  s.setDie d { s.die d with requested := v, acked := if b % 2 = 1 then v else (s.die d).acked }

/-- A margin plan of one die: recorded first, then requested. -/
def State.plan (s : State) (d : Nat) : State :=
  let x := s.die d
  let guard := x.planGuard
  let out := s.outlier? d
  let cores := (s.planCores d).filter (fun c => decide (out ≠ some c))
  let v := setPoint ((cores.map (fun c => (s.cell c).need)).foldl max 0) guard
  let s := s.storeRecord 0x0011 d (s.planPayload d v guard)
  let s : State := (coresOfDie d).foldl (fun s c => s.storeRecord 0x0012 c.val (s.cell c).ageing) s
  let s : State := (coresOfDie d).foldl (fun s c => s.planCore guard out c) s
  let s := s.setDie d { x with guard := guard, nextGuard := none, alarmed := false, planRunning := false }
  let moved := (coresOfDie d).any (fun c => (s.cell c).movePending)
  let s := { s with power := { s.power with planCount := s.power.planCount + 1, planPoh := s.power.poh, planMoved := moved } }
  let s := (if moved then s.raise pagePwr 3 else s).raise pagePwr 1
  s.requestVolts d v

/-- MARGIN_PLAN of a die: one that was started, or one that a thousand power-on hours make due. -/
def execMarginPlan (die : DieId) (s : State) : Host.Outcome State Fault Refusal :=
  if (s.die die.val).planRunning ∨ s.power.planPoh + 1000 ≤ s.power.poh then .next (s.plan die.val) else .next s

/-- AVS_RETRY: a request that stands is sent again. -/
def execAvsRetry (rail : DieId) (acked : Bool) (s : State) : Host.Outcome State Fault Refusal :=
  let x := s.die rail.val
  if acked ∧ x.requested ≠ x.acked then .next (s.setDie rail.val { x with acked := x.requested }) else .next s

/-- Does a raise stand unacknowledged (R487)? -/
def State.raiseUnacked (s : State) : Bool := (List.range 4).any (fun d => decide ((s.die d).acked < (s.die d).requested))

/-- VCORE at a beat boundary: a raise at once, a fall of one 2.5 mV step a microsecond (R403); `unit` is 2^PERIOD, 32 of them
are 1 µs (Table 2-1). -/
def Die.volts (x : Die) (unit : Nat) : Die :=
  let x := { x with guard := x.nextGuard.getD x.guard, nextGuard := none }
  if x.vcore ≤ x.acked then { x with vcore := x.acked, sinceStep := 0 }
  else if x.sinceStep + unit < 32 then { x with sinceStep := x.sinceStep + unit }
  else { x with vcore := max x.acked (x.vcore - 25), sinceStep := 0 }

/-! ## Drift alarms and active tests (R397 to R399) -/

/-- Start a margin plan of a die. -/
def State.startPlan (s : State) (d : Nat) : State := s.setDie d { s.die d with planRunning := true }

/-- A drift alarm of a die. -/
def State.driftAlarm (s : State) (c : CoreId) : State :=
  let d := c.val / 6
  let x := s.die d
  let guard := min 600 (x.guard + 100)
  let s := (s.setDie d { x with nextGuard := some guard, alarmed := true }).count (pagePwr + 0x90)
  ((s.raise pagePwr 2).logEvent 0xA342 none d (some c) c.val (guard / 10)).startPlan d

/-- AGEING_MONITOR_READ: an alarm comes as the drift passes 1.5% (log entry 55). -/
def execAgeingMonitorRead (core : CoreId) (drift : Int) (leakage : BitVec 16) (s : State) : Host.Outcome State Fault Refusal :=
  let before := (s.cell core).drift
  let s := s.modCell core (fun x => { x with drift := drift, leakage := leakage })
  if 150 < drift ∧ before ≤ 150 then .next (s.driftAlarm core) else .next s

/-- ACTIVE_TEST of a core that no function owns. -/
def execActiveTest (core : CoreId) (vReq : Option Nat) (s : State) : Host.Outcome State Fault Refusal :=
  let x := s.cell core
  if x.owner.isSome then .next s
  else .next (s.setCell core { x with vReq := vReq.getD x.vReq, hoursSinceTest := 0, testDue := false })

/-- TEST_DUE of an owned core: the event, and the overdue event once 500 hours have passed. -/
def execTestDue (core : CoreId) (overdue : Nat) (s : State) : Host.Outcome State Fault Refusal :=
  match (s.cell core).owner with
  | none => .next s
  | some f =>
    let s := (s.modCell core (fun x => { x with testDue := true })).raise (pageCore core.val) 1
    if 500 < overdue then .next (s.logEvent 0xA101 (some f) core.val (some core) core.val overdue) else .next s

/-! ## core-self-test and scrubs (R26, R372, R473) -/

def execCoreSelfTest (q : QueueId) (d : Desc) (pass : Bool) (s : State) : Host.Outcome State Fault Refusal :=
  .next (s.issue (.coreSelfTest q d pass) (fun o s =>
    match coreId? (fld d 132 128) with
    | none => s.faultOp o 0xC0
    | some c =>
      let x := s.cell c
      if x.st ≠ .quarantined ∨ x.owner.isSome then s.refuseOpen o
      else if pass then (s.setCell c { x with nextSt := some .eligible }).done o
      else s.done o))

/-- CORE_SCRUB: a core in reserve or quarantined is zeroed and read back; one that fails is quarantined. -/
def execCoreScrub (core : CoreId) (clean : Bool) (s : State) : Host.Outcome State Fault Refusal :=
  let x := s.cell core
  if x.st = .inService ∨ !x.scrubbing then .next s
  else
    let s := (s.scrubEngines core.val).scrubScratchpad core.val
    if clean then .next (s.setCell core { x with scrubbing := false, owner := none })
    else if x.st = .quarantined then .next s
    else .next ((s.setCell core { x with owner := none }).orderQuarantine core 3)

/-! ## Management orders and the cell map (R20 to R24, R28, R29) -/

/-- Is an operation in progress on a core's engines: issued there and past the point at which an order withdraws it? -/
def State.engineBusy (s : State) (c : CoreId) : Bool :=
  s.ops.any (fun o => o.flying && (decide (hdClass o.desc ≤ 2) && decide (s.coreOf o = some c) || s.trussOn c.val o) && !s.queuedAt c.val o)

/-- MANAGEMENT_ORDER_EFFECT: the order that stands for a core takes effect at its engines' operation boundary (Table 1-4); the
others take effect at beat boundaries. -/
def execManagementOrderEffect (core : CoreId) (order : Order) (s : State) : Host.Outcome State Fault Refusal :=
  let x := s.cell core
  match order with
  | .thermalTrip => if (s.die (core.val / 6)).tripped then .next (s.stopEngines core) else .next s
  | .quarantine =>
    if x.quarantining ∧ x.nextSt ≠ some .quarantined ∧ !s.engineBusy core then .next ((s.quarantine core).startPlan (core.val / 6)) else .next s
  | .disableFunction =>
    match x.owner with
    | some f => if (s.fn f).st = .aborting then .next (s.cancelCore core.val 2) else .next s
    | none => .next s
  | .cellMapChange => if x.quarantining then .next (s.supersedeMove core) else .next s
  | .thermalThrottle =>
    if s.engineBusy core then .next s
    else .next (s.setCell core { x with thermal := (s.die (core.val / 6)).thermalCeiling })
  | .powerCap => .next s
  | .voltageTrim => .next s
  | .scrub =>
    if x.st ≠ .inService ∧ x.owner.isNone then .next (s.setCell core { x with scrubbing := true }) else .next s

/-- A core whose state a margin plan, a self-test or its function's end changes; one whose planned move is pending waits for that, and
one that leaves its function stays its own until it is scrubbed (R343). -/
def State.mapOne (s : State) (c : CoreId) : State :=
  let x := s.cell c
  match x.nextSt with
  | some st => if x.movePending ∨ st = .quarantined then s
    else ((if x.owner.isSome then s.clearCore c.val else s).setCell c { x with st := st, nextSt := none, scrubbing := x.scrubbing || decide (x.st = .inService) }).countMapChange
  | none => s

/-- A planned move whose copy is complete: the logical core goes to the new physical core, and the old one joins the reserve to be
scrubbed, in the state its plan gave it (R27, R402). -/
def State.finishMove (s : State) (c : CoreId) : State :=
  let x := s.cell c
  match x.moveTo with
  | none => s
  | some dst =>
    if !x.moveDone then s
    else
      let s := (s.copyCore c dst).clearCore dst.val
      let s := s.modCell dst (fun y => { y with st := .inService, owner := x.owner, logical := x.logical })
      (s.setCell c { x with st := x.nextSt.getD .eligible, owner := none, movePending := false, moveTo := none, moveDone := false,
                            nextSt := none, scrubbing := true }).countMapChange

/-- A create or restore completes as its cores enter service. -/
def State.mapDone (s : State) (f : FnId) : State :=
  match (s.fn f).mapOp with
  | none => s
  | some r =>
    let s := s.modFn f (fun x => { x with mapOp := none })
    match s.op? r with
    | some o => s.done o
    | none => s

/-- Changes of the cell map that wait for the boundary: planned moves, quarantined cores that are replaced, cores that leave service or
change their state in the reserve, cores that enter service, and unavailable logical cores that are mapped. -/
def State.cellMapNow (s : State) : State :=
  let s : State := allCores.foldl (fun s c => s.finishMove c) s
  let s : State := allCores.foldl (fun s c => s.replaceQuarantined c) s
  let s : State := allCores.foldl (fun s c => s.mapOne c) s
  let s : State := allCores.foldl (fun s c => s.enterTaken c) s
  allFns.foldl (fun s f => s.mapDone f) s.refillCores

/-- CELL_MAP_CHANGE at a beat boundary. -/
def execCellMapChange (s : State) : Host.Outcome State Fault Refusal := .next s.cellMapNow

end Sys2Proof.Machine
end

