-- ==== Sys2Proof/Machine/Truss.lean ====
section
/-! DEFINITION. The truss (R145 to R150): registration on the leaf engines, the reads of the leaf slots, the tree, and the
root's write. -/

namespace Sys2Proof.Machine

def trRows (d : Desc) : Nat := trRowsM1 d + 1

def trPerGroup (d : Desc) : Nat := trPair2 d + 1

/-- Slots of the operation, the same on every leaf. -/
def trSlots (d : Desc) : List Nat := (List.range (groupsOf (trRows d) * trPerGroup d)).map (· + trTile d)

/-- First row and column that the k-th slot holds. -/
def trOrigin (d : Desc) (k : Nat) : Nat × Nat := (k / trPerGroup d * 64, k % trPerGroup d * 512)

/-- Rows of the k-th slot. -/
def trRowsOf (d : Desc) (k : Nat) : Nat := min 64 (trRows d - (trOrigin d k).1)

def trLeafList (d : Desc) : List Nat := setBits 40 (trLeaves d)

/-- Does the operation write leaf indices? -/
def trIdx (d : Desc) : Bool := decide (trKind d = 3) || decide (trKind d = 4)

/-- Engine instance of leaf i: ME(i mod 2) of logical core i / 2. -/
def State.leafInst (s : State) (f : FnId) (i : Nat) : Option Nat := (s.phys? f (i / 2)).map (fun c => meInst c.val (i % 2))

/-- Ranges the root writes on its scratchpad. -/
def trWrites (d : Desc) : List (Nat × Nat) :=
  let r := trussRoot d
  (r.dst, r.span (trRows d))
    :: (if 1 ≤ r.epi ∧ r.epi ≤ 5 then [(r.epiAddr, r.epiSpan (trSlots d).length)] else [])
    ++ (if trIdx d then [(trIdxAddr d, trRows d * trWidth d)] else [])

/-- Cause of the checks, 0 when they pass: of the fields at issue (R146), then of the slots at registration (R147), the lowest of each
(R496). A slot above 31 does not exist, so it is not open (log entry 28). DEDUCED. -/
def State.trussCause (s : State) (root : Option CoreId) (insts : List Nat) (o : Op) (entry : Option (BitVec 1024)) : Nat :=
  let d := o.desc
  let r := trussRoot d
  let n := (s.fn o.fn).cores
  let slots := trSlots d
  let fields := lowestCause [
    (!is16 (trDstFmt d), 0x02),
    (decide (trSat d = 3), 0x03),
    (decide (trDstAddr d % 128 ≠ 0) || !spOk r.dst (r.span (trRows d))
      || (trIdx d && !spOk (trIdxAddr d) (trRows d * trWidth d)), 0x04),
    (decide (2 ^ 35 ≤ trElemBase d + (trRows d - 1) * trRowPitch d + trWidth d - 1), 0x0A),
    (decide (6 < trEpi d) || !spOk r.epiAddr (r.epiSpan slots.length), 0x16),
    (decide (trLeaves d = 0) || decide (2 ^ (2 * n) ≤ trLeaves d) || decide (n ≤ trRoot d), 0x17),
    (decide (5 ≤ trKind d) || decide (trIdxAddr d % 128 ≠ 0), 0x18),
    (decide (trWatchEn d = 1) && ((s.fn o.fn).watchEntry? (trWatchId d)).isNone, 0x38),
    (s.gridBad o.fn r (trRows d) entry, 0x3A)]
  let cause := if fields ≠ 0 then fields else lowestCause [
    (insts.any (fun i => slots.any (fun k => decide (31 < k) || !((s.me i).slot k).projOpen)), 0x12),
    (insts.any (fun i => slots.any (fun k => let x := (s.me i).slot k
        x.projOpen && (decide (x.rows ≠ trRows d) || decide (x.width ≠ trWidth d)))), 0x15)]
  if cause ≠ 0 then cause
  else match root with
    | some c => if (trWrites d).any (fun w => s.heldBy o.fn (some o.ref) (spKey c.val w.1) w.2) then 0x0E else 0
    | none => 0

/-- Registration: the operation takes its place on every leaf engine; its slots are projected free from then on (R147). -/
def State.registerTruss (s : State) (r : OpRef) (ks : List (Nat × Nat)) : State :=
  ks.foldl (fun s k => s.modSlot k.1 k.2 (fun x =>
    { x with projOpen := false, openers := if x.openers.isEmpty then [] else x.openers ++ [r] })) s

/-- Logical cores a truss operation names that cannot take it: unavailable, and with a quarantine in force (R22, R29). -/
def State.trussCoreStatus (s : State) (o : Op) : Nat :=
  let d := o.desc
  let cores := (trLeafList d).map (· / 2) ++ [trRoot d]
  let held := fun l => allCores.any (fun c => let x := s.cell c
    decide (x.owner = some o.fn) && decide (x.logical = l) && x.quarantining)
  if cores.any held then 3 else if cores.any (fun l => (s.phys? o.fn l).isNone) then 4 else 0

/-- Is the set of leaves well formed: not empty and within the function's cores, as ROOT is? -/
def State.leavesOk (s : State) (o : Op) : Bool :=
  let n := (s.fn o.fn).cores
  decide (trLeaves o.desc ≠ 0) && decide (trLeaves o.desc < 2 ^ (2 * n)) && decide (trRoot o.desc < n)

/-- Issue of a truss operation (R146, R147). -/
def State.trussIssue (s : State) (i : Instr) : State :=
  s.issue i (fun o s =>
    let d := o.desc
    let status := if s.leavesOk o then s.trussCoreStatus o else 0
    if status ≠ 0 then s.complete o status 0 0 0
    else if ((trLeafList d).map (· / 2) ++ [trRoot d]).any (s.moving o.fn) then s.park i o
    else
      let entry := s.enabledEntry o.fn (trWatchEn d) (trWatchId d)
      let root := s.phys? o.fn (trRoot d)
      let insts := (trLeafList d).filterMap (s.leafInst o.fn)
      let cause := s.trussCause root insts o entry
      if cause ≠ 0 then s.fail o cause
      else
        let ks := insts.flatMap (fun i => (trSlots d).map (fun k => (i, k)))
        let holds := match root with
          | some c => if trEpi d = 6 then [(spKey c.val (trEpiAddr d), 4 * trWidth d)] else []
          | none => []
        let o := { o with entry := entry, slots := ks, holds := holds }
        (s.putOp o).registerTruss o.ref ks)

def execTrussSum (q : QueueId) (d : Desc) (s : State) : Host.Outcome State Fault Refusal := .next (s.trussIssue (.trussSum q d))

def execTrussMax (q : QueueId) (d : Desc) (s : State) : Host.Outcome State Fault Refusal := .next (s.trussIssue (.trussMax q d))

def execTrussMin (q : QueueId) (d : Desc) (s : State) : Host.Outcome State Fault Refusal := .next (s.trussIssue (.trussMin q d))

def execMaxIdx (q : QueueId) (d : Desc) (s : State) : Host.Outcome State Fault Refusal := .next (s.trussIssue (.maxIdx q d))

def execMinIdx (q : QueueId) (d : Desc) (s : State) : Host.Outcome State Fault Refusal := .next (s.trussIssue (.minIdx q d))

/-! ## The tree (R85, R88, R148) -/

/-- One level of the sum tree. -/
def pairSums : List Val → List Val
  | a :: b :: rest => val24 (rne24 (plusZero (a.add b))) :: pairSums rest
  | xs => xs

/-- SUM of the 64 leaves; the result is still open-precision. -/
def treeSum (leaves : List (Nat × Val)) : Val :=
  let row := (List.range 64).map (fun i => ((leaves.find? (fun l => decide (l.1 = i))).map (·.2)).getD Val.zero)
  (Nat.repeat pairSums 6 row).headD Val.zero

/-- What the root takes for one element: the value and the winning leaf. -/
def treeValue (kind : Nat) (leaves : List (Nat × Val)) : Nat × Val :=
  if kind = 0 then (0, treeSum leaves)
  else
    let b := rowBest (decide (kind = 1 ∨ kind = 3)) (leaves.map (·.2))
    ((leaves.map (·.1)).getD b.1 0, b.2)

/-- Row j of the k-th slot over the leaves read, in leaf order. -/
def treeRow (kind : Nat) (leaves : List (Nat × List (List Op24))) (j : Nat) : List (Nat × Val) :=
  (List.range 512).map (fun n => treeValue kind (leaves.map (fun l => (l.1, val24 ((l.2.getD j []).getD n 0)))))

/-- Rows of the k-th slot within what a leaf gave: 64 rows for each slot. -/
def slotPart (k : Nat) (rows : List (List Op24)) : List (List Op24) := (rows.drop (64 * k)).take 64

def sortLeaves (ls : List (Nat × List (List Op24))) : List (Nat × List (List Op24)) :=
  (List.range 40).filterMap (fun i => ls.find? (fun l => decide (l.1 = i)))

/-- The root writes the k-th slot's rows, its records and, for an index kind, its indices. -/
def State.writeRootSlot (s : State) (c : CoreId) (o : Op) (leaves : List (Nat × List (List Op24))) (k : Nat) : State :=
  let d := o.desc
  let (r0, c0) := trOrigin d k
  let rows := (List.range (trRowsOf d k)).map (treeRow (trKind d) (leaves.map (fun l => (l.1, slotPart k l.2))))
  let s := s.writeTile o.fn c.val (trussRoot d) o.entry k r0 c0 (rows.map (fun r => r.map (·.2)))
  if trIdx d then
    s.writeAll (rows.mapIdx (fun j r =>
      (spKey c.val (trIdxAddr d + (r0 + j) * trWidth d + c0), r.map (fun x => BitVec.ofNat 8 x.1))))
  else s

/-- Every leaf has been read: the root writes, the leaf slots are free, the operation stands stored. -/
def State.trussRootWrite (s : State) (o : Op) : State :=
  match s.phys? o.fn (trRoot o.desc) with
  | none => s.complete o 4 0 0 0
  | some c =>
    let leaves := sortLeaves o.leaves
    let s := (List.range (trSlots o.desc).length).foldl (fun s k => s.writeRootSlot c o leaves k) s
    let s := s.putOp { o with stage := .stored, slots := [], leaves := [] }
    o.slots.foldl (fun s k => ((s.slotClosed k.1 k.2).freeSlot k.1 k.2).settle k.1) s

/-! ## TRUSS_LEAF_READ -/

/-- Is a leaf slot ready for the operation: open with every row of its contents added, or already read by it (R150)? -/
def State.leafReady (s : State) (r : OpRef) (k : Nat × Nat) : Bool :=
  let m := s.me k.1
  let x := m.slot k.2
  !x.openers.contains r &&
    ((decide (x.st = .opened) && (m.passesNow k.2).all (fun p => match s.op? p.op with
        | some o => !o.added.contains k || decide (min (mxRowsM1 o.desc) ((k.2 - mxTile o.desc) / mxPerGroup o.desc * 64 + 63) < p.total - p.left)
        | none => true))
      || (decide (x.st = .closing) && decide (x.closer = some r)))

/-- A failed truss operation: its leaf slots are discarded (R141, R150). -/
def State.trussFail (s : State) (o : Op) (cause : Nat) : State :=
  let ks := s.leafNow o
  ((s.forgetTruss o).fail o cause).discard ks

/-- A leaf's slots are read; a recorded mismatch is recomputed first (R128, R145). -/
def State.readLeaf (s : State) (o : Op) (leaf inst : Nat) : State :=
  let ks := trSlots o.desc
  let core := coreId? (inst / 2)
  let s : State := ks.foldl (fun s k =>
    if ((s.me inst).slot k).mismatch then
      ((s.count (pageMe inst + 0x6C)).raise (pageMe inst) 0).logEvent 0x2041 (some o.fn) inst core
        (k + hdOpId o.desc * 2 ^ 16 + o.queue.val * 2 ^ 32) o.fn.val
    else s) s
  let vals := ks.flatMap (fun k => ((s.me inst).slot k).vals)
  let s : State := ks.foldl (fun s k => s.modSlot inst k (fun x => { x with st := .closing, closer := some o.ref, mismatch := false })) s
  s.putOp { o with leaves := o.leaves ++ [(leaf, vals)] }

/-- The leaf is read, and the last leaf makes the root write. -/
def State.takeLeaf (s : State) (o : Op) (leaf inst : Nat) : State :=
  let s := s.readLeaf o leaf inst
  let o := (s.op? o.ref).getD o
  if o.leaves.length = (trLeafList o.desc).length then s.trussRootWrite o else s

/-- A second mismatch on a leaf slot: cause CHECK, every leaf slot discarded, the core quarantined (R128). -/
def State.leafCheck (s : State) (o : Op) (leaf inst : Nat) : State :=
  let s := s.readLeaf o leaf inst
  let s := (s.count (pageMe inst + 0x68)).trussFail o 0x10
  match coreId? (inst / 2) with
  | some c => s.orderQuarantine c 1
  | none => s

/-- A truss-link parity error: the first has the leaves read again, the second ends the operation (R150). -/
def State.leafParity (s : State) (o : Op) : State :=
  if o.retries = 0 then
    let s := match s.phys? o.fn (trRoot o.desc) with
      | some c => s.count (pageCore c.val + 0x44)
      | none => s
    let s := s.logEvent 0x1141 (some o.fn) 0 none (trRoot o.desc) (hdOpId o.desc)
    s.putOp { o with retries := 1, leaves := [] }
  else s.trussFail o 0x19

/-- TRUSS_LEAF_READ: a leaf whose slots are ready is read; the last leaf makes the root write. A parity error has the leaves
read again once. -/
def execTrussLeafRead (q : QueueId) (opId : BitVec 16) (leaf : Fin 40) (err : RunErr) (s : State) : Host.Outcome State Fault Refusal :=
  match s.ops.find? (fun o => o.named q opId && decide (o.stage = .inflight) && decide (hdClass o.desc = 4) && decide (hdOp o.desc = 1)) with
  | none => .next s
  | some o =>
    match s.leafInst o.fn leaf.val with
    | none => .next s
    | some inst =>
      if leaf.val ∉ trLeafList o.desc ∨ o.leaves.any (fun l => decide (l.1 = leaf.val))
          ∨ (trSlots o.desc).any (fun k => !s.leafReady o.ref (inst, k)) then .next s
      else
        let bad := (trSlots o.desc).any (fun k => ((s.me inst).slot k).mismatch)
        if err = .parity then .next (s.leafParity o)
        else if err = .second ∧ bad then .next (s.leafCheck o leaf.val inst)
        else .next (s.takeLeaf o leaf.val inst)

end Sys2Proof.Machine
end

