-- ==== Sys2Proof/Machine/Events.lean ====
section
/-! DEFINITION. The events of a beat plan (R49 to R52, Table 2-5), the beat-wait operation they release (R423), and planned moves
(R27). -/

namespace Sys2Proof.Machine

/-! ## beat-wait (R423, R52) -/

def bwAt (d : Desc) : Nat := fld d 127 64

/-- Has the beat number a beat-wait names come? -/
def State.atBeat (s : State) (d : Desc) : Bool := s.beat.epochSet && decide (bwAt d ≤ s.beat.number.toNat)

/-- A beat-wait whose event was skipped before it was read completes with status skipped (R51). -/
def State.tookSkip (s : State) (o : Op) : State :=
  let x := s.queue o.queue.val
  (s.setQueue o.queue.val { x with skips := (takeFirst (fun t => decide (t = hdTag o.desc)) x.skips).2 }).complete o 5 0 0 0

def execBeatWait (q : QueueId) (d : Desc) (s : State) : Host.Outcome State Fault Refusal :=
  .next (s.issue (.beatWait q d) (fun o s =>
    if bwAt d ≠ 0 then (if s.atBeat d then s.done o else s)
    else if (s.fn o.fn).active.isNone then s.complete o 6 0 0 0
    else if (s.queue o.queue.val).skips.contains (hdTag d) then s.tookSkip o
    else s))

/-- The first tagged beat-wait of an event's queue that has not completed, wherever it stands. -/
def State.tagWait? (s : State) (f : FnId) (e : BitVec 256) : Option Op :=
  s.ops.find? (fun o => decide (o.fn = f) && decide (o.queue = queueId (evQueue e)) && decide (hdClass o.desc = 5) && decide (bwAt o.desc = 0)
    && decide (hdTag o.desc = evTag e))

/-- The tagged beat-wait that a queue is held at, which an event's TAG releases. -/
def State.heldWait? (s : State) (f : FnId) (e : BitVec 256) : Option Op :=
  s.ops.find? (fun o => decide (o.fn = f) && decide (o.queue = queueId (evQueue e)) && decide (hdClass o.desc = 5) && decide (bwAt o.desc = 0)
    && decide (o.stage = .inflight) && decide (hdTag o.desc = evTag e))

/-- Operations a beat-wait holds: those behind it on its queue, up to the next beat-wait. -/
def State.heldBehind (s : State) (o : Op) : List Op :=
  (((s.ops.dropWhile (fun x => !x.is o.ref)).drop 1).filter (fun x => decide (x.queue = o.queue))).takeWhile (fun x => decide (hdClass x.desc ≠ 5))

/-! ## Start conditions (R50, R218, Table 2-5) -/

/-- Ranges an operation reads: memory keys and lengths. -/
def State.opReads (s : State) (o : Op) : List (Nat × Nat) :=
  let d := o.desc
  match hdClass d, s.coreOf o with
  | 0, some c => mxHolds c.val d
  | 1, some c => (veReads d).map (fun r => (spKey c.val r.1, r.2))
  | 2, some c =>
    let gs := s.groups c.val d
    let fr := s.frame (tnFrame d)
    (tnReadRanges fr d gs gs).map (fun r => (spKey c.val r.1, r.2)) ++ (gs.flatMap (needed fr d)).map (fun x => (s.readAddr o.fn x.addr, x.bytes))
  | 3, _ => (s.mvSrcKeys o.fn d).map (fun r => (s.readAddr o.fn r.1, r.2))
  | 4, _ =>
    match hdOp d with
    | 1 => (match s.phys? o.fn (trRoot d) with
      | some c => if trEpi d = 6 then [(spKey c.val (trEpiAddr d), 4 * trWidth d)] else []
      | none => [])
    | 2 => (rdReads d).map (fun r => (s.readAddr o.fn r.1, r.2))
    | 3 => [(s.readAddr o.fn (sgSrcAddr d), sgBytes d)]
    | 4 => ((s.stageSource o.fn d).map (fun a => (a, ssBytes d))).toList
    | 5 => [(s.readAddr o.fn (sfRegion d), sfBytes d)]
    | _ => []
  | _, _ => []

/-- Does a move in flight of a function write a range? -/
def State.moveWrites (s : State) (f : FnId) (a n : Nat) : Bool :=
  s.ops.any (fun o => decide (o.fn = f) && decide (hdClass o.desc = 3) && o.flying
    && (s.mvKeys f o.desc).any (fun r => overlaps (s.writeAddr f r.1) r.2 a n))

/-- Is a page resident: TIER 1 or 2 and MOVE IDLE; an untiered companion page has no entry? -/
def State.pageResident (s : State) (f : FnId) (p : Nat) : Bool :=
  let e := s.page p
  (decide (region (p * 65536) = .companion) && !s.tieredPage f p) || (decide (pgTier e = 1 ∨ pgTier e = 2) && decide (pgMove e = 0))

/-- Is a range resident (R218)? -/
def State.resident (s : State) (f : FnId) (r : Nat × Nat) : Bool :=
  if 2 ^ 44 ≤ r.1 then !s.moveWrites f r.1 r.2
  else match region r.1 with
    | .llm =>
      let slots := (partsOf r.1 r.2).filterMap (s.fn f).windowSlot?
      if slots.isEmpty then !s.moveWrites f r.1 r.2 else (s.windowWait? f (partsOf r.1 r.2)).isNone
    | _ => (pagesOf r.1 r.2).all (s.pageResident f)

/-- Is every object an operation reads resident? -/
def State.objectsReady (s : State) (o : Op) : Bool := let rs := s.opReads o; rs.all (s.resident o.fn) && !s.stageWait o.fn rs

/-- Is every partner of a collective discovered? -/
def State.partnersFound (s : State) (o : Op) : Bool :=
  let d := o.desc
  let found := fun (p : Nat) => decide ((s.port p).st = 3)
  let reach := fun (pos : Nat) => decide (pos = s.pos) || ((s.route (s.topoOf o.fn) pos).getD []).any found
  match hdOp d with
  | 2 => (s.usedLinks o.fn d).all (fun l => let ps := s.portsOf o.fn d l; !ps.isEmpty && ps.all found)
  | 3 => ((s.cutOthers o.fn d).map (·.2)).all reach
  | 4 => ((s.stageQ? o.fn (ssQid d)).map (fun x => found (sqPort x.record))).getD true
  | 5 => ((s.pieces o.fn d).map (·.partner)).all reach
  | _ => true

/-- Has the destination window room for a fill move? -/
def State.windowRoom (s : State) (o : Op) : Bool :=
  let d := o.desc
  decide (hdClass d ≠ 3) || decide (mvWfill d = 0) || (match (s.fn o.fn).window[mvWslot d]? with
    | some w => decide (w.st = 0) || (decide (w.st = 1) && decide (w.layer = mvWlayer d))
    | none => true)

/-- Is the start condition of a RELEASE, COLLECTIVE or MOVE met? Earlier operations of the queue have issued, or the beat-wait would
not stand in flight. -/
def State.releaseReady (s : State) (f : FnId) (e : BitVec 256) : Bool :=
  match s.heldWait? f e with
  | none => false
  | some w =>
    let os := s.heldBehind w
    os.all s.objectsReady
      && (decide (evKind e ≠ 2) || (os.filter (fun o => decide (hdClass o.desc = 4))).all s.partnersFound)
      && (decide (evKind e ≠ 3) || os.all s.windowRoom)

/-- Cores of a function that a CORE_MOVE may carry away: those a margin plan names, then those whose test is due. -/
def State.moveSource? (s : State) (f : FnId) : Option CoreId :=
  let mine := allCores.filter (fun c => let x := s.cell c
    decide (x.owner = some f) && decide (x.st = .inService) && x.moveTo.isNone && !x.quarantining)
  match mine.find? (fun c => (s.cell c).movePending) with
  | some c => some c
  | none => mine.find? (fun c => (s.cell c).testDue)

/-- Where it goes: a reserve core, on another die where OUTLIER asks for that. -/
def State.moveDest? (s : State) (f : FnId) (c : CoreId) : Option CoreId :=
  let away := (s.cell c).movePending && decide ((s.cell c).nextSt = some .eligible)
  (s.reserveFor f (s.fn f).quiet).find? (fun k => !away || decide (k.val / 6 ≠ c.val / 6))

/-- Are all tiles of a core closed: no slot is open, and no operation is in progress on its engines? -/
def State.tilesClosed (s : State) (c : CoreId) : Bool :=
  !s.engineBusy c && [0, 1].all (fun e => (s.me (meInst c.val e)).slots.all (fun x => decide (x.2.st = .free)))

/-- Is the start condition of an event met (Table 2-5)? A DEADLINE and a RESERVE start nothing. -/
def State.canStart (s : State) (f : FnId) (e : BitVec 256) : Bool :=
  match evKind e with
  | 1 => s.releaseReady f e
  | 2 => s.releaseReady f e
  | 3 => s.releaseReady f e
  | 7 => (match (s.fn f).resize with
    | some z => decide (z.tag.toNat = evTag e)
    | none => false)
  | 8 => false
  | 9 => (match s.moveSource? f with
    | some c => s.tilesClosed c && (s.moveDest? f c).isSome
    | none => true)
  | 10 => false
  | _ => true

/-! ## Starting an event (R50, R51) -/

/-- The running plan of a function whose events may start: not on a hold beat (R45), and while the function runs or drains. -/
def State.runningPlan? (s : State) (f : FnId) : Option Plan :=
  let x := s.fn f
  if s.beat.holding || !(decide (x.st = .running) || decide (x.st = .draining)) then none
  else x.active.filter (fun p => p.running)

def Plan.event (p : Plan) (i : Nat) : BitVec 256 := p.events[i]?.getD 0

/-- The instance of an event that stands first to start, where it is due. -/
def Plan.due? (p : Plan) (idx : Nat) : Option Due := (p.waiting.find? (fun w => decide (w.idx = idx))).filter (fun w => decide (w.beat ≤ p.clock))

/-- Does an instance stand before another of the same beat: in record order, resizes first (R49, R337)? -/
def Plan.ahead (p : Plan) (a b : Due) : Bool :=
  decide (a.beat = b.beat) &&
    (let ra := decide (evKind (p.event a.idx) = 7)
     let rb := decide (evKind (p.event b.idx) = 7)
     (ra && !rb) || (decide (ra = rb) && decide (a.idx < b.idx)))

/-- Is an event late beyond its slack? -/
def Plan.late (p : Plan) (w : Due) : Bool := decide (w.beat + evSlack (p.event w.idx) < p.clock)

/-- Whether the instance may start now: its condition holds, and none that stands before it could start. -/
def State.mayStart (s : State) (f : FnId) (p : Plan) (w : Due) : Bool :=
  s.canStart f (p.event w.idx) && p.waiting.all (fun v => !(p.ahead v w && s.canStart f (p.event v.idx)))

/-- The instance no longer waits; an overrun is counted where neither a hold nor a skip answers its lateness (R51). -/
def Plan.start (p : Plan) (w : Due) : Plan :=
  let e := p.event w.idx
  let beyond := p.late w && !evSkipLate e && (!evHoldOk e || w.refused)
  { p with waiting := (takeFirst (fun v => decide (v = w)) p.waiting).2, overruns := p.overruns + b2n beyond }

def State.modPlan (s : State) (f : FnId) (g : Plan → Plan) : State := s.modFn f (fun x => { x with active := x.active.map g })

/-- Own hold requests for an event are settled. -/
def State.settleHold (s : State) (f : FnId) (idx : Nat) : State :=
  { s with beat := { s.beat with ownRequests := s.beat.ownRequests.filter (fun r => !(decide (r.1 = f) && decide (r.2.1 = idx))) } }

/-- Start an event of one of some kinds, where it may: its instance is taken, and its action is done. -/
def State.startEvent (s : State) (f : FnId) (idx : Nat) (kind : Nat) (act : BitVec 256 → State → State) : State :=
  match s.runningPlan? f with
  | none => s
  | some p =>
    match p.due? idx with
    | none => s
    | some w =>
      let e := p.event idx
      if evKind e = kind ∧ s.mayStart f p w then act e ((s.modPlan f (fun p => p.start w)).settleHold f idx) else s

/-- Release the beat-wait of an event; a COLLECTIVE's queue issues that event's collectives from then on (R320). -/
def State.releaseWait (s : State) (f : FnId) (e : BitVec 256) (event : Option Nat) : State :=
  match s.heldWait? f e with
  | none => s
  | some o => (s.setQueue o.queue.val { s.queue o.queue.val with event := event }).done o

def execReleaseEvent (f : FnId) (idx : Nat) (s : State) : Host.Outcome State Fault Refusal :=
  .next (s.startEvent f idx 1 (fun e s => s.releaseWait f e none))

def execCollectiveEvent (f : FnId) (idx : Nat) (s : State) : Host.Outcome State Fault Refusal :=
  .next (s.startEvent f idx 2 (fun e s => s.releaseWait f e (some idx)))

def execMoveEvent (f : FnId) (idx : Nat) (s : State) : Host.Outcome State Fault Refusal :=
  .next (s.startEvent f idx 3 (fun e s => s.releaseWait f e none))

/-- The COMMIT event: the decision held is applied, and without one the member votes abort (R326, R327). -/
def State.commitNow (s : State) (f : FnId) : State :=
  if !s.mapped f then s
  else
    let s := s.modStep f (fun st => { st with commitBeat := some s.beatNow })
    match (s.fn f).step.decision with
    | some d => s.applyDecision f d
    | none => s.vote f 5

def execCommitEvent (f : FnId) (idx : Nat) (s : State) : Host.Outcome State Fault Refusal :=
  .next (s.startEvent f idx 4 (fun _ s => s.commitNow f))

/-- POWER_RAMP: the ramp ceiling starts from its present value (R392). -/
def execPowerRamp (f : FnId) (idx : Nat) (s : State) : Host.Outcome State Fault Refusal :=
  .next (s.startEvent f idx 5 (fun e s =>
    s.modFn f (fun x => { x with rampFrom := x.ramp, rampTo := evTag e % 32, rampDone := 0, rampLen := evDuration e })))

/-- SHIM: a floor for DURATION plan beats (R391). -/
def execShim (f : FnId) (idx : Nat) (s : State) : Host.Outcome State Fault Refusal :=
  .next (s.startEvent f idx 6 (fun e s => s.modFn f (fun x => { x with shims := x.shims ++ [(evTag e % 32, evDuration e)] })))

/-- RESIZE: the accepted resize of its tag takes effect (R337). -/
def execResizeEvent (f : FnId) (idx : Nat) (s : State) : Host.Outcome State Fault Refusal :=
  .next (s.startEvent f idx 7 (fun _ s => s.resizeNow f))

/-- CORE_MOVE: a planned move of one logical core begins; the core is held at operation boundaries (R27). -/
def execCoreMove (f : FnId) (idx : Nat) (s : State) : Host.Outcome State Fault Refusal :=
  .next (s.startEvent f idx 9 (fun _ s =>
    match s.moveSource? f with
    | none => s
    | some c => s.modCell c (fun x => { x with moveTo := s.moveDest? f c })))

/-! ## Planned moves (R27) -/

/-- The copy of a planned move ends; the mapping changes at the next beat boundary. -/
def execPlannedMoveComplete (core : CoreId) (s : State) : Host.Outcome State Fault Refusal :=
  match (s.cell core).moveTo with
  | none => .next s
  | some dst => .next ((s.copyCore core dst).modCell core (fun x => { x with moveDone := true }))

/-! ## Deadlines (R320) -/

/-- Is the next beat a granted hold beat? -/
def State.holdNext (s : State) : Bool :=
  let n := s.beat.number.toNat + 1
  s.beat.holds.any (fun h => decide (h.1 ≤ n) && decide (n < h.1 + h.2.1))

/-- Operations a COLLECTIVE event governs that a deadline ends: what has not arrived counts as missing. -/
def State.missing (s : State) (f : FnId) (link : Nat) : List Op :=
  s.ops.filter (fun o => decide (o.fn = f) && decide (hdClass o.desc = 4) && decide (o.event = some link) && decide (o.stage = .inflight)
    && (decide (hdOp o.desc = 3) || (decide (hdOp o.desc = 4) && decide (o.cause ≠ 0))
      || (decide (hdOp o.desc = 5) && !((s.fn f).job.scarf.map (·.done)).getD true)))

/-- A deadline passes: reduces and gathers of its COLLECTIVE that are incomplete end with RED_MISSING. -/
def State.passDeadline (s : State) (f : FnId) (link : Nat) : State :=
  let rs := s.reduces.filter (fun r => decide (r.fn = f) && r.ended.isNone && decide ((s.op? r.op).any (fun o => decide (o.event = some link))))
  let s : State := rs.foldl (fun s r => (s.endReduce r.op 1 0x81).flush f (rdChannel r.desc)) s
  (s.missing f link).foldl (fun s o => s.fail o 0x81) s

/-- DEADLINE: at the end of its plan beat, which a hold beat that follows puts off (R46). -/
def execDeadline (f : FnId) (idx : Nat) (s : State) : Host.Outcome State Fault Refusal :=
  match (s.runningPlan? f).bind (fun p => (p.due? idx).map (fun w => (p, w))) with
  | none => .next s
  | some (p, w) =>
    let e := p.event idx
    if evKind e = 8 ∧ (w.beat < p.clock ∨ !s.holdNext) then
      .next ((s.modPlan f (fun p => { p with waiting := (takeFirst (fun v => decide (v = w)) p.waiting).2 })).passDeadline f (evLink e))
    else .next s

end Sys2Proof.Machine
end

