-- ==== Sys2Proof/Machine/Beat.lean ====
section
/-! DEFINITION. The beat: its edge and what happens there (R36, R45, R50 to R52), hold beats (R59 to R63), its sources (R37 to R44)
and the messages of the cadence domain (Table 11-5). -/

namespace Sys2Proof.Machine

def State.modBeat (s : State) (g : Beat → Beat) : State := { s with beat := g s.beat }

/-- Offsets of the counters of hold requests and of hold beats by cause (Table 20-4). -/
def holdReqOff (cause : Nat) : Nat := pageBeat + 0x100 + 4 * (cause % 16)
def holdBeatOff (cause : Nat) : Nat := pageBeat + 0x140 + 4 * (cause % 16)

/-! ## Granting holds (R60 to R63) -/

/-- Is a beat a granted hold beat? -/
def Beat.isHold (b : Beat) (n : Nat) : Bool := b.holds.any (fun h => decide (h.1 ≤ n) && decide (n < h.1 + h.2.1))

/-- Hold beats granted at or after a beat. -/
def Beat.heldFrom (b : Beat) (n : Nat) : Nat := sumNat (b.holds.map (fun h => h.1 + h.2.1 - max h.1 n))

/-- End of the last run granted. -/
def Beat.heldEnd (b : Beat) : Nat := b.holds.foldl (fun m h => max m (h.1 + h.2.1)) 0

/-- A run becomes hold beats here: one whose first beat has passed starts whole at the next edge, after any run in the way. -/
def State.applyGrant (s : State) (first n cause : Nat) : State :=
  let now := s.beat.number.toNat
  let start := if first ≤ now then max (now + 1) s.beat.heldEnd else first
  let fs := (s.beat.ownRequests.map (·.1)).eraseDups
  let s := s.count (holdBeatOff cause) n
  let s : State := fs.foldl (fun s f => s.addReg (f.val + 1) (holdBeatOff cause) n) s
  s.modBeat (fun b => { b with holds := b.holds ++ [(start, n, cause)], ownRequests := [] })

/-- A refusal: each own request sent at that beat is handled as if HOLD_OK were clear (R61). -/
def State.applyRefusal (s : State) (send : Nat) : State :=
  let mine := s.beat.ownRequests
  let s := (s.count (pageBeat + 0x7C) 1).raise pageBeat 2
  let s : State := mine.foldl (fun s r => s.modPlan r.1 (fun p => { p with waiting := p.waiting.map (fun w =>
    if w.idx = r.2.1 ∧ w.asked = some send then { w with refused := true } else w) })) s
  s.modBeat (fun b => { b with ownRequests := [] })

/-- Refuse a merged set: one message for each requester. -/
def State.refuseHolds (s : State) (rs : List (BitVec 16 × Nat × Nat × Nat × Nat)) : State :=
  let who := (rs.map (fun r => (r.1.toNat, r.2.2.2.2))).eraseDups
  who.foldl (fun (s : State) w =>
    if w.1 = s.chip then s.applyRefusal w.2 else s.sendDown (s.beatMsg 4 w.2 0 (w.1 + 2 ^ 16) s.chip)) s

/-- The master merges the requests it received in a beat, and grants, absorbs or refuses the set. -/
def State.mergeHolds (s : State) : State :=
  let b := s.beat
  let rs := b.requests
  if rs.isEmpty then s
  else
    let k := rs.foldl (fun m r => max m r.2.1) 0
    let cause := (rs.filter (fun r => decide (r.2.1 = k))).foldl (fun m r => min m r.2.2.1) 15
    let send := rs.foldl (fun m r => min m r.2.2.2.2) (2 ^ 64)
    let h := send + b.lead
    let n := k - b.heldFrom h
    let s := s.modBeat (fun b => { b with requests := [] })
    if n = 0 then s.modBeat (fun b => { b with ownRequests := [] })
    else if s.reg 0 (pageBeat + 0x4C) % 8192 < b.heldFrom (b.number.toNat - 4095) + n then s.refuseHolds rs
    else
      let first := max h b.heldEnd
      (s.sendDown (s.beatMsg 4 first n 0 s.chip)).applyGrant first n cause

/-- A request reaches the master. -/
def State.onHoldReq (s : State) (origin : BitVec 16) (k cause planBeat send : Nat) : State :=
  s.modBeat (fun b => { b with requests := b.requests ++ [(origin, k, cause, planBeat, send)] })

/-- Send a request for hold beats for an event of a function (R59). -/
def State.askHold (s : State) (f : FnId) (w : Due) (k cause : Nat) : State :=
  let now := s.beat.number.toNat
  let s := (s.count (holdReqOff cause) 1).addReg (f.val + 1) (holdReqOff cause) 1
  let s := s.modPlan f (fun p => { p with waiting := p.waiting.map (fun v => if v = w then { v with asked := some now } else v) })
  let s := s.modBeat (fun b => { b with ownRequests := b.ownRequests ++ [(f, w.idx, k, cause)] })
  if s.isMaster then s.onHoldReq (BitVec.ofNat 16 s.chip) k cause w.beat now
  else s.sendUpTree (s.beatMsg 3 now (k - 1 + cause * 2 ^ 12) (w.beat % 2 ^ 32) s.chip)

def execHoldReq (msg : BitVec 256) (s : State) : Host.Outcome State Fault Refusal :=
  if bmKind msg ≠ 3 then .next s
  else if s.isMaster then
    let cause := bmArg1 msg / 2 ^ 12 % 16
    .next ((s.count (holdReqOff cause) 1).onHoldReq (BitVec.ofNat 16 (bmOrigin msg)) (bmArg1 msg % 2 ^ 12 + 1) cause (bmArg2 msg) (bmNumber msg))
  else .next (s.sendUpTree msg)

/-- A grant or a refusal from the parent: passed on, and applied; the message names no cause, so a member counts the beats under
one the model leaves open (log entry 59). -/
def State.fromGrant (s : State) (msg : BitVec 256) : State :=
  let s := s.sendDown msg
  if bmArg1 msg = 0 then
    if (bmArg2 msg).testBit 16 ∧ bmArg2 msg % 2 ^ 16 = s.chip then s.applyRefusal (bmNumber msg) else s
  else let (c, s) := s.draw; s.applyGrant (bmNumber msg) (bmArg1 msg) (c % 16)

def execHoldGrant (port : PortId) (msg : BitVec 256) (s : State) : Host.Outcome State Fault Refusal :=
  if bmKind msg ≠ 4 ∨ (s.port port.val).st ≠ 3 then .next s
  else
    let s := s.took port.val 0 2
    if s.beat.parent = some port then .next (s.fromGrant msg) else .next s

/-! ## Lateness (R58, R59, R221, R293, R294) -/

/-- The slot that a released operation waits for and that is being filled. -/
def State.fillingSlot? (s : State) (f : FnId) (e : BitVec 256) : Option WSlot :=
  match s.heldWait? f e with
  | none => none
  | some w =>
    let x := s.fn f
    let parts := (s.heldBehind w).flatMap (fun o => (s.opReads o).flatMap (fun r => if r.1 < 2 ^ 44 ∧ region r.1 = .llm then partsOf r.1 r.2 else []))
    (parts.filterMap x.windowSlot?).findSome? (fun j => x.window[j]?.filter (fun v => decide (v.st = 1)))

/-- Does an operation before an event's beat-wait on its queue wait for credit, or has a compute operation there not issued? -/
def State.queueBehind (s : State) (e : BitVec 256) (stage : Bool) : Bool :=
  s.ops.any (fun o => decide (o.queue = queueId (evQueue e)) && (decide (o.stage = .held) || decide (o.stage = .dispatched))
    && (if stage then decide (hdClass o.desc = 4) && decide (hdOp o.desc = 4) else decide (hdClass o.desc ≤ 2)))

/-- Do the released operations read something that is not resident, and is it a stage slot? -/
def State.unready (s : State) (f : FnId) (e : BitVec 256) (stage : Bool) : Bool :=
  match s.heldWait? f e with
  | none => false
  | some w => (s.heldBehind w).any (fun o => let rs := s.opReads o
      if stage then s.stageWait f rs else !rs.all (s.resident f))

/-- Is the package slowed by a throttle or by a cap? -/
def State.slowed (s : State) (f : FnId) : Bool := s.anyThrottle || (s.coresOf f).any (fun c => decide ((s.cell c).capCeiling < 16))

/-- Cause of an event's lateness (Table 2-8). -/
def State.lateCause (s : State) (f : FnId) (e : BitVec 256) : Nat :=
  if s.queueBehind e true then 7
  else if s.queueBehind e false ∨ s.unready f e true then 2
  else if s.unready f e false then (if (s.fillingSlot? f e).any (fun v => v.late) then 5 else 1)
  else if s.slowed f then 6
  else 0xE

/-- Hold requests for one instance at a plan beat: the estimate of a window fill up to OFFSET, and after OFFSET + SLACK; again as
each hold ends. -/
def State.askFor (s : State) (f : FnId) (p : Plan) (after : Bool) (w : Due) : State :=
  let e := p.event w.idx
  if !evHoldOk e || w.refused || s.canStart f e || decide (8 ≤ evKind e ∧ evKind e ≠ 9) || !(w.asked.isNone || after) then s
  else if p.late w then s.askHold f w (min 4096 (p.clock + 1 - w.beat)) (s.lateCause f e)
  else if p.clock ≤ w.beat then
    match s.fillingSlot? f e with
    | none => s
    | some v =>
      let (k, s) := s.draw
      if evSlack e < k then s.askHold f w (min 4096 k) (if v.late then 5 else 1) else s
  else s

/-- Requests of a function's plan. -/
def State.askAll (s : State) (f : FnId) (after : Bool) : State :=
  match s.runningPlan? f with
  | none => s
  | some p => p.waiting.foldl (fun s w => s.askFor f p after w) s

/-- The beat-wait of a skipped event completes with status skipped; one that has not been read will (R51, log entry 66). DEDUCED. -/
def State.skipWait (s : State) (f : FnId) (e : BitVec 256) : State :=
  let q := evQueue e
  match s.tagWait? f e with
  | some o => (if o.stage = .inflight then s.setQueue o.queue.val { s.queue o.queue.val with event := none } else s).kill o 5 0
  | none => s.setQueue q { s.queue q with skips := (s.queue q).skips ++ [evTag e] }

/-- Skip late events (R51): the action does not happen. -/
def State.skipLate (s : State) (f : FnId) : State :=
  match s.runningPlan? f with
  | none => s
  | some p =>
    let gone := p.waiting.filter (fun w => evSkipLate (p.event w.idx) && p.late w)
    let s := s.modPlan f (fun p => { p with waiting := p.waiting.filter (fun w => !gone.contains w), skips := p.skips + gone.length })
    gone.foldl (fun s w => let e := p.event w.idx
      if evReleases e then s.skipWait f e else s) s

/-! ## The plan clock (R45, R52) -/

/-- Events of the period that begins at a plan beat. -/
def Plan.period0 (p : Plan) (beat : Nat) : List Due :=
  p.events.zipIdx.map (fun e => { idx := e.2, beat := beat + evOffset e.1, asked := none, refused := false })

/-- The plan's clock starts. -/
def Plan.begin (p : Plan) : Plan := { p with running := true, begun := true, clock := 0, waiting := p.period0 0 }

/-- Beat-waits of a function that has no plan any more complete with status no plan. -/
def State.endWaits (s : State) (f : FnId) : State :=
  let s : State := { s with queues := s.queues.map (fun (x : Nat × Queue) => if x.2.owner = f then (x.1, { x.2 with skips := [] }) else x) }
  (s.opsOf f).foldl (fun s o => if hdClass o.desc = 5 ∧ bwAt o.desc = 0 ∧ o.stage = .inflight then s.complete o 6 0 0 0 else s) s

/-- The active plan has run its last period: a pending plan begins at this beat, or the function has no plan. -/
def State.nextPlan (s : State) (f : FnId) : State :=
  match (s.fn f).pendingPlan with
  | some q => s.modFn f (fun x => { x with active := some q.begin, pendingPlan := none })
  | none => (s.modFn f (fun x => { x with active := none })).endWaits f

/-- One plan beat: a new period's events join those that wait; RESERVE records start nothing and go as they fall due. -/
def Plan.tick (p : Plan) : Plan :=
  let c := p.clock + 1
  { p with clock := c, waiting := p.waiting ++ (if c % p.period = 0 then p.period0 c else []) }

def Plan.dropReserves (p : Plan) : Plan :=
  { p with waiting := p.waiting.filter (fun w => !(decide (evKind (p.event w.idx) = 10) && decide (w.beat ≤ p.clock))) }

/-- A plan's last period ends as its clock reaches this beat. -/
def Plan.ends (p : Plan) (pending : Bool) : Bool :=
  let c := p.clock + 1
  decide (c % p.period = 0) && (pending || (decide (phRepeats p.header ≠ 0) && decide (c / p.period = phRepeats p.header)))

/-- The plan of a function at a beat edge that is no hold beat. -/
def State.tickPlan (s : State) (f : FnId) : State :=
  let x := s.fn f
  match x.active with
  | none => s
  | some p =>
    if x.st ≠ .running ∧ x.st ≠ .draining then s
    else
      let s := if p.running then (if p.ends x.pendingPlan.isSome then s.nextPlan f else s.modPlan f Plan.tick)
        else if phStartBeat p.header ≤ s.beat.number.toNat then
          s.modPlan f (fun p => if p.begun then { p with running := true } else p.begin)
        else s
      s.modPlan f Plan.dropReserves

/-- Deadlines whose plan beat ends now (R320). -/
def State.endDeadlines (s : State) (f : FnId) : State :=
  match s.runningPlan? f with
  | none => s
  | some p =>
    let due := p.waiting.filter (fun w => decide (evKind (p.event w.idx) = 8) && decide (w.beat ≤ p.clock))
    let s := s.modPlan f (fun p => { p with waiting := p.waiting.filter (fun w => !due.contains w) })
    due.foldl (fun s w => s.passDeadline f (evLink (p.event w.idx))) s

/-! ## Floors and ramps (R391, R392) -/

/-- Ramp ceiling after some plan beats: whole levels spread evenly. -/
def rampLevel (a b done len : Nat) : Nat :=
  if len ≤ done then b else if a ≤ b then a + (b - a) * done / len else a - (a - b) * done / len

def Fn.tickPower (x : Fn) : Fn :=
  let n := min (x.rampDone + 1) x.rampLen
  let shims := (x.shims.map (fun z => (z.1, z.2 - 1))).filter (fun z => decide (0 < z.2))
  { x with shims := shims, rampDone := n, ramp := if x.rampLen = 0 then x.ramp else rampLevel x.rampFrom x.rampTo n x.rampLen }

/-! ## The epoch (R36) -/

/-- Does any function hold a plan or a class, so that the package refuses an epoch and a change of its beat (R35, R36)? -/
def State.planHeld (s : State) : Bool :=
  allFns.any (fun f => let x := s.fn f; x.active.isSome || x.pendingPlan.isSome || !x.classes.isEmpty)

/-- The package refuses an epoch: it is no member of the domain until it accepts a later one. -/
def State.refuseEpoch (s : State) : State :=
  ((s.modBeat (fun b => { b with refused := true, inDomain := false, armed := none })).pageError pageBeat 0xFFFF none true).sendHellos

/-- The beat number is set; the lead measured from now on is 2 or more (R43). -/
def State.takeEpoch (s : State) (v : BitVec 64) : State :=
  let (l, s) := s.draw
  let lead := if s.hasPartner then max 2 (l % 256) else 2
  (s.modBeat (fun b => { b with number := v, epochSet := true, inDomain := true, refused := false, armed := none, holds := [], holding := false,
                                requests := [], ownRequests := [], lead := lead })).sendHellos

/-- The count of the next edge, or the number an armed epoch gives it. -/
def State.nextNumber (s : State) : State :=
  let n := s.beat.number + 1
  match s.beat.armed with
  | some (e, v) => if e ≤ n.toNat then (if s.planHeld then (s.modBeat (fun b => { b with number := n })).refuseEpoch else s.takeEpoch v)
    else s.modBeat (fun b => { b with number := n })
  | none => s.modBeat (fun b => { b with number := n })

/-- EPOCH from the parent: refused, or armed at the named edge after the last sync edge; an edge that has passed is the next one,
with the number it then has. -/
def State.onEpoch (s : State) (msg : BitVec 256) : State :=
  let s := s.sendDown msg
  if s.planHeld then s.refuseEpoch
  else
    let now := s.beat.number.toNat
    let edge := now - s.beat.sinceSync + bmArg1 msg
    let at1 := max edge (now + 1)
    s.modBeat (fun b => { b with armed := some (at1, BitVec.ofNat 64 (bmNumber msg + (at1 - edge))), refused := false })

def execEpoch (port : PortId) (msg : BitVec 256) (s : State) : Host.Outcome State Fault Refusal :=
  if bmKind msg ≠ 2 ∨ (s.port port.val).st ≠ 3 then .next s
  else
    let s := s.took port.val 0 2
    if s.beat.parent = some port ∧ bmPeriod msg = s.beat.period then .next (s.onEpoch msg) else .next s

/-! ## The edge -/

/-- A PWR_SHIFT takes effect once the COMMIT of its step has been applied; a disabled group's offset at once (R390). -/
def State.applyShift (s : State) : State :=
  match s.power.nextOffset with
  | none => s
  | some v =>
    if !s.power.groupOn then { s with power := { s.power with offset := v, nextOffset := none } }
    else if (s.jobFns s.power.groupJob.toNat).any (fun f => (s.fn f).step.sent) then s
    else { s with power := { s.power with offset := v, nextOffset := none } }.count (pagePwr + 0xA4)

/-- Management orders that take effect at a beat boundary, hold beats included (Table 1-4): the cap, the shift, the governor's step,
the voltages, the cell map; then the cap controller (R383). -/
def State.boundaryOrders (s : State) : State :=
  let s := { s with power := { s.power with cap := s.power.nextCap.getD s.power.cap, nextCap := none,
                                            govStep := s.reg 0 (pagePwr + 0x5C) % 8 } }
  let s := s.applyShift
  let s : State := [0, 1, 2, 3].foldl (fun s d => s.setDie d ((s.die d).volts (2 ^ s.beat.period))) s
  s.cellMapNow.capControl

/-- Beat-waits whose AT_BEAT has come (R423). -/
def State.endAtBeat (s : State) : State :=
  s.ops.foldl (fun s o => if hdClass o.desc = 5 ∧ o.stage = .inflight ∧ bwAt o.desc ≠ 0 ∧ s.issuing o.queue ∧ s.atBeat o.desc then s.done o else s) s

/-- After a beat with FALLBACK pending the source is the fabric (R38). -/
def State.applyFallback (s : State) : State :=
  if !s.beat.fallback then s
  else (s.modBeat (fun b => { b with fallback := false })).setReg 0 (pageBeat + 0x40)
    (withField (s.reg 0 (pageBeat + 0x40)) 5 4 2)

/-- What the plans do at an edge that is no hold beat. -/
def State.planEdge (s : State) (after : Bool) : State :=
  let s : State := allFns.foldl (fun s f => s.tickPlan f) s
  let s : State := allFns.foldl (fun s f => s.modFn f Fn.tickPower) s
  allFns.foldl (fun s f => (s.skipLate f).askAll f after) s

/-- A beat edge. Deadlines of the beat that ends pass unless the next beat is held. -/
def execBeatEdge (s : State) : Host.Outcome State Fault Refusal :=
  let s := s.mergeHolds
  let s : State := if s.holdNext then s else allFns.foldl (fun s f => s.endDeadlines f) s
  let s := s.nextNumber
  let n := s.beat.number.toNat
  let after := s.beat.holding
  let s := s.modBeat (fun b => { b with holding := b.epochSet && b.isHold n, holds := b.holds.filter (fun h => decide (n < h.1 + h.2.1 + 4096)),
                                        sinceSync := b.sinceSync + 1 })
  let s := s.applyFallback
  let s := if s.beat.holding then s else s.planEdge after
  .next s.boundaryOrders.endAtBeat

/-! ## SYNC (R41, R269) -/

/-- Units of 62.5 ps in a beat (R34). -/
def State.beatUnits (s : State) : Nat := 500 * 2 ^ s.beat.period

/-- A new master is followed: hold requests and job registrations go to it again (R44, R324). -/
def State.followMaster (s : State) (master : Nat) : State :=
  if s.beat.master.toNat = master then s
  else
    let s := s.newMaster master
    let s := s.modBeat (fun b => { b with backup := BitVec.ofNat 16 (s.pickBackup master) })
    let now := s.beat.number.toNat
    let s : State := s.beat.ownRequests.foldl (fun s r =>
      let beat := (((s.fn r.1).active.bind (fun p => p.waiting.find? (fun w => decide (w.idx = r.2.1)))).map (·.beat)).getD 0
      s.sendUpTree (s.beatMsg 3 now (r.2.2.1 - 1 + r.2.2.2 * 2 ^ 12) (beat % 2 ^ 32) s.chip)) s
    allFns.foldl (fun s f => if s.mapped f then s.sendJobReg (s.fn f).job.map false else s) s

/-- Edge and number from a SYNC, in fabric mode. -/
def State.syncEdge (s : State) (port : PortId) (msg : BitVec 256) (arrival : Nat) : State :=
  if s.beatSource ≠ 2 then s
  else
    let late := bmArg1 msg + (s.port port.val).delay
    let number := BitVec.ofNat 64 (bmNumber msg + late / s.beatUnits)
    s.modBeat (fun b => { b with edge := (arrival : Int) - late, number := if b.epochSet && b.inDomain then number else b.number })

/-- The message as it goes on: EDGE_OFFSET counts up to its departure, within 20 ns of its arrival (R269, R270). -/
def State.forwardSync (s : State) (port : PortId) (msg : BitVec 256) : State :=
  let (r, s) := s.draw
  s.sendDown (withFld msg 127 96 (bmArg1 msg + (s.port port.val).delay + r % 321))

def State.onSync (s : State) (port : PortId) (msg : BitVec 256) (arrival : Nat) : State :=
  let s := (s.forwardSync port msg).syncEdge port msg arrival
  let named := (s.namedChip (s.reg 0 (pageBeat + 0x48) % 2 ^ 16)).isSome
  let s := if named then s else s.followMaster (bmMaster msg)
  s.modBeat (fun b => { b with holdover := false, sinceSync := 0 })

def execSync (port : PortId) (msg : BitVec 256) (arrival : Nat) (s : State) : Host.Outcome State Fault Refusal :=
  if bmKind msg ≠ 1 ∨ (s.port port.val).st ≠ 3 then .next s
  else
    let s := s.took port.val 0 2
    if s.beat.parent = some port ∧ !s.beat.refused ∧ bmPeriod msg = s.beat.period then
      let before := s
      .next ((s.onSync port msg arrival).helloIfChanged before)
    else .next s

/-- Decisions of the last 4,096 beats that have gone out, which every SYNC repeats (R325). -/
def State.recentDecisions (s : State) : List (Nat × Decision) :=
  s.jobs.filterMap (fun j => match j.2.decision with
    | some d => if j.2.echoed && decide (s.beatNow ≤ j.2.sentBeat + 4096) then some (j.1, d) else none
    | none => none)

/-- The decision's message down the tree. -/
def State.repeatDecision (s : State) (x : Nat × Decision) : State :=
  let d := x.2
  let arg2 := if d.isCommit then 0 else d.cause.toNat + d.aborts.toNat * 2 ^ 8 + b2n d.final * 2 ^ 16
  s.sendDown (s.beatMsg (if d.isCommit then 6 else 7) d.step.toNat x.1 arg2 s.chip)

/-- SYNC_SEND: the master, every 16 beats; `departure` is the time from its edge to the first symbol. -/
def execSyncSend (departure : Nat) (s : State) : Host.Outcome State Fault Refusal :=
  if !s.isMaster || decide (s.beat.sinceSync < 16) then .next s
  else
    let s := s.sendDown (s.beatMsg 1 s.beat.number.toNat departure 0 s.chip)
    let s : State := s.recentDecisions.foldl (fun s x => s.repeatDecision x) s
    .next (s.modBeat (fun b => { b with sinceSync := 0 }))

/-! ## A master that is lost (R44, R329) -/

def execHoldover (s : State) : Host.Outcome State Fault Refusal :=
  if s.isMaster || decide (s.beat.sinceSync < 48) || (!s.hasPartner && decide (s.beatSource = 0)) then .next s else .next s.enterHoldover

/-- Jobs of this package with a READY or a vote outstanding and no decision held. -/
def State.undecided (s : State) : List (Nat × Nat) :=
  ((allFns.filter (fun f => s.mapped f && (s.fn f).step.sent && (s.fn f).step.decision.isNone)).map (fun f =>
    (jmJobId (s.fn f).job.map, s.openStep f))).eraseDups

/-- BACKUP_TAKEOVER: the backup declares itself master, broadcasts what it holds, and decides ABORT for the rest. -/
def execBackupTakeover (s : State) : Host.Outcome State Fault Refusal :=
  if !s.isBackup || s.isMaster || decide (s.beat.sinceSync < 64) then .next s
  else
    let old := s.beat.master
    let s := s.newMaster s.chip
    let s := s.modBeat (fun b => { b with holdover := false, failedBackups := b.failedBackups ++ [BitVec.ofNat 16 s.chip, old] })
    let s := (s.modBeat (fun b => { b with backup := BitVec.ofNat 16 (s.pickBackup s.chip) })).rebuildTree
    let jobs : SMap MasterJob := s.jobs.map (fun (j : Nat × MasterJob) => (j.1, { j.2 with adopted := true }))
    let s : State := { s with jobs := jobs }
    let held := s.beat.held
    let s : State := held.foldl (fun s h => s.broadcast h.1.toNat h.2) s
    let s : State := s.undecided.foldl (fun s x => let (c, s) := s.draw; s.decideStep x.1 x.2 false (c % 256)) s
    .next s.sendHellos

/-! ## CAD_IN (R37, R38) -/

/-- A pulse is missing or ignored; the fourth in a row is an event, and FALLBACK then changes the source. -/
def State.missPulse (s : State) : State :=
  let n := s.beat.missRow + 1
  let s := (s.modBeat (fun b => { b with missRow := n })).count (pageBeat + 0x78)
  if n ≠ 4 then s
  else
    let s := (s.raise pageBeat 3).logPkg 0x9301 0 4 0
    if (s.reg 0 (pageBeat + 0x40)).testBit 6 then s.modBeat (fun b => { b with fallback := true }) else s.enterHoldover

/-- A rising edge of CAD_IN; `offset` places it against the expected edge in units of 62.5 ps. Under EXTEST it is not seen (R486). -/
def execCadInPulse (offset : Int) (s : State) : Host.Outcome State Fault Refusal :=
  if s.beatSource ≠ 1 then .next s
  else if s.boot.tapIr = 3 then .next s.missPulse
  else
    let at0 := offset + toSigned 16 (s.reg 0 (pageBeat + 0x44) % 2 ^ 16)
    if at0.natAbs ≤ 160 then .next (s.modBeat (fun b => { b with edge := b.edge + at0, missRow := 0, holdover := false })) else .next s.missPulse

def execCadInMissing (s : State) : Host.Outcome State Fault Refusal := if s.beatSource = 1 then .next s.missPulse else .next s

/-! ## Link delay (R41) -/

/-- DELAY: half of the round trip less the partner's turnaround, in units of 62.5 ps. -/
def execDelay (port : PortId) (sent received turnaround : Nat) (s : State) : Host.Outcome State Fault Refusal :=
  let x := s.port port.val
  if x.st < 2 then .next s else .next ((s.setPort port.val { x with delay := (received - sent - turnaround) / 2 % 2 ^ 24 }).took port.val 0 2)

/-- DELAY_REMEASURE: a frame with the time stamp of its first symbol goes out (log entry 57). -/
def execDelayRemeasure (port : PortId) (now : Nat) (s : State) : Host.Outcome State Fault Refusal :=
  let x := s.port port.val
  if x.st < 2 then .next s
  else .next (s.sendOn port.val (mkFrame 3 true 0 (hePos x.hello) (heChip x.hello) s.chip (leBytes 32 (now % 2 ^ 64))))

end Sys2Proof.Machine
end

