-- ==== Sys2Proof/Machine/Hbm.lean ====
section
/-! DEFINITION. The HBM4 stacks (R227 to R241): row repair, page retirement and re-placement, retraining, margin sweeps and
temperature. -/

namespace Sys2Proof.Machine

/-! ## Rows (Table 9-2) -/

/-- Row of an offset: offset bits [35:16], then channel and pseudo-channel. -/
def rowOf (addr : Nat) : Nat := addr / 65536 % 2 ^ 20 * 64 + addr / 64 % 64

/-- Bank of a row: SID, bank group, bank, pseudo-channel. -/
def bankOf (row : Nat) : Nat := (row / 64 / 2 ^ 18 * 16 + row / 64 % 16) * 64 + row % 64

/-- Pool 1 rows of a bank in use. -/
def Stack.bankUsed (x : Stack) (bank : Nat) : Nat :=
  (x.repairs.filter (fun r => decide (bankOf r.1 = bank) && decide (r.2 = 1 ∨ r.2 = 3))).length

def Stack.pool1Used (x : Stack) : Nat := (x.repairs.filter (fun r => decide (r.2 = 1 ∨ r.2 = 3))).length

def Stack.pool2Used (x : Stack) : Nat := (x.repairs.filter (fun r => decide (2 ≤ r.2))).length

/-- Banks with no free pool 1 row (Table 9-6). -/
def Stack.fullBanks (x : Stack) : Nat :=
  ((x.repairs.map (fun r => bankOf r.1)).eraseDups.filter (fun b => decide (4 ≤ x.bankUsed b))).length

/-- The next repair state of a row, none for retirement (Table 9-4). -/
def Stack.nextRepair (x : Stack) (row : Nat) : Option Nat :=
  let pool2 := if x.pool2Used < 512 then some 2 else none
  match SMap.get 0 x.repairs row with
  | 0 => if x.bankUsed (bankOf row) < 4 then some 1 else pool2
  | 1 => if x.pool2Used < 512 then some 3 else none
  | _ => none

/-! ## Row repair (R237) -/

/-- A burst becomes poison: 64 zero bytes (R232). -/
def State.poisonBurst (s : State) (b : Nat) : State :=
  let s := { s with mem := memWrite s.mem (64 * b) (List.replicate 64 0) }
  if s.poison.contains b then s else { s with poison := s.poison ++ [b] }

/-- Functions an event about a page goes to: its owner, and those bound to its frame where it is shared (R239). -/
def State.pageAudience (s : State) (e : BitVec 64) : List FnId :=
  if pgTier e = 0 ∨ pgTier e = 3 then []
  else allFns.filter (fun f => decide (pgOwner e = f.val) || (pgShared e && s.bound f (pgFrame e)))

/-- A page is retired: recorded, counted, announced (R238, R239). -/
def State.announceRetired (s : State) (stack page code d1 : Nat) (fs : List FnId) : State :=
  let s := (s.storeRecord 0x20 stack (repairPayload (page % 2 ^ 20 * 64) 0 0)).raise (pageHbm stack) 1
  if fs.isEmpty then s.logPkg code stack (page * 65536) d1
  else fs.foldl (fun s f => s.logFn code f stack (page * 65536) d1) s

/-- The page of a row with no spare left: a claimed page becomes RELOCATING, a page that holds nothing is retired at once. -/
def State.retireRow (s : State) (stack page : Nat) : State :=
  let e := s.page page
  if pgTier e = 3 then s
  else if pgTier e = 0 ∨ s.scrubs.contains page then
    let s := { s with scrubs := s.scrubs.filter (· ≠ page) }
    (s.setPage page (dirReset ||| 3)).announceRetired stack page 0x4244 0 []
  else if pgMove e = 2 then s
  else s.setPage page (withFld e 28 26 3)

/-- ROW_REPAIR: a row that failed persistently moves one step down Table 9-4; the bursts that fail are poisoned. -/
def execRowRepair (addr : BitVec 44) (failed : List (Fin 16)) (s : State) : Host.Outcome State Fault Refusal :=
  let a := addr.toNat
  match region a with
  | .hbm st =>
    let x := s.stack st
    if !x.inService then .next s
    else
      let row := rowOf a
      let base := a / 65536 * 65536 + row % 64 * 64
      let s : State := failed.foldl (fun s b => s.poisonBurst ((base + b.val * 4096) / 64)) s
      match x.nextRepair row with
      | some r =>
        let s := s.setStack st { x with repairs := SMap.put 0 x.repairs row r }
        let pool := if r = 1 then 1 else 2
        let s := s.storeRecord 0x20 st (repairPayload row pool (if r = 1 then x.bankUsed (bankOf row) else x.pool2Used))
        .next (s.logPkg (0x4240 + pool) st a failed.length)
      | none => .next (s.retireRow st (pageOf a))
  | _ => .next s

/-! ## Page re-placement (R239) -/

/-- The lowest free page from a page on. -/
def freeFrom (s : State) : Nat → Nat → Option Nat
  | 0, _ => none
  | n + 1, p => if pgTier (s.page p) = 0 ∧ !s.scrubs.contains p then some p else freeFrom s n (p + 1)

/-- The lowest-numbered free page of a stack: past the listed entries, every page is free. -/
def State.freePage (s : State) (stack : Nat) : Option Nat :=
  freeFrom s (min 786432 (s.dir.length + s.scrubs.length + 1)) (stack * 2 ^ 20)

/-- Copy a page with its poison. -/
def State.copyPage (s : State) (old new : Nat) : State :=
  let bs := s.bytes (old * 65536) 65536
  let s := s.write (new * 65536) bs
  let ps := (s.poison.filter (fun b => decide (b / 1024 = old))).map (fun b => b - old * 1024 + new * 1024)
  { s with poison := s.poison ++ ps.filter (fun b => !s.poison.contains b) }

/-- The waiting operation of a command that has to access a page, with its function's view of it. -/
def State.awaits (s : State) (page : Nat) (o : Op) : Bool :=
  let d := o.desc
  decide (o.stage = .held) &&
    ((decide (hdClass d = 3) && ((mvSrcDev d).map (fun r => (s.readAddr o.fn r.1, r.2)) ++ (mvDstDev d).map (fun r => (s.writeAddr o.fn r.1, r.2))).any
        (fun r => (pagesOf r.1 r.2).contains page))
     || (decide (hdClass d = 2) && decide (tnSkipBad d = 0) && (match s.coreOf o with
        | some c => (s.groups c.val d).any (fun g => (needed (s.frame (tnFrame d)) d g).any (fun x => (pagesOf x.addr x.bytes).contains page))
        | none => false)))

/-- The layer map of a frame whose layer is being swapped names the new page (R253). -/
def State.remapLayers (s : State) (frame old new : Nat) : State :=
  let fr := s.frame frame
  if fr.replace.isNone then s
  else (List.range (frLayers fr.record * 24)).foldl (fun s i =>
    let a := frLayerMap fr.record + 8 * i
    let e := s.nat a 8
    if field e 43 0 = old * 65536 ∧ field e 63 44 = 1 then s.writeNat a 8 (withField e 43 0 (new * 65536)) else s) s

/-- PAGE_REPLACEMENT: a RELOCATING page whose REF has reached 0 goes to the lowest free page of its stack; those that waited
complete with PAGE_LOST. -/
def execPageReplacement (page : Nat) (s : State) : Host.Outcome State Fault Refusal :=
  let e := s.page page
  match stackOfPage page with
  | none => .next s
  | some st =>
    if pgMove e ≠ 3 ∨ pgRef e ≠ 0 ∨ pgTier e ≠ 1 then .next s
    else
      let fs := s.pageAudience e
      let waiting := s.ops.filter (s.awaits page)
      let s : State := waiting.foldl (fun s o => s.failHeld o 0x4C) s
      match s.freePage st with
      | some new =>
        let s := (s.copyPage page new).setPage new (withFld (withFld e 28 26 0) 63 36 0)
        let s := s.setPage page (dirReset ||| 3)
        let s := if pgShared e then s.remapLayers (pgFrame e) page new else s
        .next (s.announceRetired st page 0x4243 new fs)
      | none =>
        let s := (s.setPage page (dirReset ||| 3)).count (pageHbm st + 0x68)
        .next (s.announceRetired st page 0x4244 0 fs)

/-! ## Training and margining (R234, R235, R240) -/

/-- Entries listed for a stack. -/
def State.stackPages (s : State) (st : Nat) : List (Nat × BitVec 64) := s.dir.filter (fun x => decide (x.1 / 2 ^ 20 = st))

/-- The outcome of a training: the rate it passed at, none for out of service. -/
def State.trained (s : State) (st : Nat) (rate : BitVec 2) (spared : Nat) : State :=
  let x := s.stack st
  let s := s.setStack st { x with rate := rate, inService := decide (rate ≠ 0), spared := spared }
  if rate = 0 then s.logPkg 0x4246 st 0 0 else if rate ≠ 3 then s.logPkg 0x4245 st rate.toNat 0 else s

/-- RETRAIN_STACK: refused while a page of the stack has REF above 0. -/
def execRetrainStack (q : QueueId) (d : Desc) (rate : BitVec 2) (spared : Nat) (s : State) : Host.Outcome State Fault Refusal :=
  .next (s.issue (.retrainStack q d rate spared) (fun o s =>
    let st := fld d 132 128
    if 24 ≤ st then s.faultOp o 0xC0
    else if (s.stackPages st).any (fun x => decide (pgRef x.2 ≠ 0)) then s.faultOp o 0x51
    else (s.trained st rate spared).done o))

/-- A sweep's result stands in MARGIN_RESULT (Table 9-6). -/
def State.sweepResult (s : State) (st : Nat) (width height : Byte) : State :=
  (s.setReg 0 (pageHbm st + 0x74) (width.toNat + height.toNat * 2 ^ 8 + 2 ^ 16)).raise (pageHbm st) 3

/-- Does a stack hold claimed pages? -/
def State.stackClaimed (s : State) (st : Nat) : Bool := (s.stackPages st).any (fun x => decide (pgTier x.2 = 1 ∨ pgTier x.2 = 2))

/-- Does a function in confidential mode hold granules of a stack (Table 15-6)? -/
def State.stackConfidential (s : State) (st : Nat) : Bool :=
  allFns.any (fun f => (s.fn f).sec.confidential && decide ((s.fn f).granules st ≠ 0))

/-- MARGIN_SWEEP: on a stack without claimed pages, of no confidential function; it retrains at the end. -/
def execMarginSweep (q : QueueId) (d : Desc) (width height : Byte) (rate : BitVec 2) (spared : Nat) (s : State) :
    Host.Outcome State Fault Refusal :=
  .next (s.issue (.marginSweep q d width height rate spared) (fun o s =>
    let st := fld d 132 128
    if 24 ≤ st then s.faultOp o 0xC0
    else if s.stackClaimed st ∨ s.stackConfidential st then s.faultOp o 0x51
    else ((s.sweepResult st width height).trained st rate spared).done o))

/-! ## Temperature (R236) -/

/-- Lower bound of a state of Table 9-3. -/
def refreshBound (st : Nat) : Nat := if st = 3 then 105 else if st = 2 then 95 else 85

/-- State by temperature alone. -/
def refreshAt (t : Nat) : Nat := if 105 < t then 3 else if 95 ≤ t then 2 else if 85 ≤ t then 1 else 0

/-- A fall waits for 2 °C below the lower bound of each state it leaves. -/
def refreshFall : Nat → Nat → Nat
  | 0, _ => 0
  | st + 1, t => if t + 2 ≤ refreshBound (st + 1) then refreshFall st t else st + 1

/-- STACK_TEMPERATURE_READ. -/
def execStackTemperatureRead (stack : StackId) (temp : Byte) (s : State) : Host.Outcome State Fault Refusal :=
  let x := s.stack stack.val
  let t := temp.toNat
  let next := if x.refresh ≤ refreshAt t then refreshAt t else refreshFall x.refresh t
  let s := s.setStack stack.val { x with temp := temp, refresh := next }
  let s := if next = 3 then s.wait (pageHbm stack.val + 0x6C) else s
  let s := if next = 3 ∧ x.refresh ≠ 3 then (s.raise (pageHbm stack.val) 2).logPkg 0xA241 stack.val t 0 else s
  if 112 ≤ t then .next ({ s with boot := { s.boot with thermN := true } }.deviceFault 0x7247 stack.val t 0) else .next s

end Sys2Proof.Machine
end

