-- ==== Sys2Proof/Machine/Contexts.lean ====
section
/-! DEFINITION. The context table (R245 to R251), mortise claims (R170 to R173), promotion (R248), probe checks (R256) and the
scrub of a released context. -/

namespace Sys2Proof.Machine

/-- Context a control operation names. -/
def ctCtx (d : Desc) : Nat := fld d 143 128

/-- Is a context id in a function's range (R245)? -/
def Fn.hasCtx (x : Fn) (c : Nat) : Bool :=
  decide (x.ctxFirst ≤ c) && decide (c < x.ctxFirst + x.ctxCount) && decide (x.next.ctxFirst ≤ c) && decide (c < x.next.ctxFirst + x.next.ctxCount)

/-- Issue of a context operation: the id is in range and the state is one the operation allows (Table 10-3). -/
def State.ctxIssue (s : State) (i : Instr) (states : List Nat) (k : Op → State → State) : State :=
  s.issue i (fun o s =>
    let c := ctCtx o.desc
    if !(s.fn o.fn).hasCtx c then s.faultOp o 0x58
    else if !states.contains (cxState (s.ctx c)) then s.faultOp o 0x59
    else k o s)

/-- Set a context's STATE. -/
def State.ctxState (s : State) (c st : Nat) : State := s.setCtx c (withFld (s.ctx c) 34 32 st)

/-! ## configure-context (R249) -/

/-- Reserved bits or values out of range in an image (Table 10-2, R431). -/
def ctxImageBad (r : BitVec 1024) : Bool :=
  decide (fld r 23 22 ≠ 0) || decide (fld r 47 42 ≠ 0) || decide (fld r 127 116 ≠ 0) || decide (fld r 255 240 ≠ 0)
    || decide (fld r 383 348 ≠ 0) || decide (fld r 447 435 ≠ 0) || decide (fld r 959 720 ≠ 0) || decide (64 < cxProbeRows r)
    || (List.range 8).any (fun i => decide (fld r (479 + 32 * i) (477 + 32 * i) ≠ 0))

/-- The largest layer's slice of a context. -/
def largestSlice (fr : FrameState) (r : BitVec 1024) : Nat :=
  (List.range (frLayers fr.record)).foldl (fun m l => max m (cxSliceBytes fr r l)) 0

/-- Does a context's shape fail R249? -/
def ctxShapeBad (fr : FrameState) (r : BitVec 1024) : Bool :=
  (List.range 6).any (fun t => decide (256 < cxRank r t))
    || !(decide (cxWFmt r = 1) || decide (cxWFmt r = 3) || decide (cxWFmt r = 4))
    || (cxClaims r).any (fun c => decide (c.width = 0) || decide (256 < c.width))
    || decide (cxSliceStride r * 128 < largestSlice fr r)
    || (decide (cxOptAddr r ≠ 0) && decide (cxOptStride r = 0))

/-- Do the slice, optimizer and probe ranges lie in the function's own pages (R249)? -/
def State.ctxPlaced (s : State) (f : FnId) (fr : FrameState) (r : BitVec 1024) : Bool :=
  let n := frLayers fr.record
  let span := n * cxSliceStride r * 128
  s.ownsRange f.val (cxSlice0 r) span
    && (decide (cxSlice1 r = 0) || s.ownsRange f.val (cxSlice1 r) span)
    && (decide (cxOptAddr r = 0) || s.ownsRange f.val (cxOptAddr r) (n * cxOptStride r * 128))
    && s.ownsRange f.val (cxProbeAddr r) (cxProbeRows r * 4)

/-- Layers of a claim. -/
def Claim.layers (c : Claim) : List Nat := (List.range (c.last + 1 - c.first)).map (· + c.first)

/-- Cause of one claim against the mortise table and the claims before it, 0 where it binds (Table 6-8, R249). -/
def State.claimRefusal (s : State) (f : FnId) (frame ctx : Nat) (before : List Claim) (c : Claim) : Nat :=
  let fr := s.frame frame
  let range := SMap.get (0, 0) (s.fn f).mortises frame
  let taken := c.layers.any (fun l => let h := SMap.get 0 fr.mortises (l * 64 + c.mortise); decide (h ≠ 0) && decide (h ≠ ctx + 1))
  let twice := before.any (fun b => decide (b.mortise = c.mortise) && c.layers.any (fun l => decide (b.first ≤ l) && decide (l ≤ b.last)))
  let many := c.layers.any (fun l => decide (4 ≤ (before.filter (fun b => decide (b.first ≤ l) && decide (l ≤ b.last))).length))
  lowestCause [
    (taken || twice, 0x30),
    (!(decide (range.1 ≤ c.mortise) && decide (c.mortise < range.1 + range.2)), 0x31),
    (many, 0x32),
    (decide (frLayers fr.record ≤ c.last), 0x33)]

/-- Cause of the first refused claim of a set, 0 where the whole set binds (R172). -/
def State.claimsRefusal (s : State) (f : FnId) (frame ctx : Nat) : List Claim → List Claim → Nat
  | _, [] => 0
  | before, c :: cs =>
    let r := s.claimRefusal f frame ctx before c
    if r ≠ 0 then r else s.claimsRefusal f frame ctx (before ++ [c]) cs

/-- A frame without the mortises a context holds. -/
def FrameState.freed (x : FrameState) (ctx : Nat) : FrameState :=
  { x with mortises := x.mortises.filter (fun m => decide (m.2 ≠ ctx + 1)) }

/-- Free every mortise a context holds (R173). -/
def State.freeMortises (s : State) (ctx : Nat) : State := { s with frames := s.frames.map (fun x => (x.1, x.2.freed ctx)) }

/-- Bind a claim set. -/
def State.bindMortises (s : State) (frame ctx : Nat) (cs : List Claim) : State :=
  let fr := s.frame frame
  let m := cs.foldl (fun m c => c.layers.foldl (fun m l => SMap.put 0 m (l * 64 + c.mortise) (ctx + 1)) m) fr.mortises
  s.setFrame frame { fr with mortises := m }

/-- Causes of a configure-context that its image decides (R249, R172, R496). -/
def State.configureCauses (s : State) (f : FnId) (ctx : Nat) (r : BitVec 1024) : List (Bool × Nat) :=
  let frame := cxFrame r
  let fr := s.frame frame
  let claims := if fr.defined then s.claimsRefusal f frame ctx [] (cxClaims r) else 0
  [(decide (claims ≠ 0), claims),
   (!fr.defined || !s.bound f frame, 0x5A),
   (fr.defined && ctxShapeBad fr r, 0x5B),
   (fr.defined && !s.ctxPlaced f fr r, 0x5C),
   (ctxImageBad r, 0xC0)]

/-- The descriptor a configure-context leaves: the RW fields of the image, OWNER, KGEN, EPOCH 0 and FRAME_GEN (R249). -/
def State.configured (s : State) (f : FnId) (old r : BitVec 1024) : BitVec 1024 :=
  let copy := fun (hi lo : Nat) (x : BitVec 1024) => withFld x hi lo (fld r hi lo)
  let rw := [(31, 24), (37, 37), (41, 38), (63, 48), (99, 64), (171, 128), (195, 172), (239, 196), (299, 256), (323, 300),
    (335, 324), (347, 336), (427, 384), (434, 428), (703, 448), (1023, 960)]
  let x := rw.foldl (fun x p => copy p.1 p.2 x) old
  let x := withFld (withFld (withFld x 21 16 f.val) 34 32 1) 35 35 ((s.fn f).sec.keyGen.toNat % 2)
  withFld (withFld x 36 36 0) 115 100 (frGen (s.frame (cxFrame r)).record)

/-- A mortise refusal counts its claim set (Table 20-7). -/
def State.countRefusal (s : State) (cause : Nat) : State := if 0x30 ≤ cause ∧ cause ≤ 0x33 then s.count (pageCtxt + 0x68) else s

def execConfigureContext (q : QueueId) (d : Desc) (s : State) : Host.Outcome State Fault Refusal :=
  .next (s.issue (.configureContext q d) (fun o s =>
    let c := ctCtx d
    let rc := s.recordCause o (ctAddr d) 128
    let r := BitVec.ofNat 1024 (s.record o 128)
    let own := [(!(s.fn o.fn).hasCtx c, 0x58), (decide (cxState (s.ctx c) ≠ 0 ∧ cxState (s.ctx c) ≠ 4), 0x59), (decide (rc ≠ 0), rc)]
    let cause := lowestCause (own ++ (if rc ≠ 0 then [] else s.configureCauses o.fn c r))
    if cause ≠ 0 then (s.countRefusal cause).faultOp o cause
    else
      let x := s.configured o.fn (s.ctx c) r
      (((s.freeMortises c).bindMortises (cxFrame r) c (cxClaims r)).setCtx c x).done o))

/-! ## State changes (R248, R250, R251) -/

def execActivate (q : QueueId) (d : Desc) (s : State) : Host.Outcome State Fault Refusal :=
  .next (s.ctxIssue (.activate q d) [1] (fun o s => (s.ctxState (ctCtx d) 2).done o))

def execBeginTraining (q : QueueId) (d : Desc) (s : State) : Host.Outcome State Fault Refusal :=
  .next (s.ctxIssue (.beginTraining q d) [1, 2] (fun o s =>
    let x := s.ctx (ctCtx d)
    if cxSlice1 x = 0 ∨ cxOptAddr x = 0 then s.faultOp o 0x5B else (s.ctxState (ctCtx d) 3).done o))

def execEndTraining (q : QueueId) (d : Desc) (s : State) : Host.Outcome State Fault Refusal :=
  .next (s.ctxIssue (.endTraining q d) [3] (fun o s =>
    if s.mapped o.fn then
      (s.modStep o.fn (fun st => { st with ending := if st.ending.contains (ctCtx d) then st.ending else st.ending ++ [ctCtx d] })).done o
    else (s.ctxState (ctCtx d) 2).done o))

/-- A descriptor with a new SLICE0 and SLICE_STRIDE. -/
def relocated (x : BitVec 1024) (d : Desc) : BitVec 1024 := withFld (withFld x 171 128 (ctAddr d)) 195 172 (fld d 183 160)

def execRelocate (q : QueueId) (d : Desc) (s : State) : Host.Outcome State Fault Refusal :=
  .next (s.ctxIssue (.relocate q d) [1, 2, 4] (fun o s =>
    let c := ctCtx d
    let x := relocated (s.ctx c) d
    let fr := s.frame (cxFrame x)
    let cause := lowestCause [
      (!fr.defined || !s.bound o.fn (cxFrame x), 0x5A),
      (fr.defined && ctxShapeBad fr x, 0x5B),
      (fr.defined && !s.ctxPlaced o.fn fr x, 0x5C)]
    if cause ≠ 0 then s.faultOp o cause else (s.setCtx c x).done o))

/-- The slices of a context in a range of layers. -/
def State.layerSlices (s : State) (c first last : Nat) : List Slice :=
  let x := s.ctx c
  let fr := s.frame (cxFrame x)
  ((List.range (last + 1 - first)).map (· + first)).flatMap (fun l => (cxParts fr x l).map (fun p =>
    { ctx := c, layer := l, key := p.key, addr := cxSliceAddr x l + p.off, bytes := partBytes (cxWFmt x) (cxPlank x) p.k p.r p.n }))

def execPromote (q : QueueId) (d : Desc) (s : State) : Host.Outcome State Fault Refusal :=
  .next (s.ctxIssue (.promote q d) [2, 3] (fun o s =>
    let first := fld d 151 144
    let last := fld d 159 152
    let fr := s.frame (cxFrame (s.ctx (ctCtx d)))
    let slices := s.layerSlices (ctCtx d) first last
    let cause := firstCause (slices.map (fun x => let c := s.gatherCause o.fn x; (decide (c ≠ 0), c)))
    if last < first ∨ frLayers fr.record ≤ last then s.faultOp o 0xC0
    else if cause ≠ 0 then s.faultOp o cause
    else if slices.any (s.gatherWaits o.fn) then (s.wait (pageMemf o.fn.val + 0x5C)).park (.promote q d) o
    else
      let s : State := (slices.filter (fun x => !s.sliceCached o.fn x)).foldl (fun s x => (s.installSlice o.fn none x).1) s
      s.done o))

/-- Does a probe comparison pass: |v − w| ≤ TOL_REL × |w| + TOL_ABS, exactly (R256)? -/
def probePass (record : BitVec 512) (v w : Nat) : Bool :=
  let a := bf16.decode v
  let b := bf16.decode w
  let tol := ((bf16.decode (frTolRel record)).mul b.abs).add (bf16.decode (frTolAbs record))
  a.isFinite && b.isFinite && !tol.lt (a.sub b).abs

/-- First row whose fresh record does not agree with the stored one. -/
def State.probeFailRow (s : State) (f : FnId) (key : Nat) (x : BitVec 1024) (record : BitVec 512) : Option Nat :=
  (List.range (cxProbeRows x)).find? (fun i =>
    let v := s.nat (key + 4 * i) 4
    let w := s.nat (s.readAddr f (cxProbeAddr x) + 4 * i) 4
    !(probePass record (v % 65536) (w % 65536) && probePass record (v / 65536) (w / 65536)))

def execProbeCheck (q : QueueId) (d : Desc) (s : State) : Host.Outcome State Fault Refusal :=
  .next (s.ctxIssue (.probeCheck q d) [1, 2] (fun o s =>
    let c := ctCtx d
    let x := s.ctx c
    let fr := s.frame (cxFrame x)
    let off := fld d 167 144
    if cxFrameGen x = frGen fr.record then s.faultOp o 0x60
    else if !spOk off (4 * cxProbeRows x) then s.faultOp o 0x40
    else match s.coreOf o with
      | none => s.complete o 4 0 0 0
      | some k => match s.probeFailRow o.fn (spKey k.val off) x fr.record with
        | none => (s.setCtx c (withFld x 115 100 (frGen fr.record))).done o
        | some row => (((s.ctxState c 4).count (pageCtxt + 0x6C)).raise pageCtxt 1).complete o 1 0x5F 0 (packDetail [(32, row)])))

def execReleaseContext (q : QueueId) (d : Desc) (s : State) : Host.Outcome State Fault Refusal :=
  .next (s.ctxIssue (.releaseContext q d) [1, 2, 3, 4] (fun o s => (s.ctxState (ctCtx d) 5).done o))

/-- A function without the cached slices of a context. -/
def Fn.dropSlices (x : Fn) (ctx : Nat) : Fn := { x with slices := x.slices.filter (fun z => decide (z.ctx ≠ ctx)) }

/-- CONTEXT_SCRUB: once REFS is 0, mortises and cached slices go, and the descriptor and its watch entries are zero-filled; a
read-back that fails is a device fault (R251). -/
def execContextScrub (ctx : BitVec 16) (clean : Bool) (s : State) : Host.Outcome State Fault Refusal :=
  let c := ctx.toNat
  let x := s.ctx c
  if cxState x ≠ 5 ∨ cxRefs x ≠ 0 then .next s
  else
    let f := fnId (cxOwner x)
    let s := s.freeMortises c
    let s : State := { s with fns := s.fns.map (fun y => y.dropSlices c) }
    let s := s.mapWatch f ((List.range (cxWatchCount x)).map (· + cxWatchFirst x)) (fun _ => 0)
    if clean then .next (s.setCtx c ctxReset)
    else .next ((s.setCtx c (withFld (0 : BitVec 1024) 34 32 5)).deviceFault 0x7201 (c % 4) c 0)

/-! ## read-context (R246) -/

/-- A descriptor with its own id. -/
def State.ctxImage (s : State) (c : Nat) : BitVec 1024 := withFld (s.ctx c) 15 0 c

/-- What a read of a descriptor shows: of a confidential function's, the management role sees the id, owner, frame and state. -/
def State.ctxShown (s : State) (mgmt : Bool) (c : Nat) : BitVec 1024 :=
  let x := s.ctxImage c
  if mgmt && (s.fn (fnId (cxOwner x))).sec.confidential then BitVec.ofNat 1024 (x.toNat % 2 ^ 35) else x

def execReadContext (q : QueueId) (d : Desc) (s : State) : Host.Outcome State Fault Refusal :=
  .next (s.issue (.readContext q d) (fun o s =>
    let c := ctCtx d
    if !s.isMgmt o ∧ !(s.fn o.fn).hasCtx c then s.faultOp o 0x58
    else s.deliver (.readContext q d) o false (leBytes 128 (s.ctxShown (s.isMgmt o) c).toNat) (fun s => s.done o)))

end Sys2Proof.Machine
end

