-- ==== Sys2Proof/Machine/Images.lean ====
section
/-! DEFINITION. Freeze, thaw and restore (R340 to R342, R362 to R364): the image's header, section table and sections, their
sealing, and the checks of a restore. The layout of CONTROL and BANKS inside their sections is the model's own (log entry 49). -/

namespace Sys2Proof.Machine

/-! ## Packing -/

/-- Bytes cut or filled with zeros to a length. -/
def padTo (n : Nat) (bs : List Byte) : List Byte := (bs ++ List.replicate (n - bs.length) 0).take n

/-- A number of n bytes at an offset of a byte string. -/
def numAt (bs : List Byte) (off n : Nat) : Nat := ofBytes ((bs.drop off).take n)

/-- Place values at bit positions: (low bit, width, value). -/
def placeBits (xs : List (Nat × Nat × Nat)) : Nat := xs.foldl (fun v x => v + (x.2.2 % 2 ^ x.2.1) * 2 ^ x.1) 0

/-- A section before it is sealed (Table 14-4). -/
structure Section where
  kind : Nat
  core : Nat
  source : Nat
  body : List Byte
  deriving DecidableEq, Repr

/-! ## CONTROL (log entry 49) -/

/-- Scalars of a function: frames bound, serving frame, modes, coalescing, event vector, watch table, job and step state, ramp, and
the lengths of the lists that follow. -/
def controlHead (x : Fn) (queues overdue : Nat) : Nat :=
  placeBits ([(0, 8, x.frames.length), (72, 9, match x.serving with | some i => i + 1 | none => 0), (81, 1, b2n x.swapCut), (82, 1, b2n x.tileStrict),
    (83, 1, b2n x.sec.confidential), (96, 32, x.drainLimit), (128, 16, x.coalesceCount), (144, 16, x.coalesceTime), (160, 44, x.eventAddr),
    (208, 32, x.eventData.toNat), (240, 16, match x.watch with | some w => w.2.2 | none => 0), (256, 16, match x.watch with | some w => w.1 | none => 0),
    (272, 32, match x.watch with | some w => w.2.1 | none => 0), (304, 1, b2n x.watch.isSome), (308, 4, x.job.st), (312, 1, b2n x.job.remapped),
    (313, 1, b2n x.job.pendingMap.isSome), (320, 32, x.step.aborts), (352, 8, x.step.lastCause), (384, 64, x.job.ckptStep.toNat),
    (448, 16, x.step.pairs.length), (464, 16, queues), (480, 32, overdue), (512, 16, x.ramp), (528, 16, x.rampFrom), (544, 16, x.rampTo),
    (560, 32, x.rampDone), (592, 32, x.rampLen), (624, 16, x.shims.length), (640, 16, x.window.length)]
  ++ x.frames.zipIdx.map (fun e => (8 + 8 * e.2, 8, e.1)))

/-- A plan's place and progress. -/
def planState (p : Option Plan) : Nat :=
  match p with
  | none => 0
  | some p => placeBits [(0, 44, p.copy), (48, 1, b2n p.begun), (49, 1, 1), (64, 64, p.clock), (128, 32, p.skips), (160, 32, p.overruns)]

def bankState (b : Bank) : Nat :=
  match b with
  | .empty => 0
  | .block pairing fc plank rows scales _ _ =>
    placeBits [(0, 1, 1), (1, 2, pairing), (8, 8, fc), (16, 16, plank), (32, 16, rows.length), (48, 16, scales.length)]

/-- Which banks of a core are loaded. -/
def State.coreBanks (s : State) (c : CoreId) : Nat :=
  let te := s.te c.val
  let m0 := s.me (meInst c.val 0)
  let m1 := s.me (meInst c.val 1)
  let t := fun (b : Option Nat) => match b with | some n => 1 + 256 * n | none => 0
  placeBits [(0, 64, bankState m0.bank0), (64, 64, bankState m0.bank1), (128, 64, bankState m1.bank0), (192, 64, bankState m1.bank1),
    (256, 64, t te.bank0), (320, 64, t te.bank1)]

def apertureState (a : Aperture) : Nat :=
  placeBits [(0, 44, a.base), (44, 32, a.units), (76, 1, b2n a.read), (77, 1, b2n a.write), (78, 1, b2n a.tiered), (79, 1, b2n a.enable)]

def windowState (w : WSlot) : Nat :=
  placeBits [(0, 64, w.mask), (64, 2, w.st), (72, 8, w.layer), (80, 1, b2n w.lastSeen), (81, 1, b2n w.late)]

def stageState (q : Option StageQ) : Nat :=
  match q with
  | none => 0
  | some q => placeBits [(0, 256, q.record.toNat), (256, 1, 1), (288, 32, q.credits), (320, 32, q.nextMb)]

def queueState (q : Queue) (withdrawn : Nat) : Nat :=
  placeBits [(0, 512, q.record.toNat), (512, 32, q.head.toNat), (544, 32, q.cplIndex.toNat), (576, 32, q.cplHead.toNat), (608, 15, withdrawn),
    (624, 1, b2n q.stopped)]

/-- Queues of a function that are set. -/
def State.fnQueues (s : State) (f : FnId) : List Nat := (s.queues.filter (fun q => q.2.set && !q.2.mgmt && decide (q.2.owner = f))).map (·.1)

/-- Is an operation dispatched and not issued by an engine: still at dispatch, or a beat-wait (R340)? -/
def Op.withdrawn (o : Op) : Bool := !o.flying || decide (hdClass o.desc = 5)

/-- Withdrawn operations of a queue, in queue order. -/
def State.withdrawnOf (s : State) (q : Nat) : List Op := s.ops.filter (fun o => o.withdrawn && decide (o.queue.val = q))

/-- Events of a plan that have fallen due and not started. -/
def Plan.overdue (p : Plan) : List Due := p.waiting.filter (fun w => decide (w.beat ≤ p.clock))

/-- Offsets of the parts of CONTROL. -/
def offMortises : Nat := 0x300
def offApertures : Nat := 0x500
def offWindow : Nat := 0x600
def offModes : Nat := 0x700
def offMap : Nat := 0x740
def offPlans : Nat := 0x7C0
def offBanks : Nat := 0x880
def offClasses : Nat := 0xD80
def offStages : Nat := 0x1580
def offTags : Nat := 0x2580
def offPairs : Nat := 0xA580
def offLists : Nat := 0xAD80

/-- CONTROL: what R341 lists for it. -/
def State.controlBody (s : State) (f : FnId) : List Byte :=
  let x := s.fn f
  let qs := s.fnQueues f
  let beyond := match x.active with | some p => p.overdue | none => []
  let arr := fun (n size : Nat) (g : Nat → Nat) => (List.range n).flatMap (fun i => leBytes size (g i))
  padTo 512 (leBytes 512 x.record.toNat)
  ++ padTo 256 (leBytes 256 (controlHead x qs.length beyond.length))
  ++ arr 256 2 (fun i => let m := SMap.get (0, 0) x.mortises i; m.1 + m.2 * 64)
  ++ arr 16 16 (fun i => apertureState (SMap.get Aperture.reset x.apertures i))
  ++ arr 16 16 (fun i => match x.window[i]? with | some w => windowState w | none => 0)
  ++ arr 64 1 (fun p => (s.part p).mode)
  ++ leBytes 64 x.job.map.toNat ++ leBytes 64 (match x.job.pendingMap with | some m => m.toNat | none => 0)
  ++ leBytes 64 (planState x.active) ++ leBytes 128 (planState x.pendingPlan)
  ++ arr 20 64 (fun l => match s.phys? f l with | some c => s.coreBanks c | none => 0)
  ++ arr 64 32 (fun i => (SMap.get 0 x.classes i).toNat)
  ++ arr 64 64 (fun i => stageState (SMap.get none x.job.stages i))
  ++ arr 1024 32 (fun i => SMap.get 0 x.job.tags i)
  ++ arr 64 32 (fun i => match x.step.pairs[i]? with | some p => p.1 + p.2.1 * 2 ^ 64 + p.2.2 * 2 ^ 128 | none => 0)
  ++ x.shims.flatMap (fun e => leBytes 16 (e.1 + e.2 * 2 ^ 64))
  ++ beyond.flatMap (fun w => leBytes 16 (w.idx + w.beat * 2 ^ 32))
  ++ qs.flatMap (fun q => leBytes 80 (queueState (s.queue q) (s.withdrawnOf q).length))
  ++ qs.flatMap (fun q => (s.withdrawnOf q).flatMap (fun o => leBytes 64 o.desc.toNat))

/-! ## The other sections -/

/-- A matrix bank at 1 MiB: 512 rows of 2,048 bytes, a planked block's scale rows in the upper halves. -/
def bankBody (b : Bank) : List Byte :=
  match b with
  | .empty => List.replicate (2 ^ 20) 0
  | .block _ _ _ rows scales _ _ =>
    (List.range 512).flatMap (fun k => if scales.isEmpty then leBytes 2048 (rows.getD k 0) else leBytes 1024 (rows.getD k 0) ++ leBytes 1024 (scales.getD k 0))

/-- BANKS of a core; the bytes of a loaded tenon bank are open, since a load replaces them whole (log entry 49). -/
def State.banksBody (s : State) (c : CoreId) : List Byte :=
  let m0 := s.me (meInst c.val 0)
  let m1 := s.me (meInst c.val 1)
  let te := s.te c.val
  let t := fun (b : Option Nat) (k : Nat) => (List.range 65536).map (fun i => if b.isSome then BitVec.ofNat 8 (Config.freeValue (s.fresh + k + i)) else 0)
  bankBody m0.bank0 ++ bankBody m0.bank1 ++ bankBody m1.bank0 ++ bankBody m1.bank1 ++ t te.bank0 0 ++ t te.bank1 65536

/-- Runs of consecutive owned HBM pages within a stack: first page and pages. -/
def pageRuns : List Nat → List (Nat × Nat)
  | [] => []
  | p :: ps => match pageRuns ps with
    | (q, n) :: rest => if p + 1 = q ∧ q % 2 ^ 20 ≠ 0 then (p, n + 1) :: rest else (p, 1) :: (q, n) :: rest
    | [] => [(p, 1)]

/-- HBM pages that a function owns, ascending. -/
def State.hbmOwned (s : State) (f : FnId) : List Nat :=
  (s.dir.filter (fun x => decide (pgTier x.2 = 1) && decide (pgOwner x.2 = f.val) && decide (pgMove x.2 ≠ 2) && (stackOfPage x.1).isSome)).map (·.1)

/-- The sections of a function's image, in the order of their kinds. -/
def State.sections (s : State) (f : FnId) (hbm : Bool) : List Section :=
  let x := s.fn f
  let cores := (List.range x.cores).filterMap (fun l => (s.phys? f l).map (fun c => (l, c)))
  let parts := (List.range 64).filter (fun p => decide ((s.part p).owner = some f) && decide ((s.part p).mode = 0))
  let ids := (List.range x.ctxCount).map (· + x.ctxFirst)
  let sec := fun (kind core source : Nat) (body : List Byte) => ({ kind := kind, core := core, source := source, body := body } : Section)
  [sec 1 0 0 (s.controlBody f)]
  ++ cores.map (fun c => sec 2 c.1 0 (s.bytes (spKey c.2.val 0) spSize))
  ++ cores.map (fun c => sec 3 c.1 0 (s.banksBody c.2))
  ++ parts.map (fun p => sec 4 0 (llmAddr p 0) (s.bytes (llmAddr p 0) (2 ^ 25)))
  ++ (if ids.isEmpty then [] else [sec 5 0 0 (ids.flatMap (fun c => leBytes 128 (s.ctxImage c).toNat))])
  ++ (if hbm then (pageRuns (s.hbmOwned f)).map (fun r => sec 6 0 (r.1 * 65536) (s.bytes (r.1 * 65536) (r.2 * 65536))) else [])

/-! ## The image (Tables 14-3 and 14-4) -/

/-- Offsets of bodies of the given lengths from a start, each on a 128-byte boundary. -/
def bodyOffsets : Nat → List Nat → List Nat
  | _, [] => []
  | off, n :: ns => off :: bodyOffsets (off + up128 n) ns

/-- A section entry; its CRC is added last. -/
def sectionEntry (z : Section) (bytes off : Nat) : Nat := placeBits [(0, 8, z.kind), (8, 5, z.core), (16, 44, z.source), (64, 48, bytes), (112, 48, off)]

/-- Nonce of a section (R362). -/
def sectionNonce (idx chip beat : Nat) : Nat := placeBits [(0, 16, idx), (16, 16, chip), (32, 64, beat)]

/-- Bytes of a section as stored: sealed with a 16-byte tag where the function holds an image key (R362). -/
def storedBody (key : Option Nat) (nonce entry : Nat) (body : List Byte) : List Byte :=
  match key with
  | none => body
  | some k => padTo (body.length + 16) (Config.gcmSeal k nonce (leBytes 32 entry) body)

/-- First 256 bits of SHAKE256 over the section table and the plain sections. -/
def imageDigest (table : List Byte) (bodies : List (List Byte)) : Nat := Config.shake256 (pad128 table ++ bodies.flatMap pad128) 256 % 2 ^ 256

/-- Low byte of PAGE_VER: the stepping, 0xA1 for A1 (R341, R459). -/
def pageVersion : Nat := 0xA1

/-- Everything after the header, the digest and the image's length. -/
def imageRest (zs : List Section) (key : Option Nat) (chip beat : Nat) : List Byte × Nat × Nat :=
  let start := up128 (256 + 32 * zs.length)
  let lens := zs.map (fun z => z.body.length + if key.isSome then 16 else 0)
  let offs := bodyOffsets start lens
  let es := (zs.zip (lens.zip offs)).zipIdx.map (fun e => let n := sectionEntry e.1.1 e.1.2.1 e.1.2.2
    (n, storedBody key (sectionNonce e.2 chip beat) n e.1.1.body))
  let table := es.flatMap (fun e => leBytes 32 (e.1 + crc32c e.2 * 2 ^ 160))
  let rest := padTo (start - 256) table ++ es.flatMap (fun e => pad128 e.2)
  (rest, imageDigest table (zs.map (·.body)), 256 + rest.length)

/-- The header of Table 14-3. -/
def State.imageHeader (s : State) (f : FnId) (z : FreezeState) (sections len withdrawn digest : Nat) : Nat :=
  let x := s.fn f
  placeBits [(0, 16, 1), (16, 6, f.val), (32, 8, pageVersion), (40, 1, b2n z.hbmCopy), (41, 1, b2n x.quiet), (48, 16, sections), (64, 64, len),
    (128, 64, x.step.step.toNat), (192, 1, b2n x.step.epoch), (193, 15, z.openSlots), (208, 16, withdrawn), (256, 64, x.seed.toNat), (320, 64, z.beat),
    (384, 32, z.planBeat), (416, 16, s.chip), (512, 256, digest), (1984, 64, len / 128 % 2 ^ 32 + sections * 2 ^ 32 + 0xF7E2 * 2 ^ 48)]

/-- Write the image of a function. -/
def State.writeImage (s : State) (f : FnId) (z : FreezeState) : State :=
  let zs := s.sections f z.hbmCopy
  let (rest, digest, len) := imageRest zs z.key s.chip z.beat
  let withdrawn := sumNat ((s.fnQueues f).map (fun q => (s.withdrawnOf q).length))
  { s with fresh := s.fresh + 2 * 65536 * (s.fn f).cores }.write z.base (leBytes 256 (s.imageHeader f z zs.length len withdrawn digest) ++ rest)

/-! ## freeze (R340, R363) -/

/-- Open slots of a core. -/
def State.openSlots (s : State) (c : Nat) : Nat :=
  sumNat ([0, 1].map (fun e => ((s.me (meInst c e)).slots.filter (fun x => decide (x.2.st ≠ .free))).length))

/-- Cause of a freeze. -/
def State.freezeCause (s : State) (o : Op) (f : FnId) : Nat :=
  let x := s.fn f
  let a := ctAddr o.desc
  let (_, _, len) := imageRest (s.sections f (flag o.desc 134)) x.sec.imageKey s.chip 0
  let access := s.mgmtCause a len
  firstCause [
    (decide (x.st ≠ .running), 0x90),
    (decide (a % 64 ≠ 0), 0xC0),
    (decide (access ≠ 0), access),
    (x.sec.confidential && x.sec.imageKey.isNone, 0xA4)]

/-- A save that waits for its boundary goes back to dispatch (R340). -/
def State.withdrawSave (s : State) (f : FnId) : State :=
  match (s.fn f).job.save with
  | none => s
  | some (r, d) =>
    let s := s.modJob f (fun j => { j with save := none })
    { s.modOp r (fun o => { o with stage := .held }) with parked := s.parked ++ [.saveCheckpoint r.1 d] }

/-- Begin to freeze: FREEZING, an abort vote for an open step that has issued something, an image without COMMIT. -/
def State.startFreeze (s : State) (o : Op) (f : FnId) : State :=
  let x := s.fn f
  let z : FreezeState := { op := o.ref, base := ctAddr o.desc, hbmCopy := flag o.desc 134, beat := s.beatNow, planBeat := (match x.active with | some p => p.clock | none => 0), openSlots := 0, key := x.sec.imageKey }
  let s := (s.modFn f (fun x => { x with st := .freezing, freeze := some z })).raiseFn f 2
  let s := if s.mapped f && (s.fn f).step.issued then s.vote f 0x06 else s
  (s.withdrawSave f).write (z.base + 248) (List.replicate 8 0)

/-- Do issued operations still run? -/
def State.freezeWaits (s : State) (f : FnId) : Bool := (s.opsOf f).any (fun o => !o.withdrawn) || (s.fn f).mapOp.isSome

/-- Slots still open are discarded and counted, the image is written with COMMIT, and the function is FROZEN. -/
def State.finishFreeze (s : State) (o : Op) (f : FnId) (z : FreezeState) : State :=
  let cores := s.coresOf f
  let z := { z with openSlots := sumNat (cores.map (fun c => s.openSlots c.val)) }
  let s : State := cores.foldl (fun s c => s.discardCore c.val) s
  let s := { s with heldOps := s.heldOps.filter (fun h => decide (h.fn ≠ f)) }
  let s := s.modFn f (fun x => { x with st := .frozen, freeze := some z })
  (s.writeImage f z).done o

def execFreeze (q : QueueId) (d : Desc) (s : State) : Host.Outcome State Fault Refusal :=
  .next (s.issue (.freeze q d) (fun o s =>
    let f := ctFn d
    let mine := (s.fn f).freeze.filter (fun z => decide (z.op = o.ref) && decide ((s.fn f).st = .freezing))
    let c := s.freezeCause o f
    if mine.isNone && decide (c ≠ 0) then s.faultOp o c
    else
      let s := if mine.isSome then s else s.startFreeze o f
      match (s.fn f).freeze with
      | none => s.done o
      | some z => if s.freezeWaits f then s.park (.freeze q d) o else s.finishFreeze o f z))

/-! ## thaw (R340) -/

def rsBeat (d : Desc) : Nat := fld d 255 192

/-- A plan that goes on at a beat from where it stood. -/
def Plan.resumeAt (p : Plan) (beat : Nat) : Plan := { p with header := withFld p.header 191 128 beat, running := false }

def execThaw (q : QueueId) (d : Desc) (s : State) : Host.Outcome State Fault Refusal :=
  .next (s.issue (.thaw q d) (fun o s =>
    let f := ctFn d
    if (s.fn f).st ≠ .frozen then s.faultOp o 0x90
    else if rsBeat d < s.beatNow + s.beat.lead then s.faultOp o 0xC0
    else (s.modFn f (fun x => { x with st := .running, freeze := none, active := x.active.map (fun p => p.resumeAt (rsBeat d)) })).done o))

/-! ## Reading an image -/

/-- An entry of a section table with its plain body, none where the tag fails. -/
structure Part2 where
  kind : Nat
  core : Nat
  source : Nat
  crcOk : Bool
  body : Option (List Byte)
  deriving DecidableEq, Repr

def ihSections (h : Nat) : Nat := field h 63 48
def ihLen (h : Nat) : Nat := field h 127 64
def ihFunction (h : Nat) : Nat := field h 21 16
def ihHbm (h : Nat) : Bool := h.testBit 40
def ihChip (h : Nat) : Nat := field h 431 416
def ihFreezeBeat (h : Nat) : Nat := field h 383 320
def ihPlanBeat (h : Nat) : Nat := field h 415 384

/-- Read the sections of an image. -/
def State.readParts (s : State) (a h : Nat) (key : Option Nat) : List Part2 :=
  (List.range (ihSections h)).map (fun i =>
    let e := s.nat (a + 256 + 32 * i) 32
    let bytes := field e 111 64
    let stored := s.bytes (a + field e 159 112) bytes
    let body := match key with
      | none => some stored
      | some k => Config.gcmOpen k (sectionNonce i (ihChip h) (ihFreezeBeat h)) (leBytes 32 (e - field e 191 160 * 2 ^ 160)) stored
    { kind := field e 7 0, core := field e 12 8, source := field e 59 16, crcOk := decide (crc32c stored = field e 191 160), body := body })

/-- Does COMMIT match the header? -/
def commitOk (h : Nat) : Bool :=
  decide (field h 2015 1984 = ihLen h / 128 % 2 ^ 32) && decide (field h 2031 2016 = ihSections h) && decide (field h 2047 2032 = 0xF7E2)

/-- Is an image not whole: COMMIT, a CRC, a tag or the DIGEST, or no CONTROL section? -/
def State.imageInvalid (s : State) (a h : Nat) (ps : List Part2) : Bool :=
  decide (field h 15 0 ≠ 1) || !commitOk h || ps.any (fun p => !p.crcOk || p.body.isNone)
  || decide (imageDigest (s.bytes (a + 256) (32 * ihSections h)) (ps.map (fun p => p.body.getD [])) ≠ field h 767 512)
  || !(ps.any (fun p => decide (p.kind = 1) && decide (offLists ≤ (p.body.getD []).length)))

/-- CONTROL of an image. -/
def controlOf (ps : List Part2) : List Byte :=
  match ps.find? (fun p => decide (p.kind = 1)) with
  | some p => p.body.getD []
  | none => []

/-- The head block of CONTROL. -/
def headOf (cb : List Byte) : Nat := numAt cb 0x200 256

/-- Bytes of a device range as the image holds them in a PARTITION section. -/
def partBytesAt (ps : List Part2) (a n : Nat) : List Byte :=
  match ps.find? (fun p => decide (p.kind = 4) && decide (p.source ≤ a) && decide (a < p.source + 2 ^ 25)) with
  | some p => ((p.body.getD []).drop (a - p.source)).take n
  | none => []

/-- A plan from its place in CONTROL and its copy; what has fallen due and not started waits on, and so does what comes after. -/
def planFrom (ps : List Part2) (st : Nat) (resume : Option Nat) (overdue : List Due) : Option Plan :=
  if !st.testBit 49 then none
  else
    let copy := field st 43 0
    let h := BitVec.ofNat 512 (ofBytes (partBytesAt ps copy 64))
    let n := phEventsM1 h + 1
    let es := (List.range n).map (fun i => BitVec.ofNat 256 (ofBytes (partBytesAt ps (copy + 64 + 32 * i) 32)))
    let p : Plan := { header := h, events := es, copy := copy, running := false, begun := st.testBit 48, clock := field st 127 64, waiting := [], skips := field st 159 128, overruns := field st 191 160 }
    match resume with
    | none => some p
    | some beat =>
      let first := p.clock / p.period * p.period
      some { p.resumeAt beat with waiting := overdue ++ (p.period0 first).filter (fun w => decide (p.clock < w.beat)) }

/-- The overdue events that CONTROL lists. -/
def overdueOf (cb : List Byte) : List Due :=
  let h := headOf cb
  (List.range (field h 511 480)).map (fun i =>
    let v := numAt cb (offLists + 16 * field h 639 624 + 16 * i) 16
    { idx := field v 31 0, beat := field v 127 32, asked := none, refused := false })

/-- A list of a map's entries that are not the default. -/
def mapOf {α : Type} [DecidableEq α] (d : α) (n : Nat) (g : Nat → α) : SMap α := (List.range n).foldl (fun m i => SMap.put d m i (g i)) []

def apertureFrom (v : Nat) : Aperture :=
  { base := field v 43 0, units := field v 75 44, read := v.testBit 76, write := v.testBit 77, tiered := v.testBit 78, enable := v.testBit 79 }

def windowFrom (v : Nat) : WSlot :=
  { mask := field v 63 0, st := field v 65 64, layer := field v 79 72, lastSeen := v.testBit 80, faulted := [], late := v.testBit 81 }

def stageFrom (v : Nat) : Option StageQ :=
  if v.testBit 256 then some { record := BitVec.ofNat 256 v, credits := field v 319 288, nextMb := field v 351 320, held := [] } else none

/-- The job state an image brings, before its map is taken. -/
def JobState.from (cb : List Byte) : JobState :=
  let h := headOf cb
  { JobState.reset with
    map := BitVec.ofNat 512 (numAt cb offMap 64)
    pendingMap := if h.testBit 313 then some (BitVec.ofNat 512 (numAt cb (offMap + 64) 64)) else none
    st := field h 311 308
    remapped := h.testBit 312
    tags := mapOf 0 1024 (fun i => numAt cb (offTags + 32 * i) 32)
    stages := mapOf none 64 (fun i => stageFrom (numAt cb (offStages + 64 * i) 64))
    ckptStep := BitVec.ofNat 64 (field h 447 384) }

/-- The step state an image brings: S, E and the pairs (R321). -/
def StepState.from (cb : List Byte) (ih : Nat) : StepState :=
  let h := headOf cb
  { StepState.reset with
    epoch := ih.testBit 192
    step := BitVec.ofNat 64 (field ih 191 128)
    aborts := field h 351 320
    lastCause := field h 359 352
    pairs := (List.range (field h 463 448)).map (fun i => let v := numAt cb (offPairs + 32 * i) 32; (field v 63 0, field v 127 64, field v 191 128)) }

/-- A function as an image gives it, over the state it has after its resources are taken. -/
def Fn.from (x : Fn) (cb : List Byte) (ih : Nat) (ps : List Part2) (resume : Nat) : Fn :=
  let h := headOf cb
  { x with
    st := .running
    seed := BitVec.ofNat 64 (field ih 319 256)
    tileStrict := h.testBit 82
    frames := (List.range (field h 7 0)).map (fun i => field h (15 + 8 * i) (8 + 8 * i))
    serving := if field h 80 72 = 0 then none else some (field h 80 72 - 1)
    swapCut := h.testBit 81
    drainLimit := field h 127 96
    mortises := mapOf (0, 0) 256 (fun i => let v := numAt cb (offMortises + 2 * i) 2; (v % 64, v / 64))
    apertures := mapOf Aperture.reset 16 (fun i => apertureFrom (numAt cb (offApertures + 16 * i) 16))
    coalesceCount := field h 143 128
    coalesceTime := field h 159 144
    eventAddr := field h 203 160
    eventData := BitVec.ofNat 32 (field h 239 208)
    active := planFrom ps (numAt cb offPlans 64) (some resume) (overdueOf cb)
    pendingPlan := planFrom ps (numAt cb (offPlans + 64) 64) none []
    classes := mapOf 0 64 (fun i => BitVec.ofNat 256 (numAt cb (offClasses + 32 * i) 32))
    watch := if h.testBit 304 then some (field h 271 256, field h 303 272, field h 255 240) else none
    window := (List.range (field h 655 640)).map (fun i => windowFrom (numAt cb (offWindow + 16 * i) 16))
    job := JobState.from cb
    step := StepState.from cb ih
    freeze := none
    ramp := field h 527 512
    rampFrom := field h 543 528
    rampTo := field h 559 544
    rampDone := field h 591 560
    rampLen := field h 623 592
    shims := (List.range (field h 639 624)).map (fun i => let v := numAt cb (offLists + 16 * i) 16; (field v 63 0, field v 127 64)) }

/-! ## restore (R342) -/

/-- Does an image belong to the frozen state of the function it is restored into? -/
def State.ownFrozen (s : State) (f : FnId) (a h : Nat) : Bool :=
  decide ((s.fn f).st = .frozen) && decide (ihChip h = s.chip) && decide (ihFunction h = f.val)
    && (match (s.fn f).freeze with
      | some z => decide (z.base = a) && decide (z.beat = ihFreezeBeat h)
      | none => false)

/-- HBM pages of the runs of an image. -/
def runPages (ps : List Part2) : List Nat :=
  (ps.filter (fun p => decide (p.kind = 6))).flatMap (fun p => (List.range ((p.body.getD []).length / 65536)).map (fun i => p.source / 65536 + i))

/-- Are the resources of an image not free (R342; log entry 49)? -/
def State.restorePool (s : State) (f : FnId) (x : Fn) (ps : List Part2) : Bool :=
  decide ((s.fn f).st ≠ .off) || resourcesBad x.record || s.poolBad f Fn.reset x || s.quietUnplaced f x x.cores
  || (runPages ps).any (fun p => decide (s.claimCause p ≠ 0) || (match stackOfPage p with
      | some st => !(x.granules st).testBit (p % 2 ^ 20 / 16384)
      | none => true))
  || x.mortises.any (fun m => s.mortiseMeets f m.1 m.2.1 m.2.2)
  || x.apertures.any (fun a => a.2.enable && (s.apertures.any (fun b => decide (b.1 ≠ f) && b.2.2.meets a.2.base (a.2.units * 65536))
      || aperturesBad [a.2] s.extension))

/-- The first failing check of an image's plans at its resume beat (R342). -/
def State.readmit (s : State) (f : FnId) (x : Fn) (beat : Nat) : Option Failing :=
  let s := s.setFn f x
  let records := fun (p : Plan) => p.events.zipIdx.flatMap (fun e => s.recordFails f p.period p.events e.2 e.1)
  let plans := x.active.isSome || x.pendingPlan.isSome
  firstFailing ((if plans && !s.beat.epochSet then [untied 0x14 0xFFFFFFFF] else if decide (beat < s.beatNow + s.beat.lead) then [untied 0x08 0xFFFFFFFF] else [])
    ++ (match x.active with | some p => records p ++ x.sweep none p.period p.events | none => [])
    ++ (match x.pendingPlan with | some p => records p ++ x.sweep x.active p.period p.events | none => []))

/-- Cause of a restore in the order of R342, but for admission. -/
def State.restoreFnCause (s : State) (f : FnId) (a h : Nat) (ps : List Part2) (x : Fn) : Nat :=
  let own := s.ownFrozen f a h
  firstCause [
    (s.imageInvalid a h ps, 0x95),
    (decide (pageVersion < field h 39 32), 0x96),
    (!ihHbm h && !own, 0x97),
    (!own && s.restorePool f x ps, 0x91),
    (x.frames.any (fun i => !(s.frame i).defined), 0x5A),
    (decide (x.job.st ≠ 0) && decide (s.jobMapCause f x.job.map ≠ 0), 0x70)]

/-- A bank from its bytes; its residues are computed anew (R126). -/
def bankFrom (st : Nat) (bs : List Byte) : Bank :=
  if !st.testBit 0 then .empty
  else
    let pairing := field st 2 1
    let planked := decide (field st 63 48 ≠ 0)
    let rows := (List.range (field st 47 32)).map (fun k => numAt bs (2048 * k) (if planked then 1024 else 2048))
    let scales := (List.range (field st 63 48)).map (fun k => numAt bs (2048 * k + 1024) 1024)
    Bank.checked pairing (field st 15 8) (field st 31 16) (if pairing = 0 then 1024 else 512) rows scales (fun _ _ => true)

/-- Write back the banks of a core. -/
def State.putBanks (s : State) (c : CoreId) (st : Nat) (bs : List Byte) : State :=
  let bank := fun (i : Nat) => bankFrom (field st (64 * i + 63) (64 * i)) (bs.drop (i * 2 ^ 20))
  let t := fun (i : Nat) => let v := field st (64 * i + 63) (64 * i); if v.testBit 0 then some (v / 256) else none
  let s := s.modMe (meInst c.val 0) (fun m => { m with bank0 := bank 0, bank1 := bank 1 })
  let s := s.modMe (meInst c.val 1) (fun m => { m with bank0 := bank 2, bank1 := bank 3 })
  s.setTe c.val { s.te c.val with bank0 := t 4, bank1 := t 5 }

/-- A context descriptor as restored: no references, stale where its frame has another generation (R254, R342). -/
def State.ctxRestored (s : State) (v : Nat) : BitVec 1024 :=
  let d := withFld (BitVec.ofNat 1024 v) 719 704 0
  let fr := s.frame (cxFrame d)
  if cxState d ∈ [1, 2, 3] ∧ (!fr.defined ∨ cxFrameGen d ≠ frGen fr.record) then withFld d 34 32 4 else d

/-- Write back contexts from a first id on; those that are not free and not stale hold their mortises. -/
def State.putCtxs (s : State) (first : Nat) (bs : List Byte) : State :=
  (List.range (bs.length / 128)).foldl (fun (s : State) i =>
    let d := s.ctxRestored (numAt bs (128 * i) 128)
    let s := s.setCtx (first + i) d
    if cxState d ∈ [1, 2, 3] then s.bindMortises (cxFrame d) (first + i) (cxClaims d) else s) s

/-- Physical core that carries a logical core, or will from the next beat boundary on. -/
def State.coreFor? (s : State) (f : FnId) (logical : Nat) : Option CoreId :=
  (s.phys? f logical).or (allCores.find? (fun c => decide ((s.cell c).taking = some (f, logical))))

/-- Write one section back. -/
def State.putPart (s : State) (f : FnId) (cb : List Byte) (own : Bool) (p : Part2) : State :=
  let bs := p.body.getD []
  match p.kind with
  | 2 => (match s.coreFor? f p.core with
    | some c => s.write (spKey c.val 0) (bs.take spSize)
    | none => s)
  | 3 => (match s.coreFor? f p.core with
    | some c => s.putBanks c (numAt cb (offBanks + 64 * p.core) 64) bs
    | none => s)
  | 4 => s.write p.source (bs.take (2 ^ 25))
  | 5 => s.putCtxs (s.fn f).ctxFirst (bs.take (128 * (s.fn f).ctxCount))
  | 6 =>
    let pages := (List.range (bs.length / 65536)).map (fun i => p.source / 65536 + i)
    let s := if own then s else s.mapPages pages (fun _ => claimedEntry f 1 (s.fn f).sec.keyGen.toNat)
    s.write p.source bs
  | _ => s

/-- Set up a queue as CONTROL gives it, with its withdrawn operations dispatched first. -/
def State.putQueue (s : State) (f : FnId) (v : Nat) (withdrawn : List Desc) : State :=
  let r := BitVec.ofNat 512 v
  let n := queueId (qrQueue r)
  let head := BitVec.ofNat 32 (field v 543 512)
  let q : Queue := { Queue.reset with record := r, set := true, head := head, tail := head, cplIndex := BitVec.ofNat 32 (field v 575 544), cplHead := BitVec.ofNat 32 (field v 607 576), stopped := v.testBit 624 }
  withdrawn.foldl (fun (s : State) d => s.addOp { Op.new n s.nextOp d f with readBeat := s.beatNow }) (s.setQueue n.val q)

/-- Every queue of CONTROL in turn. -/
def State.putQueues (s : State) (f : FnId) (cb : List Byte) : List Nat → Nat → State
  | [], _ => s
  | v :: vs, off =>
    let n := field v 622 608
    let ds := (List.range n).map (fun i => BitVec.ofNat 512 (numAt cb (off + 64 * i) 64))
    (s.putQueue f v ds).putQueues f cb vs (off + 64 * n)

def queuesOf (cb : List Byte) : List Nat :=
  let h := headOf cb
  let at0 := offLists + 16 * field h 639 624 + 16 * field h 511 480
  (List.range (field h 479 464)).map (fun i => numAt cb (at0 + 80 * i) 80)

/-- Partition modes that are not SCRATCH. -/
def State.putModes (s : State) (f : FnId) (cb : List Byte) : State :=
  (List.range 64).foldl (fun (s : State) p =>
    if (s.part p).owner = some f ∧ (s.part p).mode ≠ numAt cb (offModes + p) 1 then s.setPartMode f p (numAt cb (offModes + p) 1 % 4) else s) s

/-- Take the resources of a function that is off; a function restored from its own frozen state keeps them. The session and the
image key stay. -/
def State.takeBack (s : State) (f : FnId) (r : BitVec 4096) (own : Bool) (key : Option Nat) : State :=
  let session := (s.fn f).sec.session
  let s := if own then { s with ops := s.ops.filter (fun o => !(decide (o.fn = f) && !s.isMgmt o)), parked := s.parked.filter (fun i => match carried i with | some (q, _) => (s.queue q.val).mgmt || decide ((s.queue q.val).owner ≠ f) | none => true) } else s.create f r
  s.modSec f (fun x => { x with session := session, imageKey := key, stagedKey := none })

/-- Restore a function from the sections of an image. -/
def State.restoreFn (s : State) (f : FnId) (h : Nat) (ps : List Part2) (own : Bool) (key : Option Nat) (resume : Nat) : State :=
  let cb := controlOf ps
  let r := BitVec.ofNat 4096 (numAt cb 0 512)
  let s := (s.takeBack f r own key).putModes f cb
  let s := s.modFn f (fun x => x.from cb h ps resume)
  let s := s.modSec f (fun x => { x with confidential := x.confidential || (headOf cb).testBit 83 })
  let s : State := ps.foldl (fun s p => s.putPart f cb own p) s
  let s := s.modJob f (fun j => { j with topo := s.partnerMask })
  let s := if (s.fn f).job.st ≠ 0 then (s.sendJobReg (s.fn f).job.map false).sendHellos else s
  let vs := queuesOf cb
  let s := s.putQueues f cb vs (offLists + 16 * field (headOf cb) 639 624 + 16 * field (headOf cb) 511 480 + 80 * vs.length)
  vs.foldl (fun (s : State) v => s.seeTail (queueId (qrQueue (BitVec.ofNat 512 v)))) s

def execRestore (q : QueueId) (d : Desc) (s : State) : Host.Outcome State Fault Refusal :=
  .next (s.issue (.restore q d) (fun o s =>
    let f := ctFn d
    let a := ctAddr d
    let rc := s.recordCause o a 256
    let h := s.nat a 256
    let rc2 := s.mgmtCause a (max 256 (ihLen h))
    let key := (s.fn f).sec.stagedKey.or (if (s.fn f).st = .frozen then (s.fn f).sec.imageKey else none)
    let ps := s.readParts a h key
    let r := BitVec.ofNat 4096 (numAt (controlOf ps) 0 512)
    let own := s.ownFrozen f a h
    let x := Fn.from { (if own then s.fn f else Fn.reset) with record := r } (controlOf ps) h ps (rsBeat d)
    let c := s.restoreFnCause f a h ps x
    if rc ≠ 0 then s.faultOp o rc
    else if commitOk h ∧ rc2 ≠ 0 then s.faultOp o rc2
    else if c ≠ 0 then s.faultOp o c
    else match s.readmit f x (rsBeat d) with
      | some p => s.complete o 1 0x98 0 (packDetail [(8, p.2.1)])
      | none => let s := s.restoreFn f h ps own key (rsBeat d); if own then s.done o else s.awaitMap o f))

end Sys2Proof.Machine
end

