-- ==== Sys2Proof/Machine/Security.lean ====
section
/-! DEFINITION. Attestation, the attested channel, key rotation and its sweep, link keys and confidential mode (R349 to R371). -/

namespace Sys2Proof.Machine

/-! ## Digests (R353) -/

/-- A 512-bit digest. -/
def digest512 (bs : List Byte) : Nat := Config.shake256 bs 512 % 2 ^ 512

/-- Digest of the function's configuration: record, apertures, frame bindings and mortise ranges, laid out as in CONTROL (log entry
60), then the job map. -/
def State.cfgDigest (s : State) (f : FnId) : Nat :=
  let x := s.fn f
  digest512 (leBytes 512 x.record.toNat
    ++ (List.range 16).flatMap (fun i => leBytes 16 (apertureState (SMap.get Aperture.reset x.apertures i)))
    ++ x.frames.flatMap (leBytes 1) ++ (List.range 256).flatMap (fun i => let m := SMap.get (0, 0) x.mortises i; leBytes 2 (m.1 + m.2 * 64))
    ++ leBytes 64 (if s.mapped f then x.job.map.toNat else 0))

/-- A report entry (Table 15-2). -/
def reportEntry (kind state id gen epoch digest : Nat) : List Byte :=
  leBytes 80 (placeBits [(0, 8, kind), (8, 8, state), (16, 16, id), (32, 16, gen), (48, 1, epoch), (64, 512, digest)])

/-- Entry of a plan: the header and records as admitted, from the device's copy. -/
def State.planEntry (s : State) (kind : Nat) (p : Option Plan) : List (List Byte) :=
  match p with
  | none => []
  | some p => [reportEntry kind 0 (phPlanId p.header) 0 0 (digest512 (s.bytes p.copy p.bytes))]

/-- Programs: plans, serving classes, measured regions. -/
def State.programEntries (s : State) (f : FnId) : List (List Byte) :=
  let x := s.fn f
  s.planEntry 1 x.active ++ s.planEntry 2 x.pendingPlan
  ++ x.classes.map (fun c => reportEntry 3 0 c.1 0 0 (digest512 (leBytes 32 c.2.toNat)))
  ++ x.sec.measured.map (fun m => reportEntry 4 0 m.1 0 0 (match s.measuredAt f m.2 with
    | some r => digest512 (s.bytes r.1 r.2)
    | none => digest512 []))

def State.frameEntries (s : State) (f : FnId) : List (List Byte) :=
  (s.fn f).frames.map (fun i => let fr := s.frame i; reportEntry 5 fr.digestState i (frGen fr.record) 0 fr.digest)

/-- Entry of a context: the slices of the epoch in force, layer by layer. -/
def State.ctxEntry (s : State) (c : Nat) : List Byte :=
  let d := s.ctx c
  let bytes := (List.range (frLayers (s.frame (cxFrame d)).record)).flatMap (fun l => s.bytes (cxSliceAddr d l) (cxSliceStride d * 128))
  reportEntry 6 (cxState d) c (cxFrameGen d) (cxEpoch d) (digest512 bytes)

/-! ## report (R351, R352, R355) -/

def rpKem (d : Desc) : Bool := flag d 134
def rpCount (d : Desc) : Nat := fld d 141 135
def rpList (d : Desc) : Nat := fld d 165 142
def rpNonce (d : Desc) : Nat := fld d 189 166

/-- Core whose scratchpad holds the nonce and the list: CORE of the function, or for the management role the physical core of that
number where the function has none (log entry 60). -/
def State.reportCore (s : State) (o : Op) : Option CoreId :=
  match s.coreOf o with
  | some c => some c
  | none => if s.isMgmt o then coreId? (hdCore o.desc) else none

/-- CELL_MAP of a report: logical cores in service or unavailable (Table 15-1). -/
def State.reportCells (s : State) (f : FnId) : Nat :=
  let x := s.fn f
  (List.range 24).foldl (fun v k => v + (if k < x.cores then 4 + b2n (x.unavailable.contains k) else 0) * 2 ^ (32 * k)) 0

/-- The header of Table 15-1. -/
def State.reportHeader (s : State) (f : FnId) (kem : Bool) (nonce session len programs frames contexts : Nat) : List Byte :=
  let x := s.fn f
  let job := if s.mapped f then x.job.map else 0
  leBytes 512 (placeBits [(0, 16, 1), (16, 32, len), (48, 8, pageVersion), (56, 2, if x.sec.confidential then 2 else 1), (58, 1, b2n x.quiet),
    (59, 1, b2n kem), (64, 16, s.chip), (80, 6, f.val), (96, 64, Config.serial.toNat), (160, 64, s.beatNow), (224, 32, x.sec.keyGen.toNat),
    (256, 32, jmJobId job), (288, 16, if job = 0 then 0 else jmMembers job - 1), (304, 8, programs), (312, 4, frames), (316, 7, contexts),
    (352, 512, nonce), (864, 512, s.boot.fwDigest), (1376, 512, s.cfgDigest f), (1888, 768, s.reportCells f), (2656, 32, session)])

/-- Everything of a report before its signature block. -/
def State.reportBody (s : State) (f : FnId) (kem : Option (Nat × Nat)) (nonce : Nat) (ids : List Nat) : List Byte :=
  let programs := s.programEntries f
  let frames := s.frameEntries f
  let contexts := ids.map s.ctxEntry
  let key := match kem with | some k => padTo 1568 (Config.kemPublic k.2) | none => []
  let entries := (programs ++ frames ++ contexts).flatten
  let len := 512 + key.length + entries.length + 1282
  s.reportHeader f kem.isSome nonce (match kem with | some k => k.1 | none => 0) len programs.length frames.length contexts.length ++ key ++ entries

/-- The signature block: SIG_LEN, then the signature, zero-padded (R352). -/
def signatureBlock (digest nonce : Nat) : List Byte :=
  let sig := (Config.falconSign digest nonce).take 1280
  leBytes 2 sig.length ++ padTo 1280 sig

/-- Write a report; a KEM report ends the old session and opens a new one. -/
def State.writeReport (s : State) (i : Instr) (o : Op) (c : CoreId) : State :=
  let d := o.desc
  let f := o.fn
  let nonce := s.nat (spKey c.val (rpNonce d)) 64
  let ids := (List.range (rpCount d)).map (fun k => s.nat (spKey c.val (rpList d) + 2 * k) 2)
  let (id, s) := s.draw
  let (decap, s) := s.draw
  let (rand, s) := s.draw
  let kem := if rpKem d then some (id % (2 ^ 32 - 1) + 1, decap) else none
  let body := s.reportBody f kem nonce ids
  let digest := digest512 body
  s.deliver i o false (body ++ signatureBlock digest rand) (fun s =>
    let s := s.count (pageSec + 0x78)
    let s := match kem with
      | some k => s.modSec f (fun x => { x with session := some { id := k.1, decapKey := k.2, digest := digest, opened := false, toDevice := 0, toTenant := 0, counter := 0, beat := s.beatNow } })
      | none => s
    s.done o)

/-- Bytes of the report an operation asks for. -/
def State.reportBytes (s : State) (o : Op) : Nat :=
  512 + (if rpKem o.desc then 1568 else 0) + 80 * ((s.programEntries o.fn).length + (s.fn o.fn).frames.length + rpCount o.desc) + 1282

/-- Cause of a report, with the context ids it lists. -/
def State.reportCause (s : State) (o : Op) (ids : List Nat) : Nat :=
  let w := s.ctlWriteCause o (ctAddr o.desc) (s.reportBytes o)
  lowestCause [
    (s.boot.noIdentity, 0xA2),
    (decide (w = 0xA4), 0xA4),
    (decide (64 < rpCount o.desc) || ids.any (fun c => !(s.fn o.fn).hasCtx c) || decide (w ≠ 0), 0xA8)]

def execReport (q : QueueId) (d : Desc) (s : State) : Host.Outcome State Fault Refusal :=
  .next (s.issue (.report q d) (fun o s =>
    match s.reportCore o with
    | none => s.complete o 4 0 0 0
    | some c =>
      if !spOk (rpList d) (2 * rpCount d) || !spOk (rpNonce d) 64 then s.faultOp o 0x40
      else
        let ids := (List.range (rpCount d)).map (fun k => s.nat (spKey c.val (rpList d) + 2 * k) 2)
        if s.reportCause o ids ≠ 0 then s.faultOp o (s.reportCause o ids) else s.writeReport (.report q d) o c))

/-! ## The channel (R356, R357) -/

/-- Function whose session an operation means: its own, or for the management role the one that holds the id. -/
def State.sessionFn (s : State) (o : Op) (id : Nat) : Option FnId :=
  (if s.isMgmt o then allFns else [o.fn]).find? (fun f => match (s.fn f).sec.session with
    | some z => decide (z.id = id)
    | none => false)

def State.endSession (s : State) (f : FnId) : State := s.modSec f (fun x => { x with session := none })

/-- Derive the two channel keys from a ciphertext. -/
def Session.derive (z : Session) (cipher : List Byte) : Session :=
  let k := Config.shake256 (leBytes 32 (Config.kemDecaps z.decapKey cipher) ++ leBytes 64 z.digest) 512
  { z with opened := true, toDevice := field k 255 0, toTenant := field k 511 256 }

def execChannelOpen (q : QueueId) (d : Desc) (s : State) : Host.Outcome State Fault Refusal :=
  .next (s.issue (.channelOpen q d) (fun o s =>
    let rc := s.recordCause o (ctAddr d) 1568
    if rc ≠ 0 then s.faultOp o rc
    else match s.sessionFn o (fld d 159 128) with
      | none => s.faultOp o 0xA1
      | some f =>
        if s.boot.noIdentity then s.faultOp o 0xA2
        else
          let cipher := s.bytes (s.readAddr o.fn (ctAddr d)) 1568
          (s.modSec f (fun x => { x with session := x.session.map (fun z => z.derive cipher) })).done o))

/-! ## Key rotation and the sweep (R359 to R361) -/

/-- Pages of a function that a sweep has still to visit. -/
def State.sweepLeft (s : State) (f : FnId) : List Nat :=
  (s.dir.filter (fun x => (decide (pgTier x.2 = 1) || decide (pgTier x.2 = 2)) && decide (pgOwner x.2 = f.val) && decide (pgMove x.2 ≠ 2)
    && decide (pgKgen x.2 ≠ (s.fn f).sec.keyGen.toNat % 2))).map (·.1)

/-- The sweep ends once its last page is done: the contexts carry the new KGEN and the old slot is zeroed. -/
def State.endSweep (s : State) (f : FnId) : State :=
  let x := (s.fn f).sec
  if x.sweep && (s.sweepLeft f).isEmpty then
    let g := x.keyGen.toNat % 2
    let mark := fun (c : Nat × BitVec 1024) => if cxOwner c.2 = f.val ∧ cxState c.2 ≠ 0 then (c.1, withFld c.2 35 35 g) else c
    let s : State := { s with ctxs := s.ctxs.map mark }
    (s.modSec f (fun x => if g = 0 then { x with sweep := false, key1 := 0 } else { x with sweep := false, key0 := 0 })).raise pageSec 0
  else s

/-- A rotation: the new key takes the other slot and a sweep starts. -/
def State.rotate (s : State) (f : FnId) (key : Nat) : State :=
  let g := (s.fn f).sec.keyGen + 1
  (s.modSec f (fun x => if g.toNat % 2 = 0 then { x with keyGen := g, key0 := key, sweep := true } else { x with keyGen := g, key1 := key, sweep := true })).endSweep f

/-- KEY_SWEEP_PAGE: the sweep reaches a page and holds it; once its REF is 0 it is under the new key. -/
def execKeySweepPage (page : Nat) (s : State) : Host.Outcome State Fault Refusal :=
  let e := s.page page
  let f := fnId (pgOwner e)
  if !(s.fn f).sec.sweep || !(s.sweepLeft f).contains page || decide (pgMove e = 1) then .next s
  else if pgRef e ≠ 0 then .next (s.setPage page (withFld e 28 26 3))
  else .next ((s.setPage page (withFld (withFld e 28 26 0) 9 9 ((s.fn f).sec.keyGen.toNat % 2))).endSweep f)

def execRotateKey (q : QueueId) (d : Desc) (s : State) : Host.Outcome State Fault Refusal :=
  .next (s.issue (.rotateKey q d) (fun o s =>
    let f := ctFn d
    let x := s.fn f
    let c := lowestCause [(decide (x.st = .off) || decide (x.st = .scrubbing), 0x90), (x.sec.sweep, 0xA0), (x.sec.confidential, 0xA5)]
    if c ≠ 0 then s.faultOp o c
    else let (key, s) := s.draw; (s.rotate f (key % 2 ^ 512)).done o))

/-! ## Message bodies (Table 15-3) -/

/-- Does a function hold an open channel? -/
def State.channelOpened (s : State) (f : FnId) : Bool :=
  match (s.fn f).sec.session with
  | some z => z.opened
  | none => false

/-- MEM_KEY: a rotation to the tenant's key; KEY_BUSY while a sweep runs. -/
def State.takeMemKey (s : State) (f : FnId) (key : Nat) : Nat × State :=
  if (s.fn f).sec.sweep then (0xA0, s) else (0, s.rotate f key)

/-- IMAGE_KEY: replaces the image key; for a function that is OFF it is staged (R357). -/
def State.takeImageKey (s : State) (f : FnId) (key : Nat) : State :=
  s.modSec f (fun x => if (s.fn f).st = .off then { x with stagedKey := some key } else { x with imageKey := some key })

/-- The link slot a LINK_KEY takes, none where it may not (R365). -/
def State.linkSlotFor (s : State) (f : FnId) (job : Nat) : Option Nat :=
  if !s.mapped f || decide (jmJobId (s.fn f).job.map ≠ job) || decide (2 ≤ ((List.range 4).filter (fun i => (s.link i).job.toNat = job)).length) then none
  else (List.range 4).find? (fun i => decide ((s.link i).job = 0))

def State.takeLinkKey (s : State) (f : FnId) (job activation key : Nat) : Nat × Nat × State :=
  match s.linkSlotFor f job with
  | none => (0xA6, 0, s)
  | some i => (0, i, s.setLink i { job := BitVec.ofNat 32 job, key := key, activation := BitVec.ofNat 64 activation, counter := 0, inForce := false })

/-- LINK_DROP: zeroes a slot of the function's job that a newer slot of the job stands beside. -/
def State.takeLinkDrop (s : State) (f : FnId) (job slot : Nat) : Nat × State :=
  let l := s.link slot
  let newer := (List.range 4).any (fun i => decide (i ≠ slot) && decide ((s.link i).job = l.job) && decide (l.activation ≤ (s.link i).activation))
  if !s.mapped f || decide (jmJobId (s.fn f).job.map ≠ job) || decide (l.job.toNat ≠ job) || !newer then (0xA6, s)
  else (0, s.setLink slot LinkSlot.reset)

/-- CONFIDENTIAL: refused for a job of more than 256 members (R368). -/
def State.takeConfidential (s : State) (f : FnId) : Nat × State :=
  if s.mapped f ∧ 256 < jmMembers (s.fn f).job.map then (0xA3, s) else (0, s.modSec f (fun x => { x with confidential := true }))

/-- A body of Table 15-3: cause, link slot taken, state; none for a body that is no message of the table. -/
def State.takeBody (s : State) (f : FnId) (body : List Byte) : Option (Nat × Nat × State) :=
  let kind := numAt body 0 1
  let off := decide ((s.fn f).st = .off)
  if off && decide (kind ≠ 2) then none
  else match kind, body.length with
    | 1, 65 => if numAt body 1 32 = numAt body 33 32 then none else let r := s.takeMemKey f (numAt body 1 64); some (r.1, 0, r.2)
    | 2, 33 => some (0, 0, s.takeImageKey f (numAt body 1 32))
    | 3, 45 => let r := s.takeLinkKey f (numAt body 1 4) (numAt body 5 8) (numAt body 13 32); some r
    | 4, 6 => let r := s.takeLinkDrop f (numAt body 1 4) (numAt body 5 1); some (r.1, 0, r.2)
    | 5, 1 => let r := s.takeConfidential f; some (r.1, 0, r.2)
    | 6, 1 => some (0, 0, s.endSession f)
    | _, _ => none

/-- A message that is refused with CHANNEL ends the session (R357). -/
def State.refuseChannel (s : State) (o : Op) (f : FnId) (id : Nat) : State :=
  ((((s.endSession f).count (pageSec + 0x74)).raise pageSec 2).logPkg 0x8382 0 id f.val).faultOp o 0xA1

def cmAck (d : Desc) : Nat := fld d 171 128
def cmBytes (d : Desc) : Nat := fld d 187 172

/-- The acknowledgement: the message's header with its own body length, and status, KEY_GEN and slot, sealed (log entry 60). -/
def ackBytes (z : Session) (header cause keyGen slot : Nat) : List Byte :=
  let h := leBytes 16 (withField header 47 32 16)
  h ++ padTo 32 (Config.gcmSeal z.toTenant (field header 127 64) h (leBytes 16 (placeBits [(0, 8, if cause = 0 then 0 else 1), (8, 8, cause), (32, 32, keyGen), (64, 8, slot)])))

/-- The body of a message that verifies, none otherwise. -/
def Session.openMessage (z : Session) (bs : List Byte) : Option (List Byte) :=
  let h := numAt bs 0 16
  let len := field h 47 32
  if !z.opened || decide (field h 63 48 ≠ 0) || decide (bs.length ≠ len + 32) || decide (field h 127 64 < z.counter) then none
  else (Config.gcmOpen z.toDevice (field h 127 64) (bs.take 16) (bs.drop 16)).bind (fun b => if b.length = len then some b else none)

/-- Take one message of a function's session. -/
def State.takeMessage (s : State) (o : Op) (f : FnId) (z : Session) (bs : List Byte) : State :=
  let h := numAt bs 0 16
  match z.openMessage bs with
  | none => s.refuseChannel o f z.id
  | some body =>
    let s := s.modSec f (fun x => { x with session := some { z with counter := field h 127 64 + 1 } })
    match s.takeBody f body with
    | none => s.refuseChannel o f z.id
    | some (cause, slot, t) =>
      let t := t.ctlWrite o (cmAck o.desc) (ackBytes z h cause (t.fn f).sec.keyGen.toNat slot)
      if cause = 0 then t.done o else t.faultOp o cause

def execChannelMessage (q : QueueId) (d : Desc) (s : State) : Host.Outcome State Fault Refusal :=
  .next (s.issue (.channelMessage q d) (fun o s =>
    let rc := s.recordCause o (ctAddr d) (cmBytes d)
    let wc := s.ctlWriteCause o (cmAck d) 48
    let bs := s.bytes (s.readAddr o.fn (ctAddr d)) (cmBytes d)
    let id := numAt bs 0 4
    if rc ≠ 0 then s.faultOp o rc
    else if wc ≠ 0 then s.faultOp o wc
    else match (s.sessionFn o id).bind (fun f => (s.fn f).sec.session.map (fun z => (f, z))) with
      | none => s.refuseChannel o o.fn id
      | some (f, z) => s.takeMessage o f z bs))

/-! ## The messages as commands: what a message of each kind does once the open channel has taken it -/

def execMemKey (f : FnId) (key : BitVec 512) (s : State) : Host.Outcome State Fault Refusal :=
  if s.channelOpened f ∧ (s.fn f).st ≠ .off ∧ field key.toNat 255 0 ≠ field key.toNat 511 256 then .next (s.takeMemKey f key.toNat).2 else .next s

def execImageKey (f : FnId) (key : BitVec 256) (s : State) : Host.Outcome State Fault Refusal :=
  if s.channelOpened f then .next (s.takeImageKey f key.toNat) else .next s

def execLinkKey (f : FnId) (job : Word) (activation : BitVec 64) (key : BitVec 256) (s : State) : Host.Outcome State Fault Refusal :=
  if s.channelOpened f ∧ (s.fn f).st ≠ .off then .next (s.takeLinkKey f job.toNat activation.toNat key.toNat).2.2 else .next s

def execLinkDrop (f : FnId) (job : Word) (slot : Fin 4) (s : State) : Host.Outcome State Fault Refusal :=
  if s.channelOpened f ∧ (s.fn f).st ≠ .off then .next (s.takeLinkDrop f job.toNat slot.val).2 else .next s

def execConfidential (f : FnId) (s : State) : Host.Outcome State Fault Refusal :=
  if s.channelOpened f ∧ (s.fn f).st ≠ .off then .next (s.takeConfidential f).2 else .next s

def execCloseSession (f : FnId) (s : State) : Host.Outcome State Fault Refusal :=
  if s.channelOpened f then .next (s.endSession f) else .next s

/-- SESSION_EXPIRY: 2^28 beats without a channel-open (R355). -/
def execSessionExpiry (f : FnId) (s : State) : Host.Outcome State Fault Refusal :=
  match (s.fn f).sec.session with
  | some z => if !z.opened && decide (z.beat + 2 ^ 28 ≤ s.beatNow) then .next (s.endSession f) else .next s
  | none => .next s

/-! ## get-certificates, measure-region, unmeasure -/

def execGetCertificates (q : QueueId) (d : Desc) (s : State) : Host.Outcome State Fault Refusal :=
  .next (s.issue (.getCertificates q d) (fun o s =>
    s.deliver (.getCertificates q d) o false (Config.certificates.take (fld d 159 128)) (fun s => s.done o)))

def mrIndex (d : Desc) : Nat := fld d 133 128
def mrBytes (d : Desc) : Nat := fld d 191 160 * 128

/-- Cause of a measure-region: its range is one of the function's scratchpad or SCRATCH partitions. -/
def State.measureCause (s : State) (o : Op) : Nat :=
  let d := o.desc
  let sp := flag d 134
  lowestCause [
    (decide (mrBytes d = 0), 0xC0),
    (if sp then decide (ctAddr d / 2 ^ 24 ≠ 0) || !spOk (ctOff d) (mrBytes d) else decide (region (ctAddr d) ≠ .llm), 0x40),
    (!sp && decide (s.accessCause o.fn (ctAddr d) (mrBytes d) false ≠ 0), s.accessCause o.fn (ctAddr d) (mrBytes d) false)]

def execMeasureRegion (q : QueueId) (d : Desc) (s : State) : Host.Outcome State Fault Refusal :=
  .next (s.issue (.measureRegion q d) (fun o s =>
    let f := o.fn
    let c := s.measureCause o
    let a := if flag d 134 then 2 ^ 45 + hdCore d * 2 ^ 24 + ctOff d else ctAddr d
    if c ≠ 0 then s.faultOp o c
    else if flag d 134 && (s.coreOf o).isNone then s.complete o 4 0 0 0
    else if SMap.get (0, 0) (s.fn f).sec.measured (mrIndex d) ≠ (0, 0) then s.refuseOpen o
    else (s.modSec f (fun x => { x with measured := SMap.put (0, 0) x.measured (mrIndex d) (a, mrBytes d) })).done o))

def execUnmeasure (q : QueueId) (d : Desc) (s : State) : Host.Outcome State Fault Refusal :=
  .next (s.issue (.unmeasure q d) (fun o s =>
    (s.modSec o.fn (fun x => { x with measured := SMap.put (0, 0) x.measured (mrIndex d) (0, 0) })).done o))

end Sys2Proof.Machine
end

