-- ==== Sys2Proof/Machine/Boot.lean ====
section
/-! DEFINITION. Resets, the firmware image, start-up, the reference clocks and the failure of the PKC (R433, R444, R446 to R457,
R480). -/

namespace Sys2Proof.Machine

/-! ## Resets (Table 19-2) -/

/-- Companion memory, which no reset of the device reaches. -/
def companionCells (m : List Host.Cell) : List Host.Cell := m.filter (fun c => decide (2 ^ 43 ≤ c.1) && decide (c.1 < 2 ^ 44))

/-- The device as a reset leaves it: fuses, calibration store, straps, clocks, boundary register and companion memory stay. -/
def State.restart (s : State) (source : Nat) : State :=
  let b := s.boot
  let boot : Boot := { Boot.reset with count := b.count + 1, source := source, svn := b.svn, thermN := b.thermN, clocks := b.clocks, straps := b.straps, tapIr := b.tapIr, boundary := b.boundary }
  { State.reset with
    pending := s.pending, mem := companionCells s.mem, store := s.store, boot := boot, rdData := s.rdData, smbData := s.smbData,
    scanData := s.scanData, lastCpl := s.lastCpl, fresh := s.fresh }

/-- The boot ROM trains the Darlek link and waits for an image; with no port trained it goes on trying (Table 19-4). -/
def State.bootRom (s : State) (lanes0 lanes1 : Fin 3) : State :=
  let l0 := if s.boot.clocks.getLsbD 0 then lanesCode lanes0.val else 0
  let l1 := if s.boot.clocks.getLsbD 1 then lanesCode lanes1.val else 0
  { s with boot := { s.boot with dlk0 := l0, dlk1 := l1, st := if dlkUp l0 || dlkUp l1 then 1 else 0 } }

/-- POWER_ON_RESET: every rail has been in range for 1 ms; the straps are sampled. -/
def execPowerOnReset (lanes0 lanes1 : Fin 3) (straps : BitVec 2) (s : State) : Host.Outcome State Fault Refusal :=
  let s := s.restart 1
  .next ({ s with boot := { s.boot with straps := straps, thermN := false } }.bootRom lanes0 lanes1)

/-- RAIL_LOSS: the device enters power-on reset at once and stays there. -/
def execRailLoss (_rail : Fin 19) (s : State) : Host.Outcome State Fault Refusal :=
  let s := s.restart 1
  .next { s with boot := { s.boot with powered := false, thermN := false } }

/-- DEV_RST_N; held in power-on reset, the device has nothing to reset. -/
def execDevRstN (lanes0 lanes1 : Fin 3) (s : State) : Host.Outcome State Fault Refusal :=
  if !s.boot.powered then .next s
  else
    let s := s.restart 2
    .next ({ s with boot := { s.boot with thermN := false } }.bootRom lanes0 lanes1)

/-- Registers of the trouble log that a warm reset keeps: the management view's read position and LOST counters (R444). -/
def logRegs (m : SMap Word) : SMap Word := m.filter (fun r => decide (r.1 = pageTlog + 0x44) || (decide (pageTlog + 0x80 ≤ r.1) && decide (r.1 < pageTlog + 0xC0)))

/-- A write of BOOT_CTRL that the page's rules ignore (R464). -/
def State.ignoreBootCtrl (s : State) : State := if s.boot.powered then s.pageError pagePkc 0xFFFF none true else s

/-- WARM: a write of BOOT_CTRL with WARM set; any other KEY is ignored. The log stays; views of functions end with the functions. -/
def execWarm (key : Byte) (lanes0 lanes1 : Fin 3) (s : State) : Host.Outcome State Fault Refusal :=
  if key ≠ 0xA5 ∨ !s.boot.powered then .next s.ignoreBootCtrl
  else
    let log := s.log.map (fun e => { e with views := [] })
    let next := s.logNext.filter (fun v => decide (v.1 = 0))
    let regs := (logRegs s.regs).foldl (fun m r => SMap.put 0 m r.1 r.2) regsReset
    let t := s.restart 3
    .next ({ t with log := log, logNext := next, regs := regs }.bootRom lanes0 lanes1)

/-! ## The firmware image (R450 to R453) -/

def fwLength (h : Nat) : Nat := field h 95 64
def fwSvn (h : Nat) : Nat := field h 127 96

/-- IMAGE_ADDR. -/
def State.imageAddr (s : State) : Nat := s.reg 0 0x44 + s.reg 0 0x48 % 2 ^ 11 * 2 ^ 32

/-- The digest of header and body, which the signature covers and reports carry. -/
def State.fwDigest (s : State) (a h : Nat) : Nat := digest512 (s.bytes a (256 + fwLength h))

/-- The image check in the order of R451; an image off its 4 KiB boundary is no image. -/
def State.fwCause (s : State) (a h : Nat) (readable : Bool) : Nat :=
  let sig := s.bytes (a + 256 + fwLength h) 1296
  let n := ofBytes (sig.take 2)
  firstCause [
    (!readable, 0x05),
    (decide (a % 4096 ≠ 0) || decide (field h 31 0 ≠ 0x42584657) || decide (field h 47 32 ≠ 1) || decide (field h 63 57 ≠ 0) || decide (field h 2047 192 ≠ 0)
      || decide (fwLength h % 4096 ≠ 0) || decide (67104768 < fwLength h) || decide (64 < fwSvn h), 0x01),
    (decide (pageVersion < field h 55 48), 0x02),
    (decide (fwSvn h < s.boot.svn), 0x03),
    (decide (1280 < n) || !Config.falconVerify (s.fwDigest a h) ((sig.drop 2).take n), 0x04)]

/-- BOOT_FAIL: the device waits for a new GO. -/
def State.bootFail (s : State) (cause : Nat) : State :=
  { s with boot := { s.boot with st := 9, cause := cause } }.raise pagePkc 1

/-! ## The steps of Table 19-4 -/

/-- Lost counts that the first log entry carries. -/
def State.lostCounts (s : State) : Nat := sumNat ((List.range 16).map (fun c => s.reg 0 (pageTlog + 0x80 + 4 * c)))

/-- DIES: the log starts and the identity is unsealed (R349). -/
def State.startDies (s : State) (env : BootEnv) : State :=
  let s := s.logPkg 0xB4C1 0 s.boot.source s.lostCounts
  if env.identityUnsealed then { s with boot := { s.boot with noIdentity := false } }
  else ({ s with boot := { s.boot with noIdentity := true } }.logPkg 0x8383 0 0 0).raise pageSec 3

/-- HBM: every stack trains. -/
def State.trainStacks (s : State) (env : BootEnv) : State :=
  (List.range 24).foldl (fun s st => s.trained st (env.hbmRates.getD st 0) (env.hbmSpared.getD st 0)) s

/-- SRAM: a core or partition whose test fails is marked. -/
def State.testSram (s : State) (env : BootEnv) : State :=
  let s := allCores.foldl (fun (s : State) c => s.modCell c (fun x => { x with testFailed := !env.sramCores.getLsbD c.val })) s
  (List.range 64).foldl (fun (s : State) p => s.setPart p { s.part p with failed := !env.sramParts.getLsbD p }) s

/-- State of a core as the newest CELL_MAP record gives it; no function owns it (Table 1-5). -/
def storedState (code : Nat) : CellState :=
  match code with
  | 0 => .inService
  | 2 => .ineligible
  | 3 => .quarantined
  | _ => .eligible

/-- A core's entry of the store: state and hours, and V_req of its die's newest plan. -/
def Cell.stored (x : Cell) (map plan : Option (List Byte)) (c : CoreId) : Cell :=
  let x := match map with
    | some bs => { x with st := storedState (numAt bs (4 * c.val) 2 % 4), hoursSinceTest := numAt bs (4 * c.val + 2) 2 }
    | none => x
  match plan with
  | some bs => { x with vReq := numAt bs (4 + 2 * (c.val % 6)) 2 }
  | none => x

/-- A core after its active test at start-up: one that passes leaves quarantine; one whose SRAM failed is quarantined. -/
def Cell.tested (x : Cell) (vReq : Option Nat) : Cell :=
  let x := match vReq with
    | some v => { x with vReq := v, hoursSinceTest := 0, testDue := false, st := if x.st = CellState.quarantined then CellState.eligible else x.st }
    | none => x
  if x.testFailed then { x with st := .quarantined } else x

/-- Cells from the store, then tested. -/
def State.bootCells (s : State) (env : BootEnv) : State :=
  let map := (s.store.newest 0x0010 0xFFFF).map (·.payload)
  allCores.foldl (fun (s : State) c =>
    let plan := (s.store.newest 0x0011 (c.val / 6)).map (·.payload)
    s.modCell c (fun x => (x.stored map plan c).tested (env.vReq.getD c.val none))) s

/-- Eligible cores enter service, lowest first, while fewer than 20 serve; no function has them yet (Tables 1-5 and 19-4, R23, log
entry 61). DEDUCED. -/
def State.fillService (s : State) : State :=
  ((allCores.filter (fun c => decide ((s.cell c).st = .eligible))).take (20 - s.inService)).foldl (fun (s : State) c =>
    s.modCell c (fun x => { x with st := .inService })) s

/-- Repairs of a stack, and its retired pages. -/
def State.bootRepairs (s : State) (st : Nat) : State :=
  (s.store.repairs st).foldl (fun (s : State) r =>
    if r.2 = 0 then s.setPage (st * 2 ^ 20 + r.1 / 64) (dirReset ||| 3)
    else
      let x := s.stack st
      s.setStack st { x with repairs := SMap.put 0 x.repairs r.1 (if SMap.get 0 x.repairs r.1 = 1 ∧ r.2 = 2 then 3 else r.2) }) s

/-- A margin plan of a die at start-up, whose request the regulator answers before the step ends. -/
def State.bootPlan (s : State) (d : Nat) : State :=
  let guard := match s.store.newest 0x0011 d with
    | some r => numAt r.payload 2 2
    | none => 400
  let s := (s.setDie d { s.die d with guard := guard }).plan d
  let s : State := (coresOfDie d).foldl State.mapOne s
  s.setDie d { s.die d with acked := (s.die d).requested, vcore := (s.die d).requested }

/-- CELL_MAP: cell map, repairs, power-on hours, active tests and margin plans. -/
def State.bootCellMap (s : State) (env : BootEnv) : State :=
  let poh := match s.store.newest 0x0013 0xFFFF with
    | some r => numAt r.payload 0 4
    | none => 0
  let s := { s with power := { s.power with poh := poh } }
  let s := (s.bootCells env).fillService
  let s := (List.range 24).foldl State.bootRepairs s
  let s := if some s.cellMapPayload = (s.store.newest 0x0010 0xFFFF).map (fun r => r.payload.take 96) then s else s.storeCellMap
  (List.range 4).foldl State.bootPlan s

/-- FABRIC: every enabled port whose clock runs trains. -/
def State.bootFabric (s : State) (env : BootEnv) : State :=
  let s := { s with boot := { s.boot with pos := env.pos.toNat, lenM1 := env.lenM1.toNat } }
  (List.range 12).foldl (fun (s : State) p => if s.portEnabled p && s.portClock p then s.setPort p { s.port p with st := 1 } else s) s

/-- READY: the fused counter rises where the image asks for it (R452). -/
def State.bootReady (s : State) (h : Nat) (env : BootEnv) : State :=
  let svn := if h.testBit 56 then max s.boot.svn (fwSvn h) else s.boot.svn
  { s with boot := { s.boot with st := 8, cause := 0, svn := svn, timeMs := env.bootMs } }.raise pagePkc 0

/-- Everything that a failed start-up left before the next GO, but for the log and the registers. -/
def State.retryBoot (s : State) : State :=
  { s with cells := Vector.replicate 24 Cell.reset, hbms := [], parts := [], dies := [], dir := [], power := { Power.reset with cap := s.power.cap, package := s.power.package } }

/-- The steps after the image check, each ending the start-up where it fails. -/
def State.bootSteps (s : State) (h : Nat) (env : BootEnv) : State :=
  let s := s.retryBoot
  if !env.diesUp then s.bootFail 0x10
  else
    let s := ((s.startDies env).trainStacks env).testSram env
    if !env.sramTables then s.bootFail 0x11
    else if !env.storeReadable then s.bootFail 0x12
    else
      let s := s.bootCellMap env
      if !env.avsAnswers then s.bootFail 0x13
      else (s.bootFabric env).bootReady h env

/-- GO: the image is checked and start-up runs to READY or to BOOT_FAIL; ignored in any other step (R453). -/
def execGo (env : BootEnv) (s : State) : Host.Outcome State Fault Refusal :=
  if s.boot.st ≠ 1 ∧ s.boot.st ≠ 9 then .next s.ignoreBootCtrl
  else
    let a := compKey s.imageAddr
    let h := s.nat a 256
    let c := s.fwCause a h env.imageReadable
    if c ≠ 0 then .next (s.bootFail c)
    else .next ({ s with boot := { s.boot with fwDigest := s.fwDigest a h } }.bootSteps h env)

/-! ## Reference clocks (R480) -/

/-- REFCLK_STOP: the ports of the clock lose their links; core clocks hold. -/
def execRefclkStop (clock : Fin 4) (s : State) : Host.Outcome State Fault Refusal :=
  let s := { s with boot := { s.boot with clocks := s.boot.clocks &&& ~~~(1#4 <<< clock.val) } }
  if clock.val < 2 then
    if dlkUp (s.dlk clock.val) then
      .next ((((s.setDlk clock.val 0).count (pageDlk clock.val + 0x48)).raise (pageDlk clock.val) 0).logPkg 0x42C1 clock.val 0 0)
    else .next (s.setDlk clock.val 0)
  else
    let ports := (List.range 6).map (· + 6 * (clock.val - 2))
    .next (ports.foldl (fun (s : State) p => if 2 ≤ (s.port p).st then s.loseLink p else s.setPort p { s.port p with st := 0 }) s)

/-- REFCLK_RETURN: lock is regained and the ports train again. -/
def execRefclkReturn (clock : Fin 4) (s : State) : Host.Outcome State Fault Refusal :=
  let s := { s with boot := { s.boot with clocks := s.boot.clocks ||| (1#4 <<< clock.val) } }
  if clock.val < 2 then .next (if s.dlk clock.val = 0 then s.setDlk clock.val 1 else s)
  else
    let ports := (List.range 6).map (· + 6 * (clock.val - 2))
    .next (ports.foldl (fun (s : State) p => if (s.port p).st = 0 ∧ s.portEnabled p ∧ s.boot.st = 8 then s.setPort p { s.port p with st := 1 } else s) s)

/-! ## Failure of the PKC (R433, R485) -/

/-- PKC_FAILURE: IO1 answers for the device, the log is written no further, and dispatch stops. -/
def execPkcFailure (s : State) : Host.Outcome State Fault Refusal :=
  if s.boot.pkcFailed then .next s
  else .next ({ s with boot := { s.boot with pkcFailed := true } }.deviceFault 0x73C1 0 0 0)

end Sys2Proof.Machine
end

