-- ==== Sys2Proof/Machine/Flags.lean ====
section
/-! DEFINITION. The register pages as they read (R458, R462 to R468, R472, R475): page map, header, status flags and block
registers of every page. -/

namespace Sys2Proof.Machine

/-! ## The page map (Table 20-2) -/

/-- Kinds of pages. -/
inductive PageKind where
  | pkc | beat | pwr | sec | tlog | ctxt | cmap | core | me | te | hbm | fab | dlk | llmp | func | hlth | memf | jobf | stepf
  deriving DecidableEq, Repr

/-- Block type of PAGE_ID. -/
def PageKind.code : PageKind → Nat
  | .pkc => 0x0F | .beat => 0x0C | .pwr => 0x0D | .sec => 0x0E | .tlog => 0x13 | .ctxt => 0x08 | .cmap => 0x43
  | .core => 0x04 | .me => 0x01 | .te => 0x02 | .hbm => 0x09 | .fab => 0x0A | .dlk => 0x0B | .llmp => 0x06
  | .func => 0x12 | .hlth => 0x40 | .memf => 0x41 | .jobf => 0x42 | .stepf => 0x11

/-- Last implemented offset (CAPS). -/
def PageKind.last : PageKind → Nat
  | .pkc => 0xBC | .beat => 0x17C | .pwr => 0xAC | .sec => 0x78 | .tlog => 0x8FC | .ctxt => 0x6C | .cmap => 0xA4
  | .core => 0x60 | .me => 0x78 | .te => 0x68 | .hbm => 0x74 | .fab => 0x70 | .dlk => 0x5C | .llmp => 0x50
  | .func => 0x1FC | .hlth => 0x58 | .memf => 0x15C | .jobf => 0x1FC | .stepf => 0x70

/-- Pages of a block range: kind and count. -/
def blockRange : Nat → Option (PageKind × Nat)
  | 1 => some (.core, 24) | 2 => some (.me, 48) | 3 => some (.te, 24) | 4 => some (.hbm, 24) | 5 => some (.fab, 12)
  | 6 => some (.dlk, 2) | 7 => some (.llmp, 64) | 8 => some (.func, 64) | 9 => some (.hlth, 64) | 10 => some (.memf, 64)
  | 11 => some (.jobf, 64) | 12 => some (.stepf, 64) | _ => none

/-- Kind and instance of the page at a window offset. -/
def pageKind? (off : Nat) : Option (PageKind × Nat) :=
  let i := off / 0x1000 % 256
  if off / 0x100000 = 0 then ([PageKind.pkc, .beat, .pwr, .sec, .tlog, .ctxt, .cmap][i]?).map (fun k => (k, 0))
  else (blockRange (off / 0x100000)).bind (fun r => if i < r.2 then some (r.1, i) else none)

/-- Offset of the register an access reaches within its page, and the page's own offset. -/
def regOff (off : Nat) : Nat := off % 0x1000 / 4 * 4

def pageBase (off : Nat) : Nat := off / 0x1000 * 0x1000

/-- Is a page of one function. -/
def PageKind.perFn (k : PageKind) : Bool := decide (k ∈ [PageKind.func, .hlth, .memf, .jobf, .stepf])

/-- Pages a window sees (R468). -/
def seesPage (w : Window) (k : PageKind) (i : Nat) : Bool :=
  match w with
  | .mgmt => true
  | .fn f => decide (k = .beat) || decide (k = .tlog) || (k.perFn && decide (i = f.val))

/-- The page that an access from a window reaches: implemented, seen by the window, and answering, which before READY only the
PKC page does (R456, R458). -/
def State.pageAt? (s : State) (w : Window) (off : Nat) : Option (PageKind × Nat) :=
  if !s.boot.powered then none
  else (pageKind? off).filter (fun p => seesPage w p.1 p.2 && decide (regOff off ≤ p.1.last) && (decide (p.1 = .pkc) || decide (s.boot.st = 8)))

/-! ## Access codes (Table 0-3) -/

/-- Offsets from a first to a last one, by words. -/
def offsets (first last : Nat) : List Nat := (List.range ((last - first) / 4 + 1)).map (fun i => first + 4 * i)

/-- RC registers. -/
def PageKind.rc : PageKind → List Nat
  | .beat => [0x78, 0x7C] ++ offsets 0x100 0x17C
  | .pwr => offsets 0x90 0xA4 ++ [0xAC]
  | .sec => [0x5C, 0x70, 0x74, 0x78]
  | .tlog => offsets 0x80 0xBC
  | .ctxt => [0x68, 0x6C]
  | .cmap => [0xA4]
  | .core => rcCore
  | .me => rcMe
  | .te => rcTe
  | .hbm => [0x48, 0x4C, 0x50, 0x54, 0x68, 0x6C]
  | .fab => offsets 0x54 0x70
  | .dlk => offsets 0x44 0x58
  | .llmp => offsets 0x44 0x50
  | .func => [0x68, 0x6C]
  | .hlth => offsets 0x48 0x54
  | .memf => offsets 0x48 0xC0
  | .jobf => offsets 0x48 0x54 ++ offsets 0x100 0x1FC
  | .stepf => offsets 0x4C 0x6C
  | .pkc => []

/-- RW block registers, with the bits that are not reserved. -/
def PageKind.rw : PageKind → List (Nat × Nat)
  | .pkc => [(0x44, 0xFFFFFFFF), (0x48, 0x7FF), (0x5C, 0xFFFF)] ++ (offsets 0x80 0xBC).map (fun o => (o, 0xFFFFFFFF))
  | .beat => [(0x40, 0xFF), (0x44, 0xFFFF), (0x48, 0xFFFFFFFF), (0x4C, 0x1FFF), (0x50, 0xFFFFFFFF), (0x54, 0xFFFFFFFF), (0x58, 0xFFFFFFFF), (0x5C, 0xFFFFFFFF)]
  | .pwr => [(0x5C, 7), (0x84, 2)]
  | .sec => [(0x4C, 0x3F)]
  | .tlog => [(0x44, 0xFFFFFFFF), (0x50, 0xFFFF)]
  | .ctxt => [(0x58, 0xFF)]
  | .hbm => [(0x70, 0x7E)]
  | .fab => [(0x40, 0x2F)]
  | _ => []

/-- Low words of the 64-bit registers (R460). -/
def PageKind.lows : PageKind → List Nat
  | .pkc => [0x44]
  | .beat => [0x50, 0x58, 0x60]
  | .sec => [0x44]
  | .func => (List.range 24).map (fun i => 0x140 + 8 * i)
  | .memf => [0xC8]
  | .jobf => [0x5C]
  | .stepf => [0x40]
  | _ => []

def isLow (k : PageKind) (r : Nat) : Bool := decide (r = 0x28) || decide (r ∈ k.lows)

/-- Is a register RW as a window sees it? COALESCE is RO in a function's view (Table 18-6). -/
def isRw (w : Window) (k : PageKind) (r : Nat) : Bool :=
  match w with
  | .mgmt => decide (r = 0x1C) || decide (r ∈ k.rw.map (·.1))
  | .fn _ => decide (k ≠ .beat) && (decide (r = 0x1C) || (decide (k = .tlog) && decide (r = 0x44)))

/-! ## The header (R462 to R467) -/

/-- The physical core of a CORE, ME or TE page. -/
def pageCore? (k : PageKind) (i : Nat) : Option CoreId :=
  match k with
  | .core => coreId? i
  | .te => coreId? i
  | .me => coreId? (i / 2)
  | _ => none

/-- The in-service bit of STATUS (R463). -/
def State.pageServes (s : State) (k : PageKind) (i : Nat) : Bool :=
  match k with
  | .hbm => (s.stack i).inService
  | .fab => decide (2 ≤ (s.port i).st) && decide ((s.port i).st ≤ 4)
  | .dlk => dlkUp (s.dlk i)
  | .llmp => (s.part i).owner.isSome
  | _ =>
    match pageCore? k i with
    | some c => decide ((s.cell c).st = CellState.inService)
    | none => !k.perFn || decide ((s.fn (fnId i)).st ≠ .off)

/-- OWNER (R466). -/
def State.pageOwner (s : State) (k : PageKind) (i : Nat) : Nat :=
  match pageCore? k i with
  | some c => let x := s.cell c; if x.st = .inService then (x.owner.map (·.val)).getD 0x7E else 0x7E
  | none => if k.perFn then i else if k = .llmp then ((s.part i).owner.map (·.val)).getD 0x7E else 0x7F

/-- Is a page filtered for a confidential function: what the management role reads there (Table 15-6)? -/
def State.filtered (s : State) (w : Window) (k : PageKind) (i : Nat) : Bool :=
  match w with
  | .fn _ => false
  | .mgmt =>
    match pageCore? k i with
    | some c => ((s.cell c).owner.map (fun f => (s.fn f).sec.confidential)).getD false
    | none => k.perFn && decide (k ≠ .func) && (s.fn (fnId i)).sec.confidential

/-- Window whose IRQ_STAT a window reads: TLOG has one for each view. -/
def irqWin (w : Window) (k : PageKind) : Nat := if k = .tlog then winNo w else 0

/-- A function's view of BEAT has neither IRQ_STAT nor IRQ_EN (R472). -/
def noIrq (w : Window) (k : PageKind) : Bool := decide (w ≠ .mgmt) && decide (k = .beat)

/-- Header registers. -/
def State.headerReg (s : State) (w : Window) (k : PageKind) (i base r : Nat) : Nat :=
  let own := fun (o : Nat) => s.reg (winNo w) (base + o)
  match r with
  | 0x00 => k.code * 2 ^ 16 + i
  | 0x04 => 0x01A1
  | 0x08 => k.last
  | 0x0C => s.pageOwner k i
  | 0x14 => b2n (s.pageServes k i) + b2n (own 0x20 ≠ 0) * 2 + b2n ((s.reg 0 (base + 0x30)).testBit 0) * 4 + b2n (s.filtered w k i) * 8
  | 0x18 => if noIrq w k then 0 else s.reg (irqWin w k) (base + 0x18)
  | 0x1C => if noIrq w k then 0 else own 0x1C
  | 0x20 => own 0x20
  | 0x24 => own 0x24
  | 0x28 => own 0x28
  | 0x2C => own 0x2C
  | 0x30 => if w = .mgmt then s.reg 0 (base + 0x30) else 0
  | _ => 0

/-! ## Package pages -/

/-- Cores in a state. -/
def State.coresIn (s : State) (st : CellState) : Nat := (allCores.filter (fun c => decide ((s.cell c).st = st))).length

/-- CORE_COUNTS (Table 20-3). -/
def State.coreCounts (s : State) : Nat :=
  s.coresIn .inService + s.coresIn .eligible * 2 ^ 5 + s.coresIn .ineligible * 2 ^ 10 + s.coresIn .quarantined * 2 ^ 15
    + (sumNat (allFns.map (fun f => (s.fn f).unavailable.length)) % 32) * 2 ^ 20

def State.bootState (s : State) : Nat := s.boot.st % 16 + (s.boot.cause % 256) * 2 ^ 4 + (s.boot.source % 16) * 2 ^ 12

def State.faultReg (s : State) : Nat := b2n s.boot.fault + s.boot.faultCode.toNat * 2 ^ 16

/-- PKC page (Tables 19-6a and 20-3); FW_SVN takes its value at READY (R466). -/
def State.pkcReg (s : State) (r : Nat) : Nat :=
  match r with
  | 0x40 => s.bootState
  | 0x4C => 0
  | 0x50 => if s.boot.st = 8 then s.boot.svn % 128 else 0
  | 0x54 => s.boot.timeMs.toNat
  | 0x58 => s.coreCounts
  | 0x60 => s.faultReg
  | 0x64 => 0
  | _ => s.reg 0 (pagePkc + r)

/-- BEAT page (Table 20-4), and a function's view of it (R472). -/
def State.beatReg (s : State) (w : Window) (r : Nat) : Nat :=
  match r with
  | 0x60 => s.beatNow % 2 ^ 32
  | 0x64 => s.beatNow / 2 ^ 32
  | 0x68 => s.beat.lead % 256
  | _ =>
    match w with
    | .fn _ => if 0x100 ≤ r then s.reg (winNo w) (pageBeat + r) else 0
    | .mgmt =>
      match r with
      | 0x6C => b2n s.beat.inDomain + b2n s.isMaster * 2 + b2n s.isBackup * 4 + b2n s.beat.holdover * 8 + (s.beat.period % 16) * 2 ^ 4
      | 0x70 => s.beat.master.toNat + s.beat.backup.toNat * 2 ^ 16
      | 0x74 => s.beat.dist % 256
      | _ => s.reg 0 (pageBeat + r)

/-- Millivolts of a voltage in 0.1 mV: which way a half is rounded the manual does not say (log entry 62). -/
def State.millivolts (s : State) (d v : Nat) : Nat := v / 10 + (if v % 10 = 0 then 0 else Config.freeValue (s.fresh + d) % 2)

/-- Thermal ceiling in four bits, which hold no 16: that value's code is left open (log entry 62). -/
def State.ceilingCode (s : State) (d : Nat) : Nat :=
  let c := (s.die d).thermalCeiling
  if c < 16 then c else Config.freeValue (s.fresh + 4 + d) % 16

/-- VCOREd. -/
def State.vcoreReg (s : State) (d : Nat) : Nat :=
  s.millivolts d (s.die d).vcore % 2 ^ 10 + (s.millivolts d (s.die d).guard % 2 ^ 8) * 2 ^ 10 + s.ceilingCode d * 2 ^ 18

/-- Temperatures of dies from a first one. -/
def State.temps (s : State) (first n : Nat) : Nat := sumNat ((List.range n).map (fun i => (s.die (first + i)).temp.toNat * 2 ^ (8 * i)))

def State.tjIo (s : State) : Nat :=
  s.temps 8 2 + sumNat ((List.range 4).map (fun d => b2n (s.die d).throttling * 2 ^ (16 + d)))

/-- PWR page (Table 16-5). -/
def State.pwrReg (s : State) (r : Nat) : Nat :=
  let p := s.power
  match r with
  | 0x40 => p.cap % 4096
  | 0x44 => s.capEff % 4096
  | 0x48 => ofSigned 12 p.offset
  | 0x4C => 700
  | 0x50 => p.package % 4096
  | 0x54 => b2n p.groupOn + (p.shiftMax / 5 % 256) * 2
  | 0x58 => p.groupJob.toNat
  | 0x60 => s.temps 0 4
  | 0x64 => s.temps 4 4
  | 0x68 => s.tjIo
  | 0x70 => s.vcoreReg 0
  | 0x74 => s.vcoreReg 1
  | 0x78 => s.vcoreReg 2
  | 0x7C => s.vcoreReg 3
  | 0x80 => p.poh % 2 ^ 32
  | 0x88 => b2n ((List.range 4).any (fun d => (s.die d).planRunning)) + b2n p.planMoved * 2 + (p.planPoh % 2 ^ 16) * 2 ^ 16
  | 0x8C => p.planCount % 2 ^ 32
  | 0xA8 => s.store.erased % 1024 + b2n s.store.compacting * 2 ^ 10
  | _ => s.reg 0 (pagePwr + r)

/-- Does a function in confidential mode exist, and is the scan restricted (Table 15-6)? -/
def State.anyConfidential (s : State) : Bool := allFns.any (fun f => decide ((s.fn f).st ≠ .off) && (s.fn f).sec.confidential)

/-- SEC page (Table 15-9). -/
def State.secReg (s : State) (r : Nat) : Nat :=
  let f := fnId (s.reg 0 (pageSec + 0x4C))
  let x := (s.fn f).sec
  match r with
  | 0x40 => b2n s.boot.noIdentity + b2n s.anyConfidential * 2 + b2n s.anyConfidential * 4
  | 0x44 => Config.serial.toNat % 2 ^ 32
  | 0x48 => Config.serial.toNat / 2 ^ 32
  | 0x50 => x.keyGen.toNat
  | 0x54 => b2n x.sweep + (if x.sweep then (s.sweepLeft f).length % 2 ^ 31 * 2 else 0)
  | 0x58 => b2n x.imageKey.isSome + b2n x.stagedKey.isSome * 2 + b2n ((x.session.map (·.opened)).getD false) * 4 + b2n x.confidential * 8
  | 0x60 => (s.link 0).job.toNat
  | 0x64 => (s.link 1).job.toNat
  | 0x68 => (s.link 2).job.toNat
  | 0x6C => (s.link 3).job.toNat
  | _ => s.reg 0 (pageSec + r)

/-- Contexts in a state (Table 20-7). -/
def State.ctxsIn (s : State) (st : Nat) : Nat := (s.ctxs.filter (fun c => decide (cxState c.2 = st))).length

/-- Mortises free in every layer of a frame. -/
def FrameState.mortFree (x : FrameState) : Nat :=
  ((List.range 64).filter (fun m => x.mortises.all (fun h => decide (h.1 % 64 ≠ m)))).length

def FrameState.stateReg (x : FrameState) : Nat :=
  if !x.defined then 0
  else 1 + b2n x.replace.isSome * 2 + b2n (x.digestState = 1) * 4 + b2n (x.digestState = 2) * 8 + frOwner x.record * 2 ^ 4
    + frGen x.record * 2 ^ 16

def FrameState.swapReg (x : FrameState) : Nat :=
  match x.replace with
  | some z => z.swapped % 256 + b2n z.barrier * 2 ^ 8
  | none => 0

/-- CTXT page (Table 20-7, R475). -/
def State.ctxtReg (s : State) (r : Nat) : Nat :=
  let fr := s.frame (s.reg 0 (pageCtxt + 0x58))
  match r with
  | 0x40 => 65536 - (s.ctxsIn 1 + s.ctxsIn 2 + s.ctxsIn 3 + s.ctxsIn 4 + s.ctxsIn 5)
  | 0x44 => s.ctxsIn 1
  | 0x48 => s.ctxsIn 2
  | 0x4C => s.ctxsIn 3
  | 0x50 => s.ctxsIn 4
  | 0x54 => s.ctxsIn 5
  | 0x5C => fr.stateReg
  | 0x60 => fr.swapReg
  | 0x64 => fr.mortFree
  | _ => s.reg 0 (pageCtxt + r)

/-- A CELL entry (Table 20-5). -/
def Cell.word (x : Cell) : Nat :=
  cellCode x.st
    + (match x.owner with
      | some f => f.val * 2 ^ 2 + 2 ^ 8 + (x.logical % 32) * 2 ^ 9
      | none => 0)
    + b2n x.movePending * 2 ^ 14 + b2n x.scrubbing * 2 ^ 15 + min x.hoursSinceTest 0xFFFF * 2 ^ 16

/-- CMAP page. -/
def State.cmapReg (s : State) (r : Nat) : Nat :=
  match coreId? ((r - 0x40) / 4) with
  | some c => (s.cell c).word
  | none => if r = 0xA0 then 0 else s.reg 0 (pageCmap + r)

/-! ## The trouble log's page (R441 to R443, R445) -/

/-- Number of an entry in a view, none where the view does not hold it. -/
def LogEntry.seqIn (e : LogEntry) (w : Window) : Option Nat :=
  match w with
  | .mgmt => some e.seq
  | .fn f => (e.views.find? (fun v => decide (v.1 = f.val))).map (·.2)

/-- OLDEST_SEQ of a view. -/
def State.oldest (s : State) (w : Window) : Nat := ((s.log.filterMap (fun e => e.seqIn w)).head?).getD (s.wrSeq (winNo w))

/-- RD_SEQ of a view as it reads (R442). -/
def State.rdNow (s : State) (w : Window) : Nat := max (s.rdSeq (winNo w)) (s.oldest w)

/-- Logical core of a function for an entry about a physical core: 0x1F for one it no longer owns (R441). -/
def State.logicalOf (s : State) (f : FnId) (c : CoreId) : Nat :=
  let x := s.cell c
  if x.owner = some f then x.logical else 0x1F

/-- INSTANCE as a function's view shows it. -/
def viewInstance (block inst logical : Nat) : Nat :=
  match block with
  | 0x01 => 2 * logical + inst % 2
  | 0x02 => logical
  | 0x04 => logical
  | _ => inst

/-- An entry as a function's view shows it: no physical core number (R441). -/
def State.fnEntry (s : State) (f : FnId) (e : LogEntry) : BitVec 256 :=
  let code := fld e.bits 15 0
  let block := field code 11 6
  if block = 0x05 then withFld e.bits 31 24 0
  else
    match e.core with
    | none => e.bits
    | some c =>
      let l := s.logicalOf f c
      let b := withFld e.bits 31 24 (viewInstance block (fld e.bits 31 24) l)
      if code = 0xA101 ∨ code = 0xA342 then withFld b 223 160 l
      else if code = 0xB3C1 then withFld b 255 224 l
      else b

/-- An entry as the management view shows it: no details of a function in confidential mode (Table 15-6). -/
def State.mgmtEntry (s : State) (e : LogEntry) : BitVec 256 :=
  if !flag e.bits 22 ∧ (s.fn (fnId (fld e.bits 21 16))).sec.confidential then withFld e.bits 255 160 0 else e.bits

def State.entryIn (s : State) (w : Window) (e : LogEntry) : BitVec 256 :=
  match w with
  | .mgmt => s.mgmtEntry e
  | .fn f => s.fnEntry f e

/-- A word of an entry slot; after a failure of the PKC the contents are undefined (R433). -/
def State.entryWord (s : State) (w : Window) (r : Nat) : Nat :=
  let n := s.rdNow w + (r - 0x100) / 32
  if s.boot.pkcFailed then Config.freeValue (s.fresh + r) % 2 ^ 32
  else
    match s.log.find? (fun e => decide (e.seqIn w = some n)) with
    | some e => let b := 32 * ((r - 0x100) / 4 % 8); fld (s.entryIn w e) (b + 31) b
    | none => 0

/-- TLOG page (Table 18-6). -/
def State.tlogReg (s : State) (w : Window) (r : Nat) : Nat :=
  match r with
  | 0x40 => s.wrSeq (winNo w) % 2 ^ 32
  | 0x44 => s.rdNow w % 2 ^ 32
  | 0x48 => s.oldest w % 2 ^ 32
  | 0x4C => if w = .mgmt then s.freeGeneral + s.freeReserved * 2 ^ 16 else 0
  | 0x50 => s.reg 0 (pageTlog + 0x50)
  | _ => if 0x100 ≤ r then s.entryWord w r else s.reg (winNo w) (pageTlog + r)

/-! ## Pages of the blocks (Tables 20-6, 20-7, 9-6, 11-10, 17-7) -/

/-- ISSUE (R379). -/
def State.issueReg (s : State) (c : CoreId) : Nat :=
  let x := s.cell c
  let ramp := (x.owner.map (fun f => (s.fn f).ramp)).getD 16
  let floor := (x.owner.map (fun f => (s.fn f).floor)).getD 0
  x.level % 32 + (x.target % 32) * 2 ^ 5 + (x.capCeiling % 32) * 2 ^ 10 + (x.thermal % 32) * 2 ^ 15 + (ramp % 32) * 2 ^ 20 + (floor % 32) * 2 ^ 25

/-- Operations at a core's CCU. -/
def State.atCcu (s : State) (c : CoreId) : Nat :=
  (s.ops.filter (fun o => (o.flying || decide (o.stage = .held)) && decide (hdClass o.desc ≤ 2) && decide (s.coreOf o = some c))).length

def State.coreReg (s : State) (c : CoreId) (r : Nat) : Nat :=
  let x := s.cell c
  match r with
  | 0x40 => s.issueReg c
  | 0x48 => x.temp0.toNat + x.temp1.toNat * 2 ^ 8
  | 0x4C => x.vReq % 1024
  | 0x50 => ofSigned 16 x.drift
  | 0x54 => x.leakage.toNat
  | 0x58 => s.atCcu c % 2 ^ 14
  | _ => s.reg 0 (pageCore c.val + r)

/-- Block bit and pairing of a bank. -/
def Bank.word : Bank → Nat
  | .empty => 0
  | .block p _ _ _ _ _ _ => 1 + (p % 4) * 2

/-- Slots of an engine in a state, one bit each. -/
def Me.slotMask (m : Me) (st : SlotState) : Nat := sumNat (m.slots.map (fun x => if x.2.st = st then 2 ^ x.1 else 0))

/-- Is an operation staged: handed to the engine, no vector of it entered (R111)? -/
def State.anyStaged (s : State) (i : Nat) : Bool := (s.me i).passes.any (fun p => decide (p.seg = 0) && decide (p.left = p.total))

def State.meReg (s : State) (i r : Nat) : Nat :=
  let m := s.me i
  match r with
  | 0x40 => m.bank0.word + m.bank1.word * 2 ^ 3 + (s.inProgress i % 16) * 2 ^ 6 + b2n (s.anyStaged i) * 2 ^ 10
  | 0x44 => m.slotMask .opened
  | 0x48 => m.slotMask .closing
  | _ => s.reg 0 (pageMe i + r)

/-- Operations in flight at a tenon engine. -/
def State.atTe (s : State) (c : Nat) : Nat :=
  (s.ops.filter (fun o => o.flying && decide (hdClass o.desc = 2) && decide ((s.coreOf o).map (·.val) = some c))).length

def State.teReg (s : State) (c r : Nat) : Nat :=
  let t := s.te c
  match r with
  | 0x40 => b2n t.bank0.isSome + b2n t.bank1.isSome * 2 + (s.atTe c % 16) * 2 ^ 2 + b2n t.singleRow * 2 ^ 6
  | _ => s.reg 0 (pageTe c + r)

def State.hbmReg (s : State) (st r : Nat) : Nat :=
  let x := s.stack st
  match r with
  | 0x40 => x.rate.toNat + b2n x.inService * 2 ^ 2 + (x.spared % 128) * 2 ^ 3
  | 0x44 => x.temp.toNat + (x.refresh % 4) * 2 ^ 8
  | 0x58 => x.pool1Used
  | 0x5C => x.fullBanks
  | 0x60 => x.pool2Used
  | 0x64 => ((s.stackPages st).filter (fun e => decide (pgTier e.2 = 3))).length
  | _ => s.reg 0 (pageHbm st + r)

def State.fabReg (s : State) (p r : Nat) : Nat :=
  let x := s.port p
  match r with
  | 0x44 => x.st % 8 + (x.width % 4) * 2 ^ 3 + (x.mismatch % 8) * 2 ^ 5 + b2n (s.inForce p) * 2 ^ 8
  | 0x48 => heChip x.hello + hePort x.hello * 2 ^ 16
  | 0x4C => hePos x.hello
  | 0x50 => x.delay % 2 ^ 24
  | _ => s.reg 0 (pageFab p + r)

def State.dlkReg (s : State) (n r : Nat) : Nat :=
  match r with
  | 0x40 => s.dlk n % 4
  | 0x5C => s.ops.length % 2 ^ 15
  | _ => s.reg 0 (pageDlk n + r)

/-- PART_STATE. -/
def State.partState (s : State) (p : Nat) : Nat :=
  let x := s.part p
  match x.owner with
  | none => 7
  | some f =>
    let held := (s.deviceHeld f).any (fun r => overlaps r.1 r.2 (llmAddr p 0) (2 ^ 25))
    x.mode % 8 + (match (s.fn f).windowSlot? p with
      | some j => 2 ^ 3 + (j % 8) * 2 ^ 4
      | none => 0) + b2n held * 2 ^ 7

def State.llmpReg (s : State) (p r : Nat) : Nat := if r = 0x40 then s.partState p else s.reg 0 (pageLlmp p + r)

/-! ## Pages of a function (Tables 14-6, 7-2, 8-9, 12-10, 13-6) -/

def fnStCode : FnState → Nat
  | .off => 0
  | .running => 1
  | .draining => 2
  | .aborting => 3
  | .freezing => 4
  | .frozen => 5
  | .scrubbing => 6

/-- SCRUB_LEFT in 64 KiB units: pages, partitions, scratchpads, and context descriptors rounded up. -/
def State.scrubLeft (s : State) (f : FnId) : Nat :=
  let x := s.fn f
  let pages := (s.dir.filter (fun e => decide (pgOwner e.2 = f.val) && (decide (pgMove e.2 = 2) || s.scrubs.contains e.1))).length
  let parts := ((List.range 64).filter (fun p => decide ((s.part p).owner = some f) && (s.part p).scrubbing)).length
  let cores := (allCores.filter (fun c => decide ((s.cell c).owner = some f) && (s.cell c).scrubbing)).length
  let ctxs := (s.ctxs.filter (fun c => decide (x.ctxFirst ≤ c.1) && decide (c.1 < x.ctxFirst + x.ctxCount) && decide (cxState c.2 = 5))).length
  pages + 512 * parts + 256 * cores + (ctxs * 128 + 65535) / 65536

/-- FUNC page from 0x080 on: shares and granules. -/
def Fn.shareReg (x : Fn) (r : Nat) : Nat :=
  if r < 0xE0 then x.hbmShare ((r - 0x80) / 4)
  else if r < 0x110 then x.fabShare ((r - 0xE0) / 4) + x.channels ((r - 0xE0) / 4) * 2 ^ 8
  else if r < 0x140 then 0
  else x.granules ((r - 0x140) / 8) / 2 ^ (32 * ((r - 0x140) / 4 % 2)) % 2 ^ 32

def State.funcReg (s : State) (f : FnId) (r : Nat) : Nat :=
  let x := s.fn f
  match r with
  | 0x40 => fnStCode x.st + b2n x.quiet * 2 ^ 3
  | 0x44 => x.cores + (x.unavailable.length % 32) * 2 ^ 5
  | 0x48 => x.ctxFirst
  | 0x4C => x.queueFirst + x.queueCount * 2 ^ 10
  | 0x50 => x.llmShare
  | 0x54 => x.dlkShare
  | 0x58 => x.powerShare
  | 0x5C => (match x.resize with
    | some z => z.tag.toNat + 2 ^ 16
    | none => 0)
  | 0x60 => ((s.opsOf f).filter (fun o => o.flying)).length
  | 0x64 => s.scrubLeft f
  | 0x70 => x.ctxCount
  | _ => if 0x80 ≤ r then x.shareReg r else s.reg 0 (pageFunc f.val + r)

/-- Entries of the watch table. -/
def State.watchEntries (s : State) (f : FnId) : List (BitVec 1024) :=
  match (s.fn f).watch with
  | none => []
  | some (part, off, n) => (List.range n).map (fun id => s.watchRead (llmAddr part off + 128 * id))

def State.hlthReg (s : State) (f : FnId) (r : Nat) : Nat :=
  let w := (s.fn f).watch.getD (0, 0, 0)
  match r with
  | 0x40 => w.1 % 64 + (w.2.2 % 2 ^ 13) * 2 ^ 6
  | 0x44 => w.2.1 % 2 ^ 25
  | 0x58 => ((s.watchEntries f).filter (fun e => decide (weHistN e = 0) || decide (0 < weBootLeft e))).length
  | _ => s.reg 0 (pageHlth f.val + r)

/-- Partitions a function owns, as a mask. -/
def State.ownedParts (s : State) (f : FnId) : Nat :=
  sumNat ((List.range 64).map (fun p => if (s.part p).owner = some f ∧ !(s.part p).scrubbing then 2 ^ p else 0))

def State.memfReg (s : State) (f : FnId) (r : Nat) : Nat :=
  let x := s.fn f
  match r with
  | 0x40 => x.window.length % 16
  | 0x44 => sumNat (x.window.zipIdx.map (fun v => (v.1.st % 4) * 4 ^ v.2)) % 2 ^ 32
  | 0xC4 => s.compCharge f
  | 0xC8 => s.ownedParts f % 2 ^ 32
  | 0xCC => s.ownedParts f / 2 ^ 32
  | _ => if 0x100 ≤ r then s.hbmCharge f ((r - 0x100) / 4) else s.reg 0 (pageMemf f.val + r)

def State.jobfReg (s : State) (f : FnId) (r : Nat) : Nat :=
  let j := (s.fn f).job
  match r with
  | 0x40 => j.st % 4
  | 0x44 => jmJobId j.map
  | 0x58 => (match j.scarf with
    | some z => z.round % 256 + 2 ^ 8
    | none => 0)
  | 0x5C => j.ckptStep.toNat % 2 ^ 32
  | 0x60 => j.ckptStep.toNat / 2 ^ 32
  | _ => s.reg 0 (pageJobf f.val + r)

def State.stepfReg (s : State) (f : FnId) (r : Nat) : Nat :=
  let x := (s.fn f).step
  match r with
  | 0x40 => x.step.toNat % 2 ^ 32
  | 0x44 => x.step.toNat / 2 ^ 32
  | 0x48 => b2n x.epoch + b2n x.fail * 2 + b2n x.sent * 4 + (x.aborts % 256) * 2 ^ 3 + (x.lastCause % 256) * 2 ^ 11
  | 0x70 => x.pairs.length % 128
  | _ => s.reg 0 (pageStepf f.val + r)

/-! ## One register -/

/-- A block register of a page. -/
def State.blockReg (s : State) (w : Window) (k : PageKind) (i r : Nat) : Nat :=
  match k with
  | .pkc => s.pkcReg r
  | .beat => s.beatReg w r
  | .pwr => s.pwrReg r
  | .sec => s.secReg r
  | .tlog => s.tlogReg w r
  | .ctxt => s.ctxtReg r
  | .cmap => s.cmapReg r
  | .core => (match coreId? i with
    | some c => s.coreReg c r
    | none => 0)
  | .me => s.meReg i r
  | .te => s.teReg i r
  | .hbm => s.hbmReg i r
  | .fab => s.fabReg i r
  | .dlk => s.dlkReg i r
  | .llmp => s.llmpReg i r
  | .func => s.funcReg (fnId i) r
  | .hlth => s.hlthReg (fnId i) r
  | .memf => s.memfReg (fnId i) r
  | .jobf => s.jobfReg (fnId i) r
  | .stepf => s.stepfReg (fnId i) r

/-- Does the filter hide a register: every block register of a function's pages, the counters of its cores' pages (Table 15-6)? -/
def State.hidden (s : State) (w : Window) (k : PageKind) (i r : Nat) : Bool :=
  s.filtered w k i && decide (0x40 ≤ r) && (k.perFn || decide (r ∈ k.rc))

/-- The value a window reads at an offset; 0 where no page answers (R458). -/
def State.readReg (s : State) (w : Window) (off : Nat) : Nat :=
  match s.pageAt? w off with
  | none => 0
  | some (k, i) =>
    let r := regOff off
    if r < 0x40 then s.headerReg w k i (pageBase off) r
    else if s.hidden w k i r then 0
    else s.blockReg w k i r

end Sys2Proof.Machine
end

