-- ==== Sys2Proof/Machine/Registers.lean ====
section
/-! DEFINITION. Reads and writes of the register pages (R9, R458 to R473) with the actions that writes start, the SMBus commands
(R484, R485) and the test access port (R486). -/

namespace Sys2Proof.Machine

/-! ## Reads (R9, R460) -/

/-- Window whose copy of a counter a read clears: BEAT and TLOG keep one for each view. -/
def counterWin (w : Window) (k : PageKind) : Nat := if k = .tlog ∨ k = .beat then winNo w else 0

/-- Clear an RC register after its read, where the filter did not hide it. -/
def State.clearRc (s : State) (w : Window) (off : Nat) : State :=
  match s.pageAt? w off with
  | none => s
  | some (k, i) =>
    let r := regOff off
    if r ∈ k.rc ∧ !s.hidden w k i r ∧ !(noIrq w k && decide (r < 0x100)) then s.setReg (counterWin w k) (pageBase off + r) 0 else s

/-- Snapshots of one page in one window go with any read there; the low word of a pair takes one of the high word. -/
def State.snap (s : State) (w : Window) (off : Nat) : State :=
  let n := winNo w
  let base := pageBase off
  let r := regOff off
  let rest := s.snapshots.filter (fun x => !(decide (x.1 = n) && decide (x.2.1 = base)))
  match s.pageAt? w off with
  | some (k, _) =>
    if isLow k r then { s with snapshots := rest ++ [(n, base, r + 4, BitVec.ofNat 32 (s.readReg w (base + r + 4)))] }
    else { s with snapshots := rest }
  | none => s

/-- What a 32-bit read returns: the snapshot of a high word where one stands. -/
def State.readValue (s : State) (w : Window) (off : Nat) : Word :=
  match s.snapshots.find? (fun x => decide (x.1 = winNo w) && decide (x.2.1 = pageBase off) && decide (x.2.2.1 = regOff off)) with
  | some x => x.2.2.2
  | none => BitVec.ofNat 32 (s.readReg w off)

/-- A 32-bit read of a register. -/
def State.read32 (s : State) (w : Window) (off : Nat) : State :=
  let v := s.readValue w off
  { (s.snap w off).clearRc w off with rdData := v, fresh := s.fresh + 4096 }

def execRcRead (w : Window) (off : BitVec 26) (s : State) : Host.Outcome State Fault Refusal := .next (s.read32 w off.toNat)

def execLowWordRead (w : Window) (off : BitVec 26) (s : State) : Host.Outcome State Fault Refusal := .next (s.read32 w off.toNat)

/-! ## Refused accesses (R464, R465) -/

/-- Record a refused access of a window against the page at an offset. -/
def State.refuseAccess (s : State) (w : Window) (off code : Nat) : State :=
  match w with
  | .mgmt => s.pageError (pageBase off) code none true
  | .fn f => s.pageError (pageBase off) code (some f) false

/-- A write that the page's rules ignore. -/
def State.ignoreWrite (s : State) (w : Window) (off : Nat) : State := s.refuseAccess w off 0xFFFF

def State.locked (s : State) (off : Nat) : Bool := (s.reg 0 (pageBase off + 0x30)).testBit 0

/-- A write of an RW register: nothing where no page answers, an error where the page is locked. -/
def State.rwWrite (s : State) (w : Window) (off : Nat) (go : State → State) : State :=
  if (s.pageAt? w off).isNone then s
  else if s.locked off then s.refuseAccess w off 0xFFFD
  else go s

/-- A write of a register that LOCK does not bar. -/
def State.actWrite (s : State) (w : Window) (off : Nat) (go : State → State) : State :=
  if (s.pageAt? w off).isNone then s else go s

/-! ## Header writes (R464, R465, R467) -/

/-- ERR_CLEAR: the errors as the window sees them (log entry 63). -/
def State.clearErrors (s : State) (w : Window) (off : Nat) : State :=
  [0x20, 0x24, 0x28, 0x2C].foldl (fun (s : State) o => s.setReg (winNo w) (pageBase off + o) 0) s

/-- W1C of IRQ_STAT, for every window that shares it. -/
def State.clearIrq (s : State) (w : Window) (off v : Nat) : State :=
  match s.pageAt? w off with
  | none => s
  | some (k, _) =>
    let old := s.reg (irqWin w k) (pageBase off + 0x18)
    if noIrq w k then s else s.setReg (irqWin w k) (pageBase off + 0x18) (old - (old &&& v))

/-- W1S of LOCK, from the management window. -/
def State.setLock (s : State) (w : Window) (off v : Nat) : State :=
  if w = .mgmt ∧ v.testBit 0 then s.setReg 0 (pageBase off + 0x30) 1 else s

def execErrClear (w : Window) (off : BitVec 26) (s : State) : Host.Outcome State Fault Refusal :=
  .next (s.actWrite w off.toNat (fun s => s.clearErrors w off.toNat))

def execIrqStatWrite (w : Window) (off : BitVec 26) (v : Word) (s : State) : Host.Outcome State Fault Refusal :=
  .next (s.actWrite w off.toNat (fun s => s.clearIrq w off.toNat v.toNat))

def execLock (w : Window) (off : BitVec 26) (v : Word) (s : State) : Host.Outcome State Fault Refusal :=
  .next (s.actWrite w off.toNat (fun s => s.setLock w off.toNat v.toNat))

/-! ## PKC page (R469, R470) -/

/-- The record that MQ_RECORD spells. -/
def State.mqRecord (s : State) : BitVec 512 :=
  BitVec.ofNat 512 (sumNat ((List.range 16).map (fun n => s.reg 0 (pagePkc + 0x80 + 4 * n) * 2 ^ (32 * n))))

/-- APPLY: MQ_RESULT is done, with refused and the cause where the record fails (log entry 64). -/
def State.applyQueue (s : State) : State :=
  let r := s.mqRecord
  if s.queueBad r || !qrMgmt r then s.setReg 0 (pagePkc + 0x68) (3 + 0xC3 * 4)
  else (s.takeQueue r).setReg 0 (pagePkc + 0x68) 1

def execApply (s : State) : Host.Outcome State Fault Refusal := .next (s.actWrite .mgmt (pagePkc + 0x64) State.applyQueue)

/-- Does a function of the package belong to a job? -/
def State.inJob (s : State) : Bool := allFns.any (fun f => let j := (s.fn f).job; decide (j.st ≠ 0) || j.pendingMap.isSome)

def State.writeChipId (s : State) (v : Nat) : State :=
  if s.inJob then s.ignoreWrite .mgmt (pagePkc + 0x5C)
  else ((s.setReg 0 (pagePkc + 0x5C) (v % 2 ^ 16)).elect).sendHellos

def execChipIdWrite (v : Word) (s : State) : Host.Outcome State Fault Refusal :=
  .next (s.rwWrite .mgmt (pagePkc + 0x5C) (fun s => s.writeChipId v.toNat))

/-! ## CMAP page (R473) -/

def State.orderFromPage (s : State) (v : Nat) : State :=
  if !v.testBit 8 then s
  else match coreId? (v % 32) with
    | none => s.ignoreWrite .mgmt (pageCmap + 0xA0)
    | some c => if (s.cell c).st = CellState.quarantined then s.ignoreWrite .mgmt (pageCmap + 0xA0) else s.orderQuarantine c 3

def execCmapOrder (v : Word) (s : State) : Host.Outcome State Fault Refusal :=
  .next (s.actWrite .mgmt (pageCmap + 0xA0) (fun s => s.orderFromPage v.toNat))

/-! ## BEAT page (R34, R35, R40, R61, R471) -/

/-- BEAT_CFG: PERIOD outside 2 to 9 and SOURCE 3 are ignored; a change of either while a plan or class is held is refused. -/
def State.writeBeatCfg (s : State) (v : Nat) : State :=
  let old := s.reg 0 (pageBeat + 0x40)
  let changes := decide (v % 16 ≠ old % 16) || decide (v / 16 % 4 ≠ old / 16 % 4)
  if v % 16 < 2 ∨ 9 < v % 16 ∨ v / 16 % 4 = 3 ∨ (changes ∧ s.planHeld) then s.ignoreWrite .mgmt (pageBeat + 0x40)
  else (((s.setReg 0 (pageBeat + 0x40) (v % 256)).modBeat (fun b => { b with period := v % 16, fallback := false })).elect).helloIfChanged s

def execBeatCfgWrite (v : Word) (s : State) : Host.Outcome State Fault Refusal :=
  .next (s.rwWrite .mgmt (pageBeat + 0x40) (fun s => s.writeBeatCfg v.toNat))

/-- A 64-bit RW pair takes effect as its high word is written: the low word waits in a place of its own, window number 65, with a mark
in 66 (R460). -/
def State.stageLow (s : State) (off v : Nat) : State := (s.setReg 65 off v).setReg 66 off 1

def State.stagedLow (s : State) (off : Nat) : Nat := if s.reg 66 off = 1 then s.reg 65 off else s.reg 0 off

/-- Write a pair whole. -/
def State.setPair (s : State) (lowOff low high : Nat) : State :=
  (((s.setReg 0 lowOff low).setReg 0 (lowOff + 4) high).setReg 65 lowOff 0).setReg 66 lowOff 0

/-- EPOCH_EDGE: two edges ahead or more, on a package without a partner; the low word is the one that was written. -/
def State.armEpoch (s : State) (high : Nat) : State :=
  let low := s.stagedLow (pageBeat + 0x58)
  let edge := low + high * 2 ^ 32
  let number := s.reg 0 (pageBeat + 0x50) + s.reg 0 (pageBeat + 0x54) * 2 ^ 32
  if edge < s.beatNow + 2 ∨ s.hasPartner then s.ignoreWrite .mgmt (pageBeat + 0x5C)
  else
    let at1 := if s.beat.epochSet then edge else edge - 2 ^ 63
    (s.setPair (pageBeat + 0x58) low high).modBeat (fun b => { b with armed := some (at1, BitVec.ofNat 64 number) })

def execEpochEdgeWrite (v : Word) (s : State) : Host.Outcome State Fault Refusal :=
  .next (s.rwWrite .mgmt (pageBeat + 0x5C) (fun s => s.armEpoch v.toNat))

def State.writeMasterId (s : State) (v : Nat) : State := ((s.setReg 0 (pageBeat + 0x48) v).elect).helloIfChanged s

def State.writeHoldLimit (s : State) (v : Nat) : State :=
  if 4096 < v % 8192 then s.ignoreWrite .mgmt (pageBeat + 0x4C) else s.setReg 0 (pageBeat + 0x4C) (v % 8192)

/-! ## PWR, HBM and FAB pages (R240, R259, R275, R379, R400) -/

/-- PLAN_CTRL: OUTLIER is kept, and bit 0 starts a plan of every die. -/
def State.writePlanCtrl (s : State) (v : Nat) : State :=
  let s := s.setReg 0 (pagePwr + 0x84) (v &&& 2)
  if v.testBit 0 then [0, 1, 2, 3].foldl (fun (s : State) d => s.startPlan d) s else s

def execPlanCtrlStart (v : Word) (s : State) : Host.Outcome State Fault Refusal :=
  .next (s.rwWrite .mgmt (pagePwr + 0x84) (fun s => s.writePlanCtrl v.toNat))

def State.writeGovCfg (s : State) (v : Nat) : State :=
  if 4 < v % 8 then s.ignoreWrite .mgmt (pagePwr + 0x5C) else s.setReg 0 (pagePwr + 0x5C) (v % 8)

def execGovCfgWrite (v : Word) (s : State) : Host.Outcome State Fault Refusal :=
  .next (s.rwWrite .mgmt (pagePwr + 0x5C) (fun s => s.writeGovCfg v.toNat))

/-- The lane group of MARGIN_CTRL. -/
def State.writeMarginCtrl (s : State) (st v : Nat) : State := s.setReg 0 (pageHbm st + 0x70) (v &&& 0x7E)

/-- A sweep that MARGIN_CTRL starts: refused where the operation would be; the stack trains again at its rate. -/
def State.sweepFromPage (s : State) (st v : Nat) (width height : Byte) : State :=
  if !v.testBit 0 then s.writeMarginCtrl st v
  else if s.stackClaimed st ∨ s.stackConfidential st then s.ignoreWrite .mgmt (pageHbm st + 0x70)
  else ((s.writeMarginCtrl st v).sweepResult st width height).trained st (s.stack st).rate (s.stack st).spared

def execMarginCtrlStart (stack : StackId) (v : Word) (width height : Byte) (s : State) : Host.Outcome State Fault Refusal :=
  .next (s.rwWrite .mgmt (pageHbm stack.val + 0x70) (fun s => s.sweepFromPage stack.val v.toNat width height))

/-- Axis, direction and enable of a port, only while no job uses it. A port that is disabled goes down. -/
def State.writePortCfg (s : State) (p v : Nat) : State :=
  let old := s.portCfg p
  let new := v &&& 0x2F
  if new = old then s
  else if s.usedPort p then s.ignoreWrite .mgmt (pageFab p + 0x40)
  else
    let t := s.setReg 0 (pageFab p + 0x40) new
    let t := if !new.testBit 5 ∧ (s.port p).st ≠ 0 then
        let t := t.dropLink p
        t.setPort p { t.port p with st := 0 }
      else t
    t.sendHellos

/-- Retrain: the port drops its link, where it has one, and trains. -/
def State.retrainPort (s : State) (p : Nat) : State :=
  if !s.portEnabled p ∨ !s.portClock p then s
  else if 2 ≤ (s.port p).st then s.dropLink p
  else s.setPort p { s.port p with st := 1 }

def execPortRetrain (port : PortId) (v : Word) (s : State) : Host.Outcome State Fault Refusal :=
  .next (s.rwWrite .mgmt (pageFab port.val + 0x40) (fun s =>
    let s := s.writePortCfg port.val v.toNat
    if v.toNat.testBit 4 then s.retrainPort port.val else s))

/-! ## RD_SEQ (R442, R443) -/

/-- Entries that leave the log count as lost in every function view that has not read them. -/
def State.dropEntry (s : State) (e : LogEntry) : State :=
  e.views.foldl (fun (s : State) v =>
    if s.rdSeq (v.1 + 1) ≤ v.2 then (s.addReg (v.1 + 1) (pageTlog + 0x80 + 4 * (fld e.bits 15 12)) 1).raiseLog (v.1 + 1) 1 else s) s

/-- A write of RD_SEQ, clamped; the management view's frees the entries it passes. -/
def State.writeRdSeq (s : State) (w : Window) (v : Nat) : State :=
  let n := min (max v (s.oldest w)) (s.wrSeq (winNo w))
  let s := s.setReg (winNo w) (pageTlog + 0x44) n
  if w ≠ .mgmt then s
  else
    let gone := s.log.filter (fun e => decide (e.seq < n))
    let s : State := gone.foldl (fun s e => s.dropEntry e) s
    { s with log := s.log.filter (fun e => !decide (e.seq < n)) }

def execRdSeqWrite (w : Window) (v : Word) (s : State) : Host.Outcome State Fault Refusal :=
  .next (s.rwWrite w (pageTlog + 0x44) (fun s => s.writeRdSeq w v.toNat))

/-! ## Any register (R459) -/

/-- A block register written from the management window: the registers with actions, pairs, and those that only hold bits. -/
def State.writeBlock (s : State) (k : PageKind) (i off v : Nat) : State :=
  let r := regOff off
  match k, r with
  | .pkc, 0x5C => s.writeChipId v
  | .pkc, 0x48 => s.setPair 0x44 (s.stagedLow 0x44) (v % 2 ^ 11)
  | .beat, 0x40 => s.writeBeatCfg v
  | .beat, 0x48 => s.writeMasterId v
  | .beat, 0x4C => s.writeHoldLimit v
  | .beat, 0x54 => s.setPair (pageBeat + 0x50) (s.stagedLow (pageBeat + 0x50)) v
  | .beat, 0x5C => s.armEpoch v
  | .pwr, 0x5C => s.writeGovCfg v
  | .pwr, 0x84 => s.writePlanCtrl v
  | .fab, 0x40 => let s := s.writePortCfg i v; if v.testBit 4 then s.retrainPort i else s
  | .tlog, 0x44 => s.writeRdSeq .mgmt v
  | _, _ =>
    if r ∈ k.lows then s.stageLow (pageBase off + r) v
    else match k.rw.find? (fun x => decide (x.1 = r)) with
      | some x => s.setReg 0 (pageBase off + r) (v &&& x.2)
      | none => s

/-- An RW register from any window. -/
def State.writeRw (s : State) (w : Window) (k : PageKind) (i off v : Nat) : State :=
  if regOff off = 0x1C then s.setReg (winNo w) (pageBase off + 0x1C) v
  else match w with
    | .mgmt => s.writeBlock k i off v
    | .fn f => s.writeRdSeq (.fn f) v

/-- WO, W1C and W1S registers; GO, WARM and the start of a sweep have commands of their own, which carry what they meet. -/
def State.writeAction (s : State) (w : Window) (k : PageKind) (off v : Nat) : State :=
  match k, regOff off with
  | _, 0x10 => if v.testBit 0 then s.clearErrors w off else s
  | _, 0x18 => s.clearIrq w off v
  | _, 0x30 => s.setLock w off v
  | .pkc, 0x64 => if v.testBit 0 then s.applyQueue else s
  | .cmap, 0xA0 => s.orderFromPage v
  | _, _ => s

/-- A 32-bit write. -/
def State.write32 (s : State) (w : Window) (off v : Nat) : State :=
  match s.pageAt? w off with
  | none => s
  | some (k, i) =>
    if isRw w k (regOff off) then s.rwWrite w off (fun s => s.writeRw w k i off v) else s.writeAction w k off v

/-- REGISTER_WRITE: 64 bits are two writes, low address first; 8 and 16 bits are refused. -/
def execRegisterWrite (w : Window) (off : BitVec 26) (bytes : Nat) (v : BitVec 64) (s : State) : Host.Outcome State Fault Refusal :=
  let o := off.toNat
  if bytes = 4 then .next (s.write32 w o (v.toNat % 2 ^ 32))
  else if bytes = 8 then .next ((s.write32 w o (v.toNat % 2 ^ 32)).write32 w (o + 4) (v.toNat / 2 ^ 32))
  else .next (s.actWrite w o (fun s => s.refuseAccess w o 0xFFFE))

/-! ## SMBus (R484, R485) -/

/-- Seven-bit address of the SMBus target. -/
def State.smbAddress (s : State) : Nat := 0x60 + s.boot.straps.toNat

/-- Words of an answer. -/
def words (vs : List Nat) : List Byte := vs.flatMap (leBytes 4)

/-- An answer: zeros before READY, but for GET_STATE; the failure's event code once the PKC has failed. -/
def State.answer (s : State) (always : Bool) (bs : List Byte) : State :=
  if !s.boot.powered then s
  else if s.boot.pkcFailed then { s with smbData := leBytes 2 0x73C1 }
  else if always || decide (s.boot.st = 8) then { s with smbData := bs, fresh := s.fresh + 8 }
  else { s with smbData := List.replicate bs.length 0 }

def execGetState (s : State) : Host.Outcome State Fault Refusal :=
  .next (s.answer true (words [s.bootState, s.faultReg, s.coreCounts]))

def execGetThermal (s : State) : Host.Outcome State Fault Refusal :=
  .next (s.answer false (words [s.temps 0 4, s.temps 4 4, s.tjIo] ++ (List.range 24).map (fun i => (s.stack i).temp)))

def execGetPower (s : State) : Host.Outcome State Fault Refusal :=
  .next (s.answer false (words ([s.power.package % 4096, s.capEff % 4096] ++ (List.range 4).map s.vcoreReg)))

/-- The newest eight entries of classes 0x6 to 0x8, as the management view shows them, in log order; eight whole entries. -/
def State.severe (s : State) : List Byte :=
  let es := s.log.filter (fun e => let c := fld e.bits 15 12; decide (6 ≤ c) && decide (c ≤ 8))
  let bs := (es.drop (es.length - 8)).flatMap (fun e => leBytes 32 (s.mgmtEntry e).toNat)
  bs ++ List.replicate (256 - bs.length) 0

def execGetEvents (s : State) : Host.Outcome State Fault Refusal := .next (s.answer false s.severe)

/-- MCTP control messages: set and get endpoint id, version support, message type support, in the formats of DSP0236 (log entry 65).
PRESUMED. -/
def State.mctpAnswer (s : State) (command eid : Byte) : State :=
  match command.toNat with
  | 0x01 => { s with boot := { s.boot with eid := eid } }.answer true [0, 0, eid, 0]
  | 0x02 => s.answer true [0, s.boot.eid, 0, 0]
  | 0x04 => let (v, s) := s.draw; s.answer true ([0, 1] ++ leBytes 4 v)
  | 0x05 => s.answer true [0, 1, 0x7F]
  | _ => s.answer true [0x05]

def execMctpControl (command : Byte) (eid : Byte) (s : State) : Host.Outcome State Fault Refusal :=
  if s.boot.powered then .next (s.mctpAnswer command eid) else .next s

/-! ## ALERT_N, THERM_N and the test access port (R486, R487) -/

/-- ALERT_N is asserted. -/
def State.alert (s : State) : Bool :=
  s.boot.powered && (s.anyThrottle || (List.range 24).any (fun i => decide ((s.stack i).refresh = 3)) || s.raiseUnacked || s.boot.fault
    || s.boot.pkcFailed)

/-- The instruction register takes a code; the scan reads the register it selects. -/
def State.tap (s : State) (ir : Nat) (data : BitVec 64) : State := { s with boot := { s.boot with tapIr := ir }, scanData := data }

def execBypass (s : State) : Host.Outcome State Fault Refusal := if s.boot.powered then .next (s.tap 1 0) else .next s

def execIdcode (s : State) : Host.Outcome State Fault Refusal := if s.boot.powered then .next (s.tap 0 0x1B7A1DCB) else .next s

/-- SAMPLE/PRELOAD: the boundary register takes the scan; what the contacts sample is left open (log entry 65). It is refused where
confidential mode leaves only BYPASS, IDCODE and EXTEST (Table 15-6), and then acts as BYPASS. -/
def execSamplePreload (boundary : BitVec 64) (s : State) : Host.Outcome State Fault Refusal :=
  if !s.boot.powered then .next s
  else if s.anyConfidential then .next (s.tap 1 0)
  else
    let (v, s) := s.draw
    .next ({ s with boot := { s.boot with boundary := boundary } }.tap 2 (BitVec.ofNat 64 v))

/-- EXTEST: the contacts follow the boundary register, and pulses of CAD_IN count as missing. -/
def execExtest (s : State) : Host.Outcome State Fault Refusal :=
  if s.boot.powered then .next (s.tap 3 s.boot.boundary) else .next s

end Sys2Proof.Machine
end

