-- ==== Sys2Proof/Machine/Retire.lean ====
section
/-! DEFINITION. Retirement of an operation whose results are stored (R19): its holds for open slots (R124), the pages and the
window slot of a move (R213, R217), its completion record (R425), and the vote of a step's first failure (R322). -/

namespace Sys2Proof.Machine

/-- Source ranges that go on being held for slots the operation added to that have not closed. -/
def State.keepHolds (s : State) (o : Op) : State :=
  if o.added.isEmpty || o.holds.isEmpty then s
  else
    let init := match s.coreOf o with
      | some c => if hdClass o.desc = 0 then mxInit c.val o.desc else (0, 0)
      | none => (0, 0)
    { s with heldOps := s.heldOps ++ [{ fn := o.fn, ranges := o.holds, added := o.added, init := init }] }

/-- The completion of a stored operation: as it was found to end; a fault fails the step. -/
def State.retire (s : State) (o : Op) : State :=
  let s := (s.keepHolds o).endMove o
  let s := if o.status = 1 then s.fail o o.cause o.detail else s.complete o o.status o.cause o.count o.detail
  s.finishUnshares

/-- OPERATION_RETIRE: the oldest operation of that id whose results are stored completes. -/
def execOperationRetire (q : QueueId) (opId : BitVec 16) (s : State) : Host.Outcome State Fault Refusal :=
  match s.ops.find? (fun o => o.named q opId && decide (o.stage = .stored)) with
  | none => .next s
  | some o => .next (s.retire o)

end Sys2Proof.Machine
end

