-- ==== Sys2Proof/Machine/Dispatch.lean ====
section
/-! DEFINITION. One arm for each command: a direct call of its meaning. -/

namespace Sys2Proof.Machine

def exec (i : Instr) (s : State) : Host.Outcome State Fault Refusal :=
  match i with
  | .convert q d parity => Sys2Proof.Machine.execConvert q d parity s
  | .add q d parity => Sys2Proof.Machine.execAdd q d parity s
  | .sub q d parity => Sys2Proof.Machine.execSub q d parity s
  | .mul q d parity => Sys2Proof.Machine.execMul q d parity s
  | .vectorMax q d parity => Sys2Proof.Machine.execVectorMax q d parity s
  | .vectorMin q d parity => Sys2Proof.Machine.execVectorMin q d parity s
  | .axpy q d parity => Sys2Proof.Machine.execAxpy q d parity s
  | .exp q d parity => Sys2Proof.Machine.execExp q d parity s
  | .recip q d parity => Sys2Proof.Machine.execRecip q d parity s
  | .rsqrt q d parity => Sys2Proof.Machine.execRsqrt q d parity s
  | .act q d parity => Sys2Proof.Machine.execAct q d parity s
  | .rowOp q d parity => Sys2Proof.Machine.execRowOp q d parity s
  | .rowReduce q d parity => Sys2Proof.Machine.execRowReduce q d parity s
  | .rowNorm q d parity => Sys2Proof.Machine.execRowNorm q d parity s
  | .normStats q d parity => Sys2Proof.Machine.execNormStats q d parity s
  | .adam q d parity => Sys2Proof.Machine.execAdam q d parity s
  | .routeTopk q d parity => Sys2Proof.Machine.execRouteTopk q d parity s
  | .matrixOperation q d => Sys2Proof.Machine.execMatrixOperation q d s
  | .vectorEntry core me cycle dataCycle err => Sys2Proof.Machine.execVectorEntry core me cycle dataCycle err s
  | .stationaryRowWrite core me bank row cycle parity => Sys2Proof.Machine.execStationaryRowWrite core me bank row cycle parity s
  | .close core me slot second => Sys2Proof.Machine.execClose core me slot second s
  | .operationRetire q opId => Sys2Proof.Machine.execOperationRetire q opId s
  | .trussSum q d => Sys2Proof.Machine.execTrussSum q d s
  | .trussMax q d => Sys2Proof.Machine.execTrussMax q d s
  | .trussMin q d => Sys2Proof.Machine.execTrussMin q d s
  | .maxIdx q d => Sys2Proof.Machine.execMaxIdx q d s
  | .minIdx q d => Sys2Proof.Machine.execMinIdx q d s
  | .trussLeafRead q opId leaf err => Sys2Proof.Machine.execTrussLeafRead q opId leaf err s
  | .down q d err => Sys2Proof.Machine.execDown q d err s
  | .up q d err => Sys2Proof.Machine.execUp q d err s
  | .downT q d err => Sys2Proof.Machine.execDownT q d err s
  | .upT q d err => Sys2Proof.Machine.execUpT q d err s
  | .wgradA q d err => Sys2Proof.Machine.execWgradA q d err s
  | .wgradB q d err => Sys2Proof.Machine.execWgradB q d err s
  | .joinTimeout q opId => Sys2Proof.Machine.execJoinTimeout q opId s
  | .moveOperation q d bad => Sys2Proof.Machine.execMoveOperation q d bad s
  | .rowRepair addr failed => Sys2Proof.Machine.execRowRepair addr failed s
  | .pageReplacement page => Sys2Proof.Machine.execPageReplacement page s
  | .reduce q d => Sys2Proof.Machine.execReduce q d s
  | .shardGather q d => Sys2Proof.Machine.execShardGather q d s
  | .stageSend q d => Sys2Proof.Machine.execStageSend q d s
  | .scarf q d => Sys2Proof.Machine.execScarf q d s
  | .scarfRound f => Sys2Proof.Machine.execScarfRound f s
  | .beatWait q d => Sys2Proof.Machine.execBeatWait q d s
  | .loadPlan q d => Sys2Proof.Machine.execLoadPlan q d s
  | .loadClass q d => Sys2Proof.Machine.execLoadClass q d s
  | .setSeed q d => Sys2Proof.Machine.execSetSeed q d s
  | .setMode q d => Sys2Proof.Machine.execSetMode q d s
  | .setWatch q d => Sys2Proof.Machine.execSetWatch q d s
  | .writeWatch q d => Sys2Proof.Machine.execWriteWatch q d s
  | .readWatch q d => Sys2Proof.Machine.execReadWatch q d s
  | .rollHistory q d => Sys2Proof.Machine.execRollHistory q d s
  | .loadHistory q d => Sys2Proof.Machine.execLoadHistory q d s
  | .configurePartition q d => Sys2Proof.Machine.execConfigurePartition q d s
  | .setWindow q d => Sys2Proof.Machine.execSetWindow q d s
  | .retireSlot q d => Sys2Proof.Machine.execRetireSlot q d s
  | .slotDrained f slot => Sys2Proof.Machine.execSlotDrained f slot s
  | .claim q d => Sys2Proof.Machine.execClaim q d s
  | .share q d => Sys2Proof.Machine.execShare q d s
  | .unshare q d => Sys2Proof.Machine.execUnshare q d s
  | .release q d => Sys2Proof.Machine.execRelease q d s
  | .readDirectory q d => Sys2Proof.Machine.execReadDirectory q d s
  | .pageLeavesOwner page => Sys2Proof.Machine.execPageLeavesOwner page s
  | .pageScrub page clean => Sys2Proof.Machine.execPageScrub page clean s
  | .directoryChangeApply die => Sys2Proof.Machine.execDirectoryChangeApply die s
  | .defineFrame q d => Sys2Proof.Machine.execDefineFrame q d s
  | .frameDigest frame => Sys2Proof.Machine.execFrameDigest frame s
  | .configureContext q d => Sys2Proof.Machine.execConfigureContext q d s
  | .activate q d => Sys2Proof.Machine.execActivate q d s
  | .beginTraining q d => Sys2Proof.Machine.execBeginTraining q d s
  | .endTraining q d => Sys2Proof.Machine.execEndTraining q d s
  | .relocate q d => Sys2Proof.Machine.execRelocate q d s
  | .promote q d => Sys2Proof.Machine.execPromote q d s
  | .probeCheck q d => Sys2Proof.Machine.execProbeCheck q d s
  | .releaseContext q d => Sys2Proof.Machine.execReleaseContext q d s
  | .contextScrub ctx clean => Sys2Proof.Machine.execContextScrub ctx clean s
  | .readContext q d => Sys2Proof.Machine.execReadContext q d s
  | .replaceFrame q d => Sys2Proof.Machine.execReplaceFrame q d s
  | .layerSwap frame => Sys2Proof.Machine.execLayerSwap frame s
  | .drainLimitExpiry f => Sys2Proof.Machine.execDrainLimitExpiry f s
  | .passBegin q d => Sys2Proof.Machine.execPassBegin q d s
  | .passEnd q d => Sys2Proof.Machine.execPassEnd q d s
  | .setSwapPolicy q d => Sys2Proof.Machine.execSetSwapPolicy q d s
  | .measureFrame q d => Sys2Proof.Machine.execMeasureFrame q d s
  | .setJobMap q d => Sys2Proof.Machine.execSetJobMap q d s
  | .jobReg src msg => Sys2Proof.Machine.execJobReg src msg s
  | .setStageQueue q d => Sys2Proof.Machine.execSetStageQueue q d s
  | .stageFree q d => Sys2Proof.Machine.execStageFree q d s
  | .saveCheckpoint q d => Sys2Proof.Machine.execSaveCheckpoint q d s
  | .restoreCheckpoint q d => Sys2Proof.Machine.execRestoreCheckpoint q d s
  | .setEpochPair q d => Sys2Proof.Machine.execSetEpochPair q d s
  | .reportReady q d => Sys2Proof.Machine.execReportReady q d s
  | .createFunction q d => Sys2Proof.Machine.execCreateFunction q d s
  | .resize q d => Sys2Proof.Machine.execResize q d s
  | .resizeEffect f => Sys2Proof.Machine.execResizeEffect f s
  | .resizeLapsed f => Sys2Proof.Machine.execResizeLapsed f s
  | .freeze q d => Sys2Proof.Machine.execFreeze q d s
  | .thaw q d => Sys2Proof.Machine.execThaw q d s
  | .restore q d => Sys2Proof.Machine.execRestore q d s
  | .disable q d => Sys2Proof.Machine.execDisable q d s
  | .drainBeatsExpiry f => Sys2Proof.Machine.execDrainBeatsExpiry f s
  | .functionScrubbing f => Sys2Proof.Machine.execFunctionScrubbing f s
  | .functionOff f => Sys2Proof.Machine.execFunctionOff f s
  | .readCounters q d => Sys2Proof.Machine.execReadCounters q d s
  | .bindFrame q d => Sys2Proof.Machine.execBindFrame q d s
  | .unbind q d => Sys2Proof.Machine.execUnbind q d s
  | .setMortiseRange q d => Sys2Proof.Machine.execSetMortiseRange q d s
  | .setAperture q d => Sys2Proof.Machine.execSetAperture q d s
  | .extension q d => Sys2Proof.Machine.execExtension q d s
  | .setQueue q d => Sys2Proof.Machine.execSetQueue q d s
  | .setCoalesce q d => Sys2Proof.Machine.execSetCoalesce q d s
  | .setEventVector q d => Sys2Proof.Machine.execSetEventVector q d s
  | .report q d => Sys2Proof.Machine.execReport q d s
  | .channelOpen q d => Sys2Proof.Machine.execChannelOpen q d s
  | .channelMessage q d => Sys2Proof.Machine.execChannelMessage q d s
  | .memKey f key => Sys2Proof.Machine.execMemKey f key s
  | .imageKey f key => Sys2Proof.Machine.execImageKey f key s
  | .linkKey f job activation key => Sys2Proof.Machine.execLinkKey f job activation key s
  | .linkDrop f job slot => Sys2Proof.Machine.execLinkDrop f job slot s
  | .confidential f => Sys2Proof.Machine.execConfidential f s
  | .closeSession f => Sys2Proof.Machine.execCloseSession f s
  | .sessionExpiry f => Sys2Proof.Machine.execSessionExpiry f s
  | .getCertificates q d => Sys2Proof.Machine.execGetCertificates q d s
  | .measureRegion q d => Sys2Proof.Machine.execMeasureRegion q d s
  | .unmeasure q d => Sys2Proof.Machine.execUnmeasure q d s
  | .rotateKey q d => Sys2Proof.Machine.execRotateKey q d s
  | .keySweepPage page => Sys2Proof.Machine.execKeySweepPage page s
  | .setCap q d => Sys2Proof.Machine.execSetCap q d s
  | .setPowerGroup q d => Sys2Proof.Machine.execSetPowerGroup q d s
  | .pwrSlack msg => Sys2Proof.Machine.execPwrSlack msg s
  | .pwrShift job offset => Sys2Proof.Machine.execPwrShift job offset s
  | .retrainStack q d rate spared => Sys2Proof.Machine.execRetrainStack q d rate spared s
  | .marginSweep q d width height rate spared => Sys2Proof.Machine.execMarginSweep q d width height rate spared s
  | .coreSelfTest q d pass => Sys2Proof.Machine.execCoreSelfTest q d pass s
  | .tailWrite q tail => Sys2Proof.Machine.execTailWrite q tail s
  | .cplHeadWrite q index => Sys2Proof.Machine.execCplHeadWrite q index s
  | .coalesceTimer q => Sys2Proof.Machine.execCoalesceTimer q s
  | .companionLineWrite addr data => Sys2Proof.Machine.execCompanionLineWrite addr data s
  | .snoop addr => Sys2Proof.Machine.execSnoop addr s
  | .flit port ok => Sys2Proof.Machine.execFlit port ok s
  | .darlekLinkLoss => Sys2Proof.Machine.execDarlekLinkLoss s
  | .beatEdge => Sys2Proof.Machine.execBeatEdge s
  | .releaseEvent f idx => Sys2Proof.Machine.execReleaseEvent f idx s
  | .collectiveEvent f idx => Sys2Proof.Machine.execCollectiveEvent f idx s
  | .moveEvent f idx => Sys2Proof.Machine.execMoveEvent f idx s
  | .commitEvent f idx => Sys2Proof.Machine.execCommitEvent f idx s
  | .powerRamp f idx => Sys2Proof.Machine.execPowerRamp f idx s
  | .shim f idx => Sys2Proof.Machine.execShim f idx s
  | .resizeEvent f idx => Sys2Proof.Machine.execResizeEvent f idx s
  | .deadline f idx => Sys2Proof.Machine.execDeadline f idx s
  | .coreMove f idx => Sys2Proof.Machine.execCoreMove f idx s
  | .plannedMoveComplete core => Sys2Proof.Machine.execPlannedMoveComplete core s
  | .reduceTimeout q opId => Sys2Proof.Machine.execReduceTimeout q opId s
  | .sync port msg arrival => Sys2Proof.Machine.execSync port msg arrival s
  | .syncSend departure => Sys2Proof.Machine.execSyncSend departure s
  | .epoch port msg => Sys2Proof.Machine.execEpoch port msg s
  | .holdReq msg => Sys2Proof.Machine.execHoldReq msg s
  | .holdGrant port msg => Sys2Proof.Machine.execHoldGrant port msg s
  | .ready msg => Sys2Proof.Machine.execReady msg s
  | .vote msg => Sys2Proof.Machine.execVote msg s
  | .decisionEcho src job step => Sys2Proof.Machine.execDecisionEcho src job step s
  | .echoTimeout job => Sys2Proof.Machine.execEchoTimeout job s
  | .commit port msg => Sys2Proof.Machine.execCommit port msg s
  | .abort port msg => Sys2Proof.Machine.execAbort port msg s
  | .decideLost f => Sys2Proof.Machine.execDecideLost f s
  | .holdover => Sys2Proof.Machine.execHoldover s
  | .backupTakeover => Sys2Proof.Machine.execBackupTakeover s
  | .cadInPulse offset => Sys2Proof.Machine.execCadInPulse offset s
  | .cadInMissing => Sys2Proof.Machine.execCadInMissing s
  | .delay port sent received turnaround => Sys2Proof.Machine.execDelay port sent received turnaround s
  | .delayRemeasure port now => Sys2Proof.Machine.execDelayRemeasure port now s
  | .lctrl port payload => Sys2Proof.Machine.execLctrl port payload s
  | .lctrlSend port => Sys2Proof.Machine.execLctrlSend port s
  | .hello port payload => Sys2Proof.Machine.execHello port payload s
  | .helloSend port => Sys2Proof.Machine.execHelloSend port s
  | .portTraining port low high => Sys2Proof.Machine.execPortTraining port low high s
  | .portRetry port => Sys2Proof.Machine.execPortRetry port s
  | .fabricLinkLost port => Sys2Proof.Machine.execFabricLinkLost port s
  | .data port fr => Sys2Proof.Machine.execData port fr s
  | .redWindow port fr => Sys2Proof.Machine.execRedWindow port fr s
  | .redPartial port fr adderFault => Sys2Proof.Machine.execRedPartial port fr adderFault s
  | .redResult port fr => Sys2Proof.Machine.execRedResult port fr s
  | .redResend port fr => Sys2Proof.Machine.execRedResend port fr s
  | .managementOrderEffect core order => Sys2Proof.Machine.execManagementOrderEffect core order s
  | .cellMapChange => Sys2Proof.Machine.execCellMapChange s
  | .coreScrub core clean => Sys2Proof.Machine.execCoreScrub core clean s
  | .governorStep core demand => Sys2Proof.Machine.execGovernorStep core demand s
  | .dieSensorRead die temp0 temp1 => Sys2Proof.Machine.execDieSensorRead die temp0 temp1 s
  | .stackTemperatureRead stack temp => Sys2Proof.Machine.execStackTemperatureRead stack temp s
  | .telemetryCalibration power reserved => Sys2Proof.Machine.execTelemetryCalibration power reserved s
  | .ageingMonitorRead core drift leakage => Sys2Proof.Machine.execAgeingMonitorRead core drift leakage s
  | .marginPlan die => Sys2Proof.Machine.execMarginPlan die s
  | .activeTest core vReq => Sys2Proof.Machine.execActiveTest core vReq s
  | .testDue core overdue => Sys2Proof.Machine.execTestDue core overdue s
  | .pohRecord => Sys2Proof.Machine.execPohRecord s
  | .calibrationRecordWrite type scope payload readsBack => Sys2Proof.Machine.execCalibrationRecordWrite type scope payload readsBack s
  | .storeCompaction => Sys2Proof.Machine.execStoreCompaction s
  | .avsRetry rail acked => Sys2Proof.Machine.execAvsRetry rail acked s
  | .powerOnReset lanes0 lanes1 straps => Sys2Proof.Machine.execPowerOnReset lanes0 lanes1 straps s
  | .railLoss rail => Sys2Proof.Machine.execRailLoss rail s
  | .devRstN lanes0 lanes1 => Sys2Proof.Machine.execDevRstN lanes0 lanes1 s
  | .refclkStop clock => Sys2Proof.Machine.execRefclkStop clock s
  | .refclkReturn clock => Sys2Proof.Machine.execRefclkReturn clock s
  | .go env => Sys2Proof.Machine.execGo env s
  | .warm key lanes0 lanes1 => Sys2Proof.Machine.execWarm key lanes0 lanes1 s
  | .pkcFailure => Sys2Proof.Machine.execPkcFailure s
  | .errClear w off => Sys2Proof.Machine.execErrClear w off s
  | .irqStatWrite w off v => Sys2Proof.Machine.execIrqStatWrite w off v s
  | .lock w off v => Sys2Proof.Machine.execLock w off v s
  | .rcRead w off => Sys2Proof.Machine.execRcRead w off s
  | .lowWordRead w off => Sys2Proof.Machine.execLowWordRead w off s
  | .apply => Sys2Proof.Machine.execApply s
  | .cmapOrder v => Sys2Proof.Machine.execCmapOrder v s
  | .chipIdWrite v => Sys2Proof.Machine.execChipIdWrite v s
  | .epochEdgeWrite v => Sys2Proof.Machine.execEpochEdgeWrite v s
  | .beatCfgWrite v => Sys2Proof.Machine.execBeatCfgWrite v s
  | .planCtrlStart v => Sys2Proof.Machine.execPlanCtrlStart v s
  | .marginCtrlStart stack v width height => Sys2Proof.Machine.execMarginCtrlStart stack v width height s
  | .portRetrain port v => Sys2Proof.Machine.execPortRetrain port v s
  | .govCfgWrite v => Sys2Proof.Machine.execGovCfgWrite v s
  | .rdSeqWrite w v => Sys2Proof.Machine.execRdSeqWrite w v s
  | .registerWrite w off bytes v => Sys2Proof.Machine.execRegisterWrite w off bytes v s
  | .getState => Sys2Proof.Machine.execGetState s
  | .getThermal => Sys2Proof.Machine.execGetThermal s
  | .getPower => Sys2Proof.Machine.execGetPower s
  | .getEvents => Sys2Proof.Machine.execGetEvents s
  | .mctpControl command eid => Sys2Proof.Machine.execMctpControl command eid s
  | .bypass => Sys2Proof.Machine.execBypass s
  | .idcode => Sys2Proof.Machine.execIdcode s
  | .samplePreload boundary => Sys2Proof.Machine.execSamplePreload boundary s
  | .extest => Sys2Proof.Machine.execExtest s
  | .decisionMessage src job step isCommit cause aborts final => Sys2Proof.Machine.execDecisionMessage src job step isCommit cause aborts final s
  | .darlekPortLoss port lanes => Sys2Proof.Machine.execDarlekPortLoss port lanes s
  | .droppedFrame port fr crcOk => Sys2Proof.Machine.execDroppedFrame port fr crcOk s
  | .partitionScrub part clean => Sys2Proof.Machine.execPartitionScrub part clean s

end Sys2Proof.Machine
end

