-- ==== Sys2Proof/Machine/Step.lean ====
section
/-! DEFINITION. One step: the command at the front of the queue runs; on an empty queue the operations that wait are tried
again, and with none the block idles (log entry 5). -/

namespace Sys2Proof.Machine

/-- Run one of the waiting commands inside an idle step, unless its operation has ended in the meantime; while its queue issues
nothing it goes on waiting. -/
def retryOne (s : State) (i : Instr) : State :=
  if !s.waits i then s
  else match carried i with
    | none => s
    | some (q, _) =>
      if !s.issuing q then { s with parked := s.parked ++ [i] }
      else match exec i s with
        | .next t => t
        | .fault _ => s
        | .refused _ => s

/-- Try every operation that waits once more, in order; one that still has to wait is kept again; then the watchers read what is
pending (R419, R422). DESIGN CHOICE. -/
def retryParked (s : State) : State := (s.parked.foldl retryOne { s with parked := [] }).watchAll

/-- One step of the block. -/
def step (s : State) : Host.Outcome State Fault Refusal :=
  match s.pending with
  | [] => .next (retryParked s)
  | i :: rest => exec i { s with pending := rest }

/-- The state with the command of a table word at the front of its queue; no word spells a command. -/
def State.withFetchWord (s : State) (nbits w : Nat) : State :=
  match decodeTableWord nbits w with
  | some i => { s with pending := i :: s.pending }
  | none => s

end Sys2Proof.Machine
end

