-- ==== Sys2Proof/Safety.lean ====
section
/-! DEFINITION. What claims are stated in: how a descriptor issues and in which state, when its command has its effect, and what the
bookkeeping of operations may touch. -/

namespace Sys2Proof.Safety

open Sys2Proof.Machine

/-! ## Issue -/

/-- The operation a descriptor becomes that is read now and issues at once (R421, R422). -/
def opOf (s : State) (q : QueueId) (d : Desc) : Op :=
  { Op.new q s.nextOp d (s.actsFor q d) with
    readBeat := s.beatNow, stage := .inflight, issued := s.beatNow, event := (s.queue q.val).event }

/-- An operation the watcher has read, at its issue. -/
def issued (s : State) (o : Op) : Op :=
  { o with stage := .inflight, issued := s.beatNow, event := (s.queue o.queue.val).event }

/-- The queue takes the descriptor and nothing holds it: the watcher reads the queue (R332, R433, R455), an outstanding operation
finds room (R422), the header checks pass (R421), every earlier operation of the queue has issued and none is a beat-wait (R423), and
with FENCE none is outstanding (Table 17-2). Numbers of outstanding operations lie below the next number. -/
structure Starts (s : State) (q : QueueId) (d : Desc) : Prop where
  reads : s.dispatching q = true
  runs : (s.queue q.val).stopped = false
  fits : s.room (s.queue q.val).mgmt (s.queue q.val).owner = true
  header : s.headerCause q d = 0
  numbered : ∀ o ∈ s.ops, o.num < s.nextOp
  clear : ∀ o ∈ s.ops, o.queue = q → o.stage ≠ .dispatched ∧ o.stage ≠ .held ∧ hdClass o.desc ≠ 5 ∧ hdFence d ≠ 1

/-- The descriptor was read before: the first operation of the queue with these words that still waits, while the queue issues and
nothing of R423 blocks it. -/
structure Waits (s : State) (q : QueueId) (d : Desc) (o : Op) : Prop where
  issues : s.issuing q = true
  first : s.ops.find? (fun o => decide (o.queue = q) && decide (o.desc = d) && (decide (o.stage = .dispatched) || decide (o.stage = .held)))
    = some o
  free : s.blocked o = false

/-- A descriptor of a queue issues as an operation, in a state that differs from the present one only by the issue itself. -/
inductive Issues (s : State) (q : QueueId) (d : Desc) : Op → State → Prop where
  | direct (h : Starts s q d) : Issues s q d (opOf s q d) ((s.addOp (opOf s q d)).markIssued (opOf s q d))
  | waited (o : Op) (h : Waits s q d o) :
      Issues s q d (issued s o) ((s.modOp o.ref (fun _ => issued s o)).markIssued (issued s o))

/-- A core takes the operation: one in service carries its logical number, with no quarantine order and no planned move (R12, R22,
R27). -/
structure OnCore (b : State) (o : Op) (c : CoreId) : Prop where
  core : b.coreOf o = some c
  sound : (b.cell c).quarantining = false
  still : b.moving o.fn (hdCore o.desc) = false

/-! ## Vector operations -/

/-- The watch entry a vector operation takes at issue (R178, R180). -/
def veEntry (b : State) (o : Op) : Option (BitVec 1024) := b.enabledEntry o.fn (veWatchEn o.desc) (veWatchId o.desc)

/-- Where a vector operation reads: memory key and length. -/
def veHolds (o : Op) (c : CoreId) : List (Nat × Nat) := (veReads o.desc).map (fun r => (spKey c.val r.1, r.2))

/-- A vector operation passes the checks of Table 3-9 and finds the stage slots it reads filled (R291). -/
structure VectorReady (b : State) (o : Op) (c : CoreId) : Prop extends OnCore b o c where
  cls : hdClass o.desc = 1
  checks : b.vectorCause c o (veEntry b o) = 0
  slots : b.stageWait o.fn (veHolds o c) = false

/-- A vector operation whose results are stored: it holds what it read until it retires (R124). -/
def veOp (b : State) (o : Op) (c : CoreId) : Op := { o with stage := .stored, entry := veEntry b o, holds := veHolds o c }

/-- The state in which it stores them. -/
def veState (b : State) (o : Op) (c : CoreId) : State := b.putOp (veOp b o c)

/-! ## Matrix, truss and tenon operations -/

/-- Engine instance of a matrix operation on a core. -/
def mxInst (o : Op) (c : CoreId) : Nat := meInst c.val (hdEngine o.desc)

/-- The watch entry a closing matrix operation takes (R180). -/
def mxEntry (b : State) (o : Op) : Option (BitVec 1024) :=
  if mxClose o.desc = 1 then b.enabledEntry o.fn (mxWatchEn o.desc) (mxWatchId o.desc) else none

/-- A matrix operation passes the checks of R123 and R133, finds the staging place of its engine free (R111), no write to its INIT
range still to land (R135), its window slot READY (R219) and the stage slots it reads filled (R291); no parity error waits on a tenon
operation it takes (R175). -/
structure MatrixReady (b : State) (o : Op) (c : CoreId) : Prop extends OnCore b o c where
  cls : hdClass o.desc = 0
  op : hdOp o.desc = 0
  checks : b.matrixCause c (mxInst o c) o (mxEntry b o) = 0
  place : (b.me (mxInst o c)).staged = false
  init : b.initPending c.val o = false
  window : b.mxWindow? o.fn o.desc = none
  slots : b.stageWait o.fn (mxHolds c.val o.desc) = false
  whole : ((b.te c.val).takes o.desc).all (fun j => !j.parity) = true

/-- Engine instances of the leaves of a truss operation. -/
def trInsts (b : State) (o : Op) : List Nat := (trLeafList o.desc).filterMap (b.leafInst o.fn)

/-- A truss operation whose cores are all in service and free of planned moves passes the checks of R146 and R147. -/
structure TrussReady (b : State) (o : Op) : Prop where
  cls : hdClass o.desc = 4
  op : hdOp o.desc = 1
  cores : b.leavesOk o = true ∧ b.trussCoreStatus o = 0
  still : ((trLeafList o.desc).map (· / 2) ++ [trRoot o.desc]).any (b.moving o.fn) = false
  checks : b.trussCause (b.phys? o.fn (trRoot o.desc)) (trInsts b o) o (b.enabledEntry o.fn (trWatchEn o.desc) (trWatchId o.desc)) = 0

/-- The slots a truss operation takes, on every leaf engine. -/
def trKeys (b : State) (o : Op) : List (Nat × Nat) := (trInsts b o).flatMap (fun i => (trSlots o.desc).map (fun k => (i, k)))

/-- The groups a tenon operation works on, the first covered batch row, and the groups it skips. -/
def tnGroups (b : State) (o : Op) (c : CoreId) : List Group := (b.gatherGroups o (b.groups c.val o.desc)).1

def tnFirst (b : State) (o : Op) (c : CoreId) : Nat := ((b.groups c.val o.desc).head?.map (·.first)).getD 0

def tnSkips (b : State) (o : Op) (c : CoreId) : List Nat :=
  ((b.groups c.val o.desc).filter (fun g => !(tnGroups b o c).contains g)).map (·.idx)

/-- The slices it reads. -/
def tnSlices (b : State) (o : Op) (c : CoreId) : List Slice := (tnGroups b o c).flatMap (needed (b.frame (tnFrame o.desc)) o.desc)

/-- A tenon operation passes the checks of Table 6-5 and the gather unit's (R153, R495), and nothing it reads has to be waited for: a
page being filled (R205), a stage slot (R291), a shadow epoch under decision (R327). -/
structure TenonReady (b : State) (o : Op) (c : CoreId) : Prop extends OnCore b o c where
  cls : hdClass o.desc = 2
  op : hdOp o.desc = 0
  checks : b.tenonCause c.val o (b.groups c.val o.desc) = 0
  gather : (b.gatherGroups o (b.groups c.val o.desc)).2 = 0
  pages : (tnSlices b o c).any (b.gatherWaits o.fn) = false
  slots : b.stageWait o.fn ((tnReadRanges (b.frame (tnFrame o.desc)) o.desc (b.groups c.val o.desc) (tnGroups b o c)).map
    (fun x => (spKey c.val x.1, x.2))) = false
  decided : b.decideHold o.fn ((tnSlices b o c).map (fun x => (x.addr, x.bytes))) = false

/-! ## Moves and control operations -/

/-- A move passes the checks of Table 8-8, its cores are in service and free of planned moves, and nothing has to be waited for: a key
(R358), a page (R205), a layer's swap (R253), a window slot (R219), a stage slot (R291), a decision (R327). -/
structure MoveReady (b : State) (o : Op) : Prop where
  cls : hdClass o.desc = 3
  op : hdOp o.desc = 0
  checks : b.moveCause o = 0
  cores : b.mvNoCore o.fn o.desc = false
  still : ((mvReads o.desc && decide (mvSrcSp o.desc = 1) && b.moving o.fn (mvSrcCore o.desc)) || (mvCores o.desc).any (b.moving o.fn)) = false
  keys : b.oldKeyPages (b.tieredPages o.fn ((mvDstDev o.desc).map (fun r => (b.writeAddr o.fn r.1, r.2)))) = []
  pages : (b.tieredPages o.fn ((mvSrcDev o.desc).map (fun r => (b.readAddr o.fn r.1, r.2))
    ++ (mvDstDev o.desc).map (fun r => (b.writeAddr o.fn r.1, r.2)))).any b.pageBusy = false
  wave : b.waveWait o = false
  window : b.windowWait? o.fn (mvSrcParts o.desc) = none
  slots : b.stageWait o.fn (b.mvSrcKeys o.fn o.desc) = false
  decided : b.decideHold o.fn (mvSrcDev o.desc ++ mvDstDev o.desc) = false

/-- A control operation of a code issues. -/
structure Control (s : State) (q : QueueId) (d : Desc) (code : Nat) (o : Op) (b : State) : Prop where
  issues : Issues s q d o b
  cls : hdClass d = 6
  op : hdOp d = code

/-- Nothing keeps a collective from what it reads and writes: a key (R358), a page (R205), a window slot (R219), a stage slot (R291), a
decision (R327), poison (R233). -/
structure GateOpen (b : State) (o : Op) (reads writes : List (Nat × Nat)) : Prop where
  keys : b.oldKeyPages (b.tieredPages o.fn (writes.map (fun r => (b.writeAddr o.fn r.1, r.2)))) = []
  pages : (b.tieredPages o.fn (reads.map (fun r => (b.readAddr o.fn r.1, r.2)) ++ writes.map (fun r => (b.writeAddr o.fn r.1, r.2)))).any
    b.pageBusy = false
  window : b.windowWait? o.fn (reads.flatMap (fun r => if region r.1 = .llm then partsOf r.1 r.2 else [])) = none
  slots : b.stageWait o.fn reads = false
  decided : b.decideHold o.fn (reads ++ writes) = false
  clean : ∀ r ∈ reads, ∀ p ∈ b.poison, overlaps (b.readAddr o.fn r.1) r.2 (64 * p) 64 = false

/-- A reduction frame reaches the collective that receives on its channel: the port takes it, it opens, the channel is the function's, and
the tag is that of the collective, which has started (R318). -/
structure RedArrives (s : State) (p : Nat) (fr : Frame) (type : Nat) (g : Frame) (f : FnId) (x : Reduce) : Prop where
  takes : s.takes p fr type = true
  opens : s.openFrame fr = some g
  channel : s.channelOwner p (fhChannel fr.hdr) = some f
  first : (s.channelReduces f (fhChannel fr.hdr)).head? = some x
  started : x.started = true
  tag : rsTag (redHead g) = rdCollTag x.desc

end Sys2Proof.Safety
end

