-- ==== Sys2Proof/Certificates/Slice0/Obligations.lean ====
section
/-! DEFINITION. What the provers show of the model: each statement as a proposition, with the rules of spec/ it rests on.
OBLIGATIONS.json lists them. -/

open Sys2Proof Sys2Proof.Machine Sys2Proof.Safety

/-! ## The vector engine -/

/-- Two-operand element-wise operations (Table 3-7, R95): ADD, SUB, MUL, MAX, MIN and AXPY form one exact result from each pair of
elements of A and B, AXPY with its BF16 scalar, and hand the tensor to the rounding store. The operation then waits to retire and holds
what it read; the store is all that changes. One-operand element-wise operations (Table 3-7, R77 to R79, R97): CONVERT stores each element
of A as it is, EXP, RECIP, RSQRT and ACT its function of it; only CONVERT may store a tile lowered (R184). Row operations (Table 3-7,
R98): ROW_OP combines every element of row r with one half of the record of row r, the half that bit 255 of the descriptor names; ROW_NORM
forms (a − μ[r]) × ρ[r] × g[k] + β[k] exactly and rounds once. -/
def Obligations.VectorElements : Prop :=
  (∀ (s b : State) (q : QueueId) (d : Desc) (o : Op) (c : CoreId), Issues s q d o b → VectorReady b o c →
     let t := veState b o c
     let stores := fun (i : Instr) (g : Val → Val → Val) =>
       exec i s = .next (t.storeTensor c (veOp b o c) false (List.zipWith (List.zipWith g) (t.vecA c d) (t.vecB c d)))
     (hdOp d = 0x02 → stores (.add q d false) (fun a b => plusZero (a.add b)))
     ∧ (hdOp d = 0x03 → stores (.sub q d false) (fun a b => plusZero (a.sub b)))
     ∧ (hdOp d = 0x04 → stores (.mul q d false) Val.mul)
     ∧ (hdOp d = 0x05 → stores (.vectorMax q d false) Val.max2)
     ∧ (hdOp d = 0x06 → stores (.vectorMin q d false) Val.min2)
     ∧ (hdOp d = 0x07 → stores (.axpy q d false) (fun a b => plusZero (((bf16.decode (veScalar d)).mul a).add b))))
  ∧ (∀ (s b : State) (q : QueueId) (d : Desc) (o : Op) (c : CoreId), Issues s q d o b → VectorReady b o c →
     let t := veState b o c
     let stores := fun (i : Instr) (lower : Bool) (g : Val → Val) =>
       exec i s = .next (t.storeTensor c (veOp b o c) lower ((t.vecA c d).map (fun r => r.map g)))
     (hdOp d = 0x01 → stores (.convert q d false) true id)
     ∧ (hdOp d = 0x08 → stores (.exp q d false) false Val.exp)
     ∧ (hdOp d = 0x09 → stores (.recip q d false) false Val.recip)
     ∧ (hdOp d = 0x0A → stores (.rsqrt q d false) false Val.rsqrt)
     ∧ (hdOp d = 0x0B → stores (.act q d false) false (Val.act (veFunc d))))
  ∧ (∀ (s b : State) (q : QueueId) (d : Desc) (o : Op) (c : CoreId), Issues s q d o b → VectorReady b o c →
     let t := veState b o c
     let stores := fun (i : Instr) (rows : List (List Val)) => exec i s = .next (t.storeTensor c (veOp b o c) false rows)
     (hdOp d = 0x0C → stores (.rowOp q d false) ((t.vecA c d).mapIdx (fun r row =>
       row.map (fun a => rowOpValue (veFunc d) a (t.recordVal c (veBAddr d) r (flag d 255) (veBFmt d))))))
     ∧ (hdOp d = 0x0E → stores (.rowNorm q d false) ((t.vecA c d).mapIdx (fun r row => row.mapIdx (fun k a =>
         plusZero ((((a.sub (t.recordVal c (veBAddr d) r false (veBFmt d))).mul (t.recordVal c (veBAddr d) r true (veBFmt d))).mul
           (t.columnVal c (veAuxAddr d) k (veBFmt d))).add (t.columnVal c (veCAddr d) k (veBFmt d))))))))

/-- Operations that store one record a row (Table 3-7, R98, R100): ROW_REDUCE writes the statistic of FUNC of row r at DST + 4r;
NORM_STATS writes μ of row r in the low half and ρ in the high half of the 4 bytes at DST + 4r, each rounded into DST_FMT under SAT;
ROUTE_TOPK writes 64 BF16 gates of row r at DST + 128r. What they stored is then counted. ADAM (R99): for row r and column k of W, G, M
and V the stored M and V are those of one element step with the random values of their own keys, and the stored W is the exact result
rounded stochastically with the third; M goes to B, V to C, W to DST. -/
def Obligations.VectorRecords : Prop :=
  (∀ (s b : State) (q : QueueId) (d : Desc) (o : Op) (c : CoreId), Issues s q d o b → VectorReady b o c →
     let t := veState b o c
     let f := fmtOf (veDstFmt d)
     let ends := fun (i : Instr) (u : State) => ∃ cs, exec i s = .next (u.report? (veOp b o c) (veWatchId d) cs false false false)
     (hdOp d = 0x0D → ends (.rowReduce q d false)
       (t.write (spKey c.val (veDstAddr d)) ((t.vecA c d).flatMap (fun row => leBytes 4 (rowRecord f (veSat d) (veFunc d) row)))))
     ∧ (hdOp d = 0x0F → ends (.normStats q d false)
       (t.write (spKey c.val (veDstAddr d)) ((List.range (veRows d)).flatMap (fun r =>
         let x := normStats (t.recordVal c (veAAddr d) r false (veAFmt d)) (t.recordVal c (veAAddr d) r true (veAFmt d))
           (t.param c (veAuxAddr d) 0) (t.param c (veAuxAddr d) 4)
         leBytes 4 ((f.rne (veSat d) x.1).code + (f.rne (veSat d) x.2).code * 2 ^ 16)))))
     ∧ (hdOp d = 0x18 → ends (.routeTopk q d false)
       (t.writeAll ((t.vecA c d).mapIdx (fun r row => (spKey c.val (veDstAddr d + r * 128),
         (routeRow (veSat d) (veFunc d % 4 + 1) row).flatMap (fun g => leBytes 2 g.2.code)))))))
  ∧ (∀ (s b : State) (q : QueueId) (d : Desc) (o : Op) (c : CoreId), Issues s q d o b → VectorReady b o c → hdOp d = 0x10 →
     let t := veState b o c
     let mf := fmtOf (veBFmt d)
     let wf := fmtOf (veDstFmt d)
     let rand := fun (tag r k : Nat) =>
       random16 (t.fn o.fn).seed.toNat (veStep d) (Nat.xor (veRtid d) tag) (veElemBase d + r * veRowPitch d + k)
     let el := fun (a pitch fc plank r k : Nat) => tensorAt t.mem (spKey c.val a) pitch (veRows d) (veCols d) fc plank r k
     let e := fun (r k : Nat) => adamElement mf (veSat d) (rand 0x40000000 r k) (rand 0x80000000 r k)
       (el (veDstAddr d) (veDstPitch d) (veDstFmt d) 32 r k) (el (veAAddr d) (veAPitch d) (veAFmt d) (plankSize (veAPlank d)) r k)
       (el (veBAddr d) (veBPitch d) (veBFmt d) 32 r k) (el (veCAddr d) (veCPitch d) (veBFmt d) 32 r k) (t.adamParams c (veAuxAddr d))
     let grid := fun (g : Nat → Nat → Nat) => (List.range (veRows d)).map (fun r => (List.range (veCols d)).map (fun k => g r k))
     ∃ cs, exec (.adam q d false) s = .next ((((t.putRows (spKey c.val (veBAddr d)) (veBPitch d) mf (grid (fun r k => (e r k).1.code))).putRows
       (spKey c.val (veCAddr d)) (veCPitch d) mf (grid (fun r k => (e r k).2.1.code))).putRows
       (spKey c.val (veDstAddr d)) (veDstPitch d) wf (grid (fun r k => (wf.sr (veSat d) (rand 0 r k) (e r k).2.2).code))).report?
       (veOp b o c) (veWatchId d) cs false false false))

/-! ## The matrix engines -/

/-- Issue of a matrix operation (R111, R116, R120, R133): it is staged behind what the engine has, with its passes in segment order,
segment j on bank BANK xor (j mod 2); its slots take their projected state, a free slot is opened at once, at +0 or from INIT, a slot in
use is taken in order; memory, the banks, the other slots and the other engines stay. -/
def Obligations.MatrixStages : Prop :=
  ∀ (s b : State) (q : QueueId) (d : Desc) (o : Op) (c : CoreId), Issues s q d o b → MatrixReady b o c →
    ∃ t, exec (.matrixOperation q d) s = .next t
    ∧ (t.me (mxInst o c)).passes = (b.me (mxInst o c)).passes ++ (List.range (mxSegsM1 d + 1)).map (fun j =>
        { op := o.ref, seg := j, bank := if (mxBank d + j) % 2 = 0 then 0 else 1, interval := entryInterval (mxPairing d), left := mxRows d,
          total := mxRows d, loads := decide (mxLoad d = 1), fp32 := decide (mxWFmt d = 0), trans := decide (mxTrans d = 1),
          pairing := mxPairing d })
    ∧ t.mem = b.mem ∧ t.fns = b.fns ∧ t.queues = b.queues ∧ t.dir = b.dir ∧ t.ctxs = b.ctxs
    ∧ (∀ i, i ≠ mxInst o c → t.me i = b.me i)
    ∧ (t.me (mxInst o c)).bank0 = (b.me (mxInst o c)).bank0 ∧ (t.me (mxInst o c)).bank1 = (b.me (mxInst o c)).bank1
    ∧ (∀ k, k ∉ mxSlots d → (t.me (mxInst o c)).slot k = (b.me (mxInst o c)).slot k)
    ∧ (∀ k ∈ mxSlots d, let x := (b.me (mxInst o c)).slot k
        let y := (t.me (mxInst o c)).slot k
        y.projOpen = decide (mxClose d = 0)
        ∧ (mxAcc d = 2 → y.segs = x.segs + mxSegsM1 d + 1 ∧ y.vals = x.vals ∧ y.st = x.st)
        ∧ (mxAcc d ≠ 2 → y.segs = mxSegsM1 d + 1 ∧ y.rows = mxRows d ∧ y.width = mxWidth d)
        ∧ (mxAcc d ≠ 2 → x.st = .free → x.openers = [] →
            y.st = .opened ∧ y.vals = if mxAcc d = 1 then b.initTile c.val d k else zeroTile)
        ∧ (mxAcc d ≠ 2 → ¬ (x.st = .free ∧ x.openers = []) → y.st = x.st ∧ y.vals = x.vals ∧ y.openers = x.openers ++ [o.ref]))

/-- A vector enters (R104, R109, R115): the head pass has one vector fewer, the engine keeps the entry cycle and the pass's interval,
ENTRY_CYC counts it, and nothing is written to memory or on another engine. With a tile of 512 columns that does not hold its row back and
no joined tenon operation, the slot row takes one rounded addition of the vector's segment sums. When a vector may enter (R104, R111,
R114, R119): whatever enters does so no earlier than the entry edge and its data allow; the first vector of a pass that loads a bank no
earlier than 513 cycles after the last vector that read the bank and the cycle after the first row write of its block, with FP32 weights
or TRANS only after all 512 rows; and the first of an operation only where fewer than eight are in progress and the core's quarantine is
not ordered. The loader's row writes (R113): a row that may be written in a cycle is, and only the bank's loader state changes; another is
not written. Row 0 waits for 512 cycles after the last vector that read the bank; every further row of a block that is not FP32 lands in
the cycle after the one before. -/
def Obligations.VectorEntries : Prop :=
  (∀ (s : State) (core : CoreId) (me : Fin 2) (cycle dataCycle : Nat) (err : RunErr) (p : Pass) (rest : List Pass) (o : Op),
     let inst := meInst core.val me.val
     let m := s.me inst
     let d := o.desc
     let row := p.total - p.left
     let k := mxTile d + row / 64
     m.passes = p :: rest → s.op? p.op = some o → s.mayEnter core inst p cycle dataCycle = true → err ≠ .parity →
     ∃ t, exec (.vectorEntry core me cycle dataCycle err) s = .next t
     ∧ (t.me inst).passes = (if p.left ≤ 1 then rest else { p with left := p.left - 1 } :: rest)
     ∧ (t.me inst).lastEntry = cycle + 1 ∧ (t.me inst).lastInterval = p.interval
     ∧ t.reg 0 (pageMe inst + 0x78) = min (s.reg 0 (pageMe inst + 0x78) + 1) 0xFFFFFFFF
     ∧ t.mem = s.mem ∧ t.queues = s.queues ∧ (∀ i, i ≠ inst → t.me i = s.me i)
     ∧ (mxWidth d = 512 → (m.slot k).holdsBack p.op = false → (s.te core.val).joined = [] →
         let block := if p.loads = true ∧ p.left = p.total then s.loadBlock core.val d p.seg else m.bank p.bank
         let sums := resultRow d block (s.streamRow core.val d p.seg row (if p.seg = mxSegsM1 d then mxKlast d else 512))
         ((t.me inst).slot k).vals = setAt (m.slot k).vals (row % 64) (fun r => addRow r sums)))
  ∧ ((∀ (s t : State) (core : CoreId) (me : Fin 2) (cycle dataCycle : Nat) (err : RunErr) (p : Pass) (rest : List Pass),
      let inst := meInst core.val me.val
      let m := s.me inst
      m.passes = p :: rest → exec (.vectorEntry core me cycle dataCycle err) s = .next t → t ≠ s →
      dataCycle ≤ cycle ∧ (m.lastEntry ≠ 0 → m.lastEntry - 1 + m.lastInterval ≤ cycle)
      ∧ (p.left = p.total → p.loads = true → (m.lastRead p.bank ≠ 0 → m.lastRead p.bank - 1 + 513 ≤ cycle)
          ∧ m.stagedAt p.bank ≠ 0 ∧ m.stagedAt p.bank ≤ cycle
          ∧ (p.fp32 = true ∨ p.trans = true → m.rowsDone p.bank = 512 ∧ m.lastWrite p.bank ≤ cycle))
      ∧ (p.left = p.total → p.seg = 0 → s.inProgress inst < 8 ∧ (s.cell core).quarantining = false))
   ∧ (∀ (s : State) (core : CoreId) (me bank : Fin 2) (row : Fin 512) (cycle : Nat),
      let inst := meInst core.val me.val
      let m := s.me inst
      (m.mayWrite bank row.val cycle = true → exec (.stationaryRowWrite core me bank row cycle false) s = .next (s.setMe inst
          (if bank = 0 then { m with staged0 := if row.val = 0 then cycle + 1 else m.staged0, rows0 := row.val + 1, lastWrite0 := cycle + 1 }
           else { m with staged1 := if row.val = 0 then cycle + 1 else m.staged1, rows1 := row.val + 1, lastWrite1 := cycle + 1 })))
      ∧ (m.mayWrite bank row.val cycle = false → ∀ parity, exec (.stationaryRowWrite core me bank row cycle parity) s = .next s)
      ∧ (m.mayWrite bank row.val cycle = true →
          (row.val = 0 → m.lastRead bank ≠ 0 → m.lastRead bank - 1 + 512 ≤ cycle)
          ∧ (row.val ≠ 0 → m.rowsDone bank = row.val ∧ m.lastWrite bank ≤ cycle)
          ∧ (row.val ≠ 0 → (∀ p ∈ m.passes, p.bank = bank → p.fp32 = false) → m.lastWrite bank = cycle))))

/-- Closing a slot (R80, R134, R136): the slot that became ready first, with no mismatch, is written and freed. For an operation without
epilogue that is not watched, row j of the slot goes to DST + row × DST_PITCH × 128, each value rounded stochastically with the random
value of its element index; nothing else in memory changes. -/
def Obligations.CloseWrites : Prop :=
  ∀ (s : State) (core : CoreId) (me : Fin 2) (slot : Fin 32) (second : Bool) (ready : List Nat) (o : Op),
    let inst := meInst core.val me.val
    let x := (s.me inst).slot slot.val
    let d := o.desc
    let r0 := (slot.val - mxTile d) / mxPerGroup d * 64
    let c0 := (slot.val - mxTile d) % mxPerGroup d * 512
    (s.me inst).ready = slot.val :: ready → x.closer.bind (fun r => s.op? r) = some o → x.mismatch = false →
    ∃ t, exec (.close core me slot second) s = .next t
    ∧ (x.openers = [] → ((t.me inst).slot slot.val).st = .free ∧ slot.val ∉ (t.me inst).ready)
    ∧ (mxEpi d = 0 → o.entry = none → t.mem = (s.writeAll ((x.vals.take (mxRows d - r0)).mapIdx (fun j row =>
        (spKey core.val (mxDstAddr d + (r0 + j) * mxDstPitch d * 128 + 2 * c0), row.mapIdx (fun n v => (fmtOf (mxDstFmt d)).sr (mxSat d)
          (random16 (s.fn o.fn).seed.toNat (mxStep d) (mxRtid d) (mxElemBase d + (r0 + j) * mxRowPitch d + c0 + n)) (val24 v))
          |>.flatMap (fun y => leBytes 2 y.code))))).mem)

/-! ## The truss -/

/-- Issue of a truss operation (R146, R147): it registers on every leaf engine. Its slots there are projected free from then on, and where
earlier operations wait to open one it takes its place behind them; the operation keeps them until it ends. Memory, every other slot and
the queues stay. All five kinds do this. A leaf is read (R128, R145, R147): its slots stand closing for the operation, which keeps their
rows; while other leaves are to be read nothing else changes. The reading of the last leaf makes the root write and leaves the operation
stored. -/
def Obligations.TrussOperations : Prop :=
  (∀ (s b : State) (q : QueueId) (d : Desc) (o : Op) (i : Instr), Issues s q d o b → TrussReady b o →
     (i = .trussSum q d ∧ trKind d = 0) ∨ (i = .trussMax q d ∧ trKind d = 1) ∨ (i = .trussMin q d ∧ trKind d = 2)
       ∨ (i = .maxIdx q d ∧ trKind d = 3) ∨ (i = .minIdx q d ∧ trKind d = 4) →
     ∃ t, exec i s = .next t
     ∧ (∃ p ∈ t.ops, p.ref = o.ref ∧ p.slots = trKeys b o)
     ∧ (∀ j k, (j, k) ∈ trKeys b o → ((t.me j).slot k).projOpen = false ∧ ((t.me j).slot k).vals = ((b.me j).slot k).vals
         ∧ ((t.me j).slot k).st = ((b.me j).slot k).st)
     ∧ (∀ j k, (j, k) ∉ trKeys b o → (t.me j).slot k = (b.me j).slot k)
     ∧ t.mem = b.mem ∧ t.queues = b.queues ∧ t.fns = b.fns ∧ t.regs = b.regs)
  ∧ (∀ (s : State) (q : QueueId) (opId : BitVec 16) (leaf : Fin 40) (err : RunErr) (o : Op) (inst : Nat), err ≠ .parity →
     s.ops.find? (fun o => o.named q opId && decide (o.stage = .inflight) && decide (hdClass o.desc = 4) && decide (hdOp o.desc = 1)) = some o →
     s.leafInst o.fn leaf.val = some inst → leaf.val ∈ trLeafList o.desc → (∀ l ∈ o.leaves, l.1 ≠ leaf.val) →
     (∀ k ∈ trSlots o.desc, s.leafReady o.ref (inst, k) = true ∧ ((s.me inst).slot k).mismatch = false) →
     let p : Op := { o with leaves := o.leaves ++ [(leaf.val, (trSlots o.desc).flatMap (fun k => ((s.me inst).slot k).vals))] }
     let u : State := ((trSlots o.desc).foldl (fun s k => s.modSlot inst k (fun x => { x with st := .closing, closer := some o.ref, mismatch := false })) s).putOp p
     (p.leaves.length ≠ (trLeafList o.desc).length → exec (.trussLeafRead q opId leaf err) s = .next u)
     ∧ (p.leaves.length = (trLeafList o.desc).length → ∃ t, exec (.trussLeafRead q opId leaf err) s = .next t
         ∧ ((∃ c, s.phys? o.fn (trRoot o.desc) = some c) → ∃ z ∈ t.ops, z.ref = o.ref ∧ z.stage = .stored ∧ z.slots = [])))

/-! ## The tenon engine -/

/-- DOWN and DOWN_T (R153, R159, R173): after the bad groups are marked, row j of every group goes to U_ADDR, at the pitch of the covered
rows. A packed U row of DOWN holds, for each part of the operation's input class, the sums over K of streaming elements times elements of
A, each rounded to BF16 under SAT, ReLU applied to a mortise where ACT asks for it; a V row of DOWN_T the sums over N of streaming
elements times elements of B of the target. Nothing else in memory changes and the operation stands stored. WGRAD_A and WGRAD_B (R172,
R174): the rows of every group's gradient block, 512 values each, rounded stochastically with the random value of their element index,
context and RTID, go one after the other to DST_ADDR in the weights' format; nothing else in memory changes but the skip mask, and the
operation stands stored. -/
def Obligations.TenonResults : Prop :=
  (∀ (s b : State) (q : QueueId) (d : Desc) (o : Op) (c : CoreId), Issues s q d o b → TenonReady b o c →
     let fr := b.frame (tnFrame d)
     let m := b.markSkips c.val d (tnSkips b o c)
     let row := fun (g : Group) (f : Nat → List Nat) => (List.range g.rows).map (fun j =>
       (spKey c.val (tnUAddr d + (g.first + j - tnFirst b o c) * tnUPitch d * 128), (f (g.first + j - tnFirst b o c)).flatMap (leBytes 2)))
     let ends := fun (i : Instr) (rows : List (Nat × List Byte)) => ∃ t, exec i s = .next t ∧ t.mem = (m.writeAll rows).mem
       ∧ t.queues = b.queues ∧ (∃ z ∈ t.ops, z.ref = o.ref ∧ z.stage = .stored ∧ z.count = (tnSkips b o c).length)
     (tnMode d = 0 → ends (.down q d .none) ((tnGroups b o c).flatMap (fun g => row g (fun q => (classParts fr d g).flatMap (fun pc =>
       (List.range pc.1.r).map (fun col =>
         let u := (bf16.rne (tnSat d) (val24 (teSum (exactPair d) 512 ((List.range (min pc.1.k (xElems fr d))).map (fun k =>
           (m.xElem c.val fr d q k).mul (m.aElem d g pc.1 k col)))))).code
         if tnAct d = 1 ∧ tnTarget d = 2 ∧ 8 ≤ pc.1.key ∧ (bf16.decode u).lt Val.zero then 0 else u))))))
     ∧ (tnMode d = 2 → ends (.downT q d .none) ((tnGroups b o c).flatMap (fun g => row g (fun q => match targetPart fr d g with
         | none => []
         | some pc => (List.range pc.1.r).map (fun col =>
           (bf16.rne (tnSat d) (val24 (teSum (exactPair d) 512 ((List.range (min pc.1.n (xElems fr d))).map (fun n =>
             (m.xElem c.val fr d q n).mul (m.bElem d g pc.1 col n)))))).code))))))
  ∧ (∀ (s b : State) (q : QueueId) (d : Desc) (o : Op) (c : CoreId), Issues s q d o b → TenonReady b o c →
     let fr := b.frame (tnFrame d)
     let m := b.markSkips c.val d (tnSkips b o c)
     let block := fun (g : Group) (off : Nat) (r : Nat) => (List.range r).flatMap (fun col => (List.range 512).flatMap (fun i =>
       let n := 512 * tnBlock d + i
       let sum := teSum false 512 ((List.range (min g.rows (512 * (tnKsegsM1 d + 1)))).map (fun j =>
         (m.xElem c.val fr d (g.first - tnFirst b o c + j) n).mul (m.uElem c.val d (g.first - tnFirst b o c + j) (off + col))))
       let v := if n < xElems fr d then contribution (.num false 1 0) (bf16.decode (cxScale g.desc)) sum else 0
       leBytes (if tnWFmt d = 1 then 2 else 1) ((fmtOf (tnWFmt d)).sr (tnSat d) (random16 (b.fn o.fn).seed.toNat (tnStep d)
         (Nat.xor (tnRtid d) g.ctx) (tnElemBase d + col * tnRowPitch d + i)) (val24 v)).code))
     let ends := fun (i : Instr) => ∃ t, exec i s = .next t
       ∧ t.mem = (m.write (spKey c.val (tnDstAddr d)) ((tnGroups b o c).flatMap (fun g => match targetPart fr d g with
           | none => []
           | some pc => block g (if tnMode d = 5 then pc.2 else 0) pc.1.r))).mem
       ∧ t.queues = b.queues ∧ (∃ z ∈ t.ops, z.ref = o.ref ∧ z.stage = .stored)
     (tnMode d = 4 → ends (.wgradA q d .none)) ∧ (tnMode d = 5 → ends (.wgradB q d .none)))

/-- UP and UP_T (R160, R161, R164): the operation stands unjoined behind those of its core, with its tag, block and covered rows and with
the contributions of its groups' rows, a row whose gate is zero giving none; it writes nothing but the skip mask and stays in flight.
References and the join timeout (R156, R162, R205): an operation that runs holds a reference to each context of its groups, and an
unjoined operation whose time runs out leaves its engine and ends with cause JOIN_TIMEOUT. -/
def Obligations.TenonJoins : Prop :=
  (∀ (s b : State) (q : QueueId) (d : Desc) (o : Op) (c : CoreId), Issues s q d o b → TenonReady b o c →
     let m := b.markSkips c.val d (tnSkips b o c)
     let join : TenonJoin := {
       op := o.ref, tag := tnJoin d, trans := decide (tnMode d = 3), block := tnBlock d, rowBase := 64 * tnRowBase d,
       firstRow := tnFirst b o c, rows := tnRowsM1 d + 1, mismatch := none, parity := false,
       contrib := (tnGroups b o c).flatMap (m.upRows c.val (b.frame (tnFrame d)) d (tnFirst b o c)) }
     let joins := fun (i : Instr) => ∃ t, exec i s = .next t ∧ t.mem = m.mem ∧ t.queues = b.queues
       ∧ (t.te c.val).unjoined = (b.te c.val).unjoined ++ [join] ∧ (t.te c.val).joined = (b.te c.val).joined
       ∧ (∀ k, k ≠ c.val → t.te k = b.te k) ∧ (∀ k, t.me k = b.me k) ∧ (∃ z ∈ t.ops, z.ref = o.ref ∧ z.stage = .inflight)
     (tnMode d = 1 → joins (.up q d .none)) ∧ (tnMode d = 3 → joins (.upT q d .none)))
  ∧ ((∀ (s b t : State) (q : QueueId) (d : Desc) (o : Op) (c : CoreId), Issues s q d o b → TenonReady b o c → tnMode d = 0 →
     exec (.down q d .none) s = .next t → ((tnGroups b o c).map (·.ctx)).Nodup → ∀ g ∈ tnGroups b o c,
     cxRefs (b.ctx g.ctx) < 65535 → cxRefs (t.ctx g.ctx) = cxRefs (b.ctx g.ctx) + 1)
   ∧ ∀ (s : State) (q : QueueId) (opId : BitVec 16) (o : Op) (c : CoreId),
     s.ops.find? (fun o => o.named q opId && decide (o.stage = .inflight) && decide (hdClass o.desc = 2)) = some o →
     s.coreOf o = some c → (∃ j ∈ (s.te c.val).unjoined, j.op = o.ref) →
     exec (.joinTimeout q opId) s = .next ((s.setTe c.val ((s.te c.val).without o.ref)).fail o 0x28))

/-! ## Completion and retirement -/

/-- What every completion does (R425, Table 17-4): with room in the ring and no interrupt asked for, 64 bytes of memory change, the slot
at CPL_BASE + 64 × (index mod 2^CPL_LOG2), which then holds the operation's id, queue, class, tag, status, cause, count and detail, the
beat number, and PHASE 1 on even passes through the ring; the ring index advances, and the operation leaves the outstanding ones. -/
def Obligations.CompletionRecord : Prop :=
  ∀ (s : State) (o : Op) (status cause count detail : Nat),
    let q := s.queue o.queue.val
    let log2 := fld q.record 181 177
    let at_ := compKey (fld q.record 176 134 + 64 * (q.cplIndex.toNat % 2 ^ log2))
    let t := s.complete o status cause count detail
    let r : Record := BitVec.ofNat 512 (t.nat at_ 64)
    q.cplFull = false → q.waiting = [] → flag o.desc 18 = false →
    (∀ a, a < at_ ∨ at_ + 64 ≤ a → memByte t.mem a = memByte s.mem a)
    ∧ fld r 15 0 = fld o.desc 51 36 ∧ fld r 25 16 = o.queue.val ∧ fld r 29 26 = fld o.desc 3 0
    ∧ (flag r 30 = true ↔ q.cplIndex.toNat / 2 ^ log2 % 2 = 0) ∧ flag r 31 = false
    ∧ fld r 39 32 = status % 256 ∧ fld r 47 40 = cause % 256 ∧ fld r 63 48 = min count 65535
    ∧ fld r 127 64 = s.beatNow % 2 ^ 64 ∧ fld r 159 144 = fld o.desc 35 20 ∧ fld r 511 160 = detail % 2 ^ 352
    ∧ t.queue o.queue.val = { q with cplIndex := q.cplIndex + 1 } ∧ (∀ k, k ≠ o.queue.val → t.queue k = s.queue k)
    ∧ t.ops = s.ops.eraseP (fun x => x.is o.ref)

/-- What a completion leaves alone: everything but the outstanding operations, the ring and its memory, the counters of the DLK page, the
references and fills the operation held, and the model's own fields (a frame for every command that ends by completing). Interrupts and
the full ring (R425, R427): a record with IRQ set counts towards the queue's interrupt, whose message goes out and restarts the count once
COAL_COUNT records stand behind it; while the ring is full a record is kept, memory and the ring index stay. -/
def Obligations.CompletionFrame : Prop :=
  (∀ (s : State) (o : Op) (status cause count detail : Nat),
     let t := s.complete o status cause count detail
     { t with ops := s.ops, dir := s.dir, ctxs := s.ctxs, queues := s.queues, mem := s.mem, poison := s.poison, regs := s.regs,
              fresh := s.fresh, lastCpl := s.lastCpl } = s
     ∧ (o.pages = [] → o.fills = [] → t.dir = s.dir) ∧ (o.ctxs = [] → t.ctxs = s.ctxs))
  ∧ (∀ (s : State) (o : Op) (status cause count detail : Nat),
     let q := s.queue o.queue.val
     let t := s.complete o status cause count detail
     (q.cplFull = false → q.waiting = [] → flag o.desc 18 = true →
       (t.queue o.queue.val).irqPending = (if (s.coalesceOf q).1 ≤ q.irqPending + 1 then 0 else q.irqPending + 1)
       ∧ ((s.coalesceOf q).1 ≤ q.irqPending + 1 → fld q.record 267 225 ≠ 0 →
           t.nat (compKey (fld q.record 267 225)) 4 = fld q.record 299 268))
     ∧ (q.cplFull = true → t.mem = s.mem ∧ (t.queue o.queue.val).cplIndex = q.cplIndex
       ∧ (t.queue o.queue.val).waiting.length = q.waiting.length + 1))

/-- Retirement (R19, R124, R425): the oldest operation of that id whose results are stored completes as it was found to end; what it
holds for slots that are still open goes on being held for them. -/
def Obligations.Retirement : Prop :=
  ∀ (s : State) (q : QueueId) (opId : BitVec 16) (o : Op),
    s.ops.find? (fun o => o.named q opId && decide (o.stage = .stored)) = some o → hdClass o.desc ≠ 3 →
    let h : Held := {
      fn := o.fn, ranges := o.holds, added := o.added,
      init := match s.coreOf o with
        | some c => if hdClass o.desc = 0 then mxInit c.val o.desc else (0, 0)
        | none => (0, 0) }
    let u : State := if o.added = [] ∨ o.holds = [] then s else { s with heldOps := s.heldOps ++ [h] }
    let t := if o.status = 1 then u.fail o o.cause o.detail else u.complete o o.status o.cause o.count o.detail
    (∀ p ∈ t.ops, t.unshareReady p = false) → exec (.operationRetire q opId) s = .next t

/-! ## Moves and the HBM4 stacks -/

/-- A move runs (R212, R214, R215): whatever its rows, no byte outside its destination rows changes; a move of one row leaves in every
byte of the destination the byte that lay at the source before, or zero with ZERO, on every core of DST_CORES; the operation stands stored
and holds its pages. A move that reads poison ends with cause HBM_POISON (R231 to R233): it stands stored with that fault, and no poisoned
64-byte piece is written. -/
def Obligations.Moves : Prop :=
  (∀ (s b : State) (q : QueueId) (d : Desc) (o : Op), Issues s q d o b → MoveReady b o → b.poison = [] →
     let n := mvRow d
     let src := if mvSrcSp d = 1 then (match b.phys? o.fn (mvSrcCore d) with
         | some c => spKey c.val (mvSrcAddr d)
         | none => 0) else b.readAddr o.fn (mvSrcAddr d)
     ∃ t, exec (.moveOperation q d []) s = .next t
     ∧ (∃ z ∈ t.ops, z.ref = o.ref ∧ z.stage = .stored ∧ z.status = o.status) ∧ t.queues = b.queues
     ∧ (∀ a, (∀ i < mvRows d, (mvDstSp d = 0 → a < b.writeAddr o.fn (mvDstRow d i) ∨ b.writeAddr o.fn (mvDstRow d i) + n ≤ a)
         ∧ (mvDstSp d = 1 → ∀ l ∈ mvCores d, ∀ c, b.phys? o.fn l = some c →
             a < spKey c.val (mvDstRow d i) ∨ spKey c.val (mvDstRow d i) + n ≤ a)) → memByte t.mem a = memByte b.mem a)
     ∧ (mvRows d = 1 → mvDstSp d = 0 → ∀ k < n, memByte t.mem (b.writeAddr o.fn (mvDstAddr d) + k) =
         if mvZero d = 1 then 0 else memByte b.mem (src + k))
     ∧ (mvRows d = 1 → mvDstSp d = 1 → ∀ l ∈ mvCores d, ∀ c, b.phys? o.fn l = some c → ∀ k < n,
         memByte t.mem (spKey c.val (mvDstAddr d) + k) = if mvZero d = 1 then 0 else memByte b.mem (src + k)))
  ∧ (∀ (s b : State) (q : QueueId) (d : Desc) (o : Op) (p : Nat), Issues s q d o b → MoveReady b o →
     mvZero d = 0 → mvSrcSp d = 0 → mvDstSp d = 0 → mvRows d = 1 → (∃ st, region (b.readAddr o.fn (mvSrcAddr d)) = .hbm st) →
     b.readAddr o.fn (mvSrcAddr d) % 64 = 0 → p ∈ b.poison → p * 64 < b.readAddr o.fn (mvSrcAddr d) + mvRow d →
     b.readAddr o.fn (mvSrcAddr d) ≤ p * 64 →
     ∃ t, exec (.moveOperation q d []) s = .next t
     ∧ (∃ z ∈ t.ops, z.ref = o.ref ∧ z.stage = .stored ∧ z.status = 1 ∧ z.cause = 0x50)
     ∧ ∀ k < 64, let a := b.writeAddr o.fn (mvDstAddr d) + (p * 64 - b.readAddr o.fn (mvSrcAddr d)) + k
         memByte t.mem a = memByte b.mem a)

/-- Row repair (R232, R237, Table 9-4): a row of a stack in service moves one step, from no spare to pool 1 while its bank has one of its
four free, else to pool 2 while the stack has one of its 512 free, from pool 1 to pool 2; the bursts that fail become poison, 64 zero
bytes each. With no step left, a claimed page that is not being released becomes RELOCATING and keeps the rest of its entry. Page re-
placement (R239): a RELOCATING HBM page without references goes to a free page of its stack, which takes its entry with MOVE 0 and no
partner; its bytes and its poison go with it, and the old page is retired, TIER 3. The free page is the lowest of the stack. -/
def Obligations.RowRepair : Prop :=
  (∀ (s : State) (addr : BitVec 44) (failed : List (Fin 16)) (st : Nat), region addr.toNat = .hbm st → (s.stack st).inService = true →
     let row := rowOf addr.toNat
     let x := s.stack st
     let burst := fun (b : Fin 16) => (addr.toNat / 65536 * 65536 + row % 64 * 64 + b.val * 4096) / 64
     let step : Option Nat :=
       if SMap.get 0 x.repairs row = 0 then (if x.bankUsed (bankOf row) < 4 then some 1 else if x.pool2Used < 512 then some 2 else none)
       else if SMap.get 0 x.repairs row = 1 then (if x.pool2Used < 512 then some 3 else none) else none
     ∃ t, exec (.rowRepair addr failed) s = .next t
     ∧ (∀ b ∈ failed, burst b ∈ t.poison ∧ ∀ k < 64, memByte t.mem (64 * burst b + k) = 0)
     ∧ (∀ r, step = some r → (t.stack st).repairs = SMap.put 0 x.repairs row r ∧ t.dir = s.dir)
     ∧ (step = none → (t.stack st).repairs = x.repairs
         ∧ (pgTier (s.page (pageOf addr.toNat)) = 1 → pageOf addr.toNat ∉ s.scrubs → pgMove (s.page (pageOf addr.toNat)) ≠ 2 →
             t.page (pageOf addr.toNat) = withFld (s.page (pageOf addr.toNat)) 28 26 3))
     ∧ (∀ k, k ≠ st → t.stack k = s.stack k))
  ∧ (∀ (s : State) (page st new : Nat), let e := s.page page
     stackOfPage page = some st → pgMove e = 3 → pgRef e = 0 → pgTier e = 1 → (∀ o ∈ s.ops, s.awaits page o = false) →
     s.freePage st = some new →
     ∃ t, exec (.pageReplacement page) s = .next t
     ∧ t.page new = withFld (withFld e 28 26 0) 63 36 0 ∧ pgTier (t.page page) = 3
     ∧ (pgShared e = false → ∀ k < 65536, memByte t.mem (new * 65536 + k) = memByte s.mem (page * 65536 + k))
     ∧ (∀ k < 1024, page * 1024 + k ∈ s.poison → new * 1024 + k ∈ t.poison)
     ∧ (∀ p, st * 2 ^ 20 ≤ p → p < new → pgTier (s.page p) ≠ 0 ∨ p ∈ s.scrubs)
     ∧ (∀ p, p ≠ page → p ≠ new → t.page p = s.page p))

/-- Training (R234, R240, Table 8-8): RETRAIN_STACK on a stack without referenced pages leaves it at the rate it passed at, in service
unless it passed at none, with its spared lanes; on a stack with one it is refused with STACK_BUSY. A margin sweep on a stack without
claimed pages that no confidential function holds leaves its result in MARGIN_RESULT and trains the stack. Stack temperature (R236, Table
9-3): a reading is kept; a hotter state is entered at once, at 85, at 95 and above 105 °C; a cooler one only 2 °C below the lower bound of
the state that is left. At 112 °C THERM_N is asserted. Other stacks keep their state. -/
def Obligations.StackState : Prop :=
  (∀ (s b : State) (q : QueueId) (d : Desc) (o : Op) (rate : BitVec 2) (spared : Nat) (w h : Byte),
     let st := fld d 132 128
     st < 24 →
     let trained := fun (u : State) =>
       let v := u.setStack st { u.stack st with rate := rate, inService := decide (rate ≠ 0), spared := spared }
       if rate = 0 then v.logPkg 0x4246 st 0 0 else if rate ≠ 3 then v.logPkg 0x4245 st rate.toNat 0 else v
     (Control s q d 0x72 o b → (∀ x ∈ b.dir, x.1 / 2 ^ 20 = st → pgRef x.2 = 0) →
       exec (.retrainStack q d rate spared) s = .next ((trained b).done o))
     ∧ (Control s q d 0x72 o b → (∃ x ∈ b.dir, x.1 / 2 ^ 20 = st ∧ pgRef x.2 ≠ 0) →
       exec (.retrainStack q d rate spared) s = .next (b.complete o 1 0x51 0 0))
     ∧ (Control s q d 0x73 o b → (∀ x ∈ b.dir, x.1 / 2 ^ 20 = st → pgTier x.2 ≠ 1 ∧ pgTier x.2 ≠ 2) →
       (∀ f, (b.fn f).sec.confidential = true → (b.fn f).granules st = 0) →
       exec (.marginSweep q d w h rate spared) s = .next ((trained
         ((b.setReg 0 (0x400074 + 0x1000 * st) (w.toNat + h.toNat * 2 ^ 8 + 2 ^ 16)).raise (0x400000 + 0x1000 * st) 3)).done o)))
  ∧ (∀ (s : State) (k : StackId) (temp : Byte),
     let x := s.stack k.val
     let r := if 105 < temp.toNat then 3 else if 95 ≤ temp.toNat then 2 else if 85 ≤ temp.toNat then 1 else 0
     let bound := fun (st : Nat) => if st = 3 then 105 else if st = 2 then 95 else 85
     ∃ t, exec (.stackTemperatureRead k temp) s = .next t
     ∧ (t.stack k.val).temp = temp
     ∧ (x.refresh ≤ r → (t.stack k.val).refresh = r)
     ∧ (r < x.refresh → x.refresh ≤ 3 → (t.stack k.val).refresh ≤ x.refresh
         ∧ (∀ st, (t.stack k.val).refresh < st → st ≤ x.refresh → temp.toNat + 2 ≤ bound st)
         ∧ ((t.stack k.val).refresh ≠ 0 → bound (t.stack k.val).refresh < temp.toNat + 2))
     ∧ (112 ≤ temp.toNat → t.boot.thermN = true)
     ∧ (temp.toNat < 112 → t.boot = s.boot ∧ t.ops = s.ops) ∧ (∀ j, j ≠ k.val → t.stack j = s.stack j))

/-! ## The tier directory -/

/-- CLAIM, SHARE, UNSHARE, RELEASE (R204, R206, R208): a run whose checks pass takes its new entries at once and the operation waits for
the dies to apply them. CLAIM gives every page to the function, TIER 1 in HBM and 2 in companion memory, no frame, not shared, its key
generation's parity, MOVE and REF 0, and leaves the run zero; SHARE sets the shared bit and the frame, UNSHARE clears them, RELEASE sets
MOVE 2, each leaving the rest of the entry. Refusals of a CLAIM (R204, R209): beyond the quota it completes with QUOTA, the excess in
DETAIL, and is counted; over a page that is not free it completes with the cause of the lowest such page. No entry changes. -/
def Obligations.DirectoryRuns : Prop :=
  (∀ (s b : State) (q : QueueId) (d : Desc) (o : Op), b.runCause o = 0 →
     let run := (List.range (fld d 159 128)).map (· + ctAddr d / 65536)
     let ends := fun (i : Instr) (g : BitVec 64 → BitVec 64) => ∃ t, exec i s = .next t
       ∧ (∀ p ∈ run, SMap.get dirReset t.dir p = g (b.page p)) ∧ (∀ p, p ∉ run → SMap.get dirReset t.dir p = SMap.get dirReset b.dir p)
       ∧ t.dirLag = b.dirLag ++ run ∧ (∃ z ∈ t.ops, z.ref = o.ref ∧ z.lag = run) ∧ t.queues = b.queues
       ∧ (∀ a, (a < ctAddr d ∨ ctAddr d + fld d 159 128 * 65536 ≤ a) → memByte t.mem a = memByte b.mem a)
     (Control s q d 0x23 o b → b.quotaExcess o.fn d = 0 → (∀ p ∈ run, pgTier (b.page p) = 0 ∧ p ∉ b.scrubs) →
       ends (.claim q d) (fun _ => BitVec.ofNat 64 ((if region (ctAddr d) = .companion then 2 else 1) + o.fn.val * 4
         + (b.fn o.fn).sec.keyGen.toNat % 2 * 2 ^ 9 + 0xFF * 2 ^ 10))
       ∧ ∃ t, exec (.claim q d) s = .next t ∧ ∀ k < fld d 159 128 * 65536, memByte t.mem (ctAddr d + k) = 0)
     ∧ ((∀ p ∈ run, b.ownedCause o.fn true p = 0) →
       (Control s q d 0x24 o b → fld d 167 160 ≠ 0xFF → (∀ p ∈ run, pgMove (b.page p) ≠ 1 ∧ pgMove (b.page p) ≠ 3) →
         ends (.share q d) (fun e => withFld (withFld e 8 8 1) 17 10 (fld d 167 160)))
       ∧ (Control s q d 0x25 o b → ends (.unshare q d) (fun e => withFld (withFld e 8 8 0) 17 10 0xFF))
       ∧ (Control s q d 0x26 o b → (∀ p ∈ run, pgMove (b.page p) ≠ 3) → ends (.release q d) (fun e => withFld e 28 26 2))))
  ∧ (∀ (s b : State) (q : QueueId) (d : Desc) (o : Op), Control s q d 0x23 o b → b.runCause o = 0 →
     let run := (List.range (fld d 159 128)).map (· + ctAddr d / 65536)
     (b.quotaExcess o.fn d ≠ 0 → ∃ t, exec (.claim q d) s = .next t ∧ (o.pages = [] → o.fills = [] → t.dir = b.dir)
       ∧ t.lastCpl = some { queue := q, opId := BitVec.ofNat 16 (fld d 51 36), status := 1, cause := 0x46, count := 0,
                            detail := b.quotaExcess o.fn d % 2 ^ 32 })
     ∧ (b.quotaExcess o.fn d = 0 → ∀ p ∈ run, (pgTier (b.page p) ≠ 0 ∨ p ∈ b.scrubs) →
       (∀ p' ∈ run, p' < p → pgTier (b.page p') = 0 ∧ p' ∉ b.scrubs) →
       exec (.claim q d) s = .next (b.complete o 1 0x45 0 (p * 65536 % 2 ^ 64))))

/-- A page leaves its owner (R206): RELEASING and without references, it joins the pages being scrubbed; a scrub that reads back clean
leaves it free, its 64 KiB zero, one that does not leaves it waiting. Others stay. Directory changes reach the dies in order of arrival
(R202, R207): a die takes the first 2,048 changes of its own pages and no other's; the operation whose last change it is completes.
READ_DIRECTORY writes eight bytes for each entry of a run. -/
def Obligations.PagesLeave : Prop :=
  (∀ (s : State) (page : Nat),
     (pgMove (s.page page) = 2 → pgRef (s.page page) = 0 → page ∉ s.scrubs →
       exec (.pageLeavesOwner page) s = .next { s with scrubs := s.scrubs ++ [page] })
     ∧ (¬ (pgMove (s.page page) = 2 ∧ pgRef (s.page page) = 0 ∧ page ∉ s.scrubs) → exec (.pageLeavesOwner page) s = .next s)
     ∧ (page ∈ s.scrubs → ∀ clean, ∃ t, exec (.pageScrub page clean) s = .next t
         ∧ (∀ k < 65536, memByte t.mem (page * 65536 + k) = 0)
         ∧ (∀ a, a / 65536 ≠ page → memByte t.mem a = memByte s.mem a)
         ∧ (clean = true → page ∉ t.scrubs ∧ SMap.get dirReset t.dir page = BitVec.ofNat 64 (0xFF * 2 ^ 10)
             ∧ ∀ p, p ≠ page → SMap.get dirReset t.dir p = SMap.get dirReset s.dir p)
         ∧ (clean = false → t.scrubs = s.scrubs ∧ t.dir = s.dir)))
  ∧ ((∀ (s : State) (die : DieId), ∃ t, exec (.directoryChangeApply die) s = .next t
     ∧ t.dirLag.filter (fun p => decide (dieOfPage p ≠ die.val)) = s.dirLag.filter (fun p => decide (dieOfPage p ≠ die.val))
     ∧ t.dirLag.filter (fun p => decide (dieOfPage p = die.val)) = (s.dirLag.filter (fun p => decide (dieOfPage p = die.val))).drop 2048)
   ∧ (∀ (s : State) (die : DieId) (o : Op) (p : Nat), dieOfPage p = die.val → s.dirLag = [p] → s.ops = [o] → o.lag = [p] →
       hdOp o.desc ≠ 0x25 →
       exec (.directoryChangeApply die) s = .next ({ s with dirLag := [], ops := [{ o with lag := [] }] }.done { o with lag := [] }))
   ∧ ∀ (s b : State) (q : QueueId) (d : Desc) (o : Op), Control s q d 0x27 o b → b.runCause o = 0 →
     let run := (List.range (fld d 159 128)).map (· + ctAddr d / 65536)
     let dst := fld d 235 192
     (b.isMgmt o = true ∨ ∀ p ∈ run, b.ownedCause o.fn false p = 0) → b.ctlWriteCause o dst (8 * fld d 159 128) = 0 →
     b.decideHold o.fn [(dst, 8 * fld d 159 128)] = false →
     exec (.readDirectory q d) s = .next ((b.writeDev (b.writeAddr o.fn dst) (run.flatMap (fun p => leBytes 8 (b.page p).toNat))).done o))

/-! ## Seed, mode, plans and classes -/

/-- SET_SEED and SET_MODE (R84, R140): the function takes the 64-bit seed, or the strict-tile bit, of the descriptor's BODY. LOAD_CLASS
(R65, R169): a well-formed class whose priced first and following passes fit its deadlines is kept under its number; another is not
admitted, with reason CLASS. -/
def Obligations.FunctionClasses : Prop :=
  (∀ (s b : State) (q : QueueId) (d : Desc) (o : Op),
     (Control s q d 0x03 o b →
       exec (.setSeed q d) s = .next ((b.setFn o.fn { b.fn o.fn with seed := BitVec.ofNat 64 (fld d 127 64) }).done o))
     ∧ (Control s q d 0x04 o b → exec (.setMode q d) s = .next ((b.setFn o.fn { b.fn o.fn with tileStrict := flag d 64 }).done o)))
  ∧ (∀ (s b : State) (q : QueueId) (d : Desc) (o : Op), Control s q d 0x02 o b → b.recordCause o (ctAddr d) 32 = 0 →
     let c : BitVec 256 := BitVec.ofNat 256 (b.nat (b.readAddr o.fn (ctAddr d)) 32)
     classBad c = false →
     (∀ frame p1 p2, (b.fn o.fn).serving = some frame → b.classPrices (b.fn o.fn) c (b.frame frame).record = (some p1, some p2) →
       (p1 ≤ fld c 95 64 → p2 ≤ fld c 127 96 → exec (.loadClass q d) s = .next ((b.setFn o.fn
         { b.fn o.fn with classes := SMap.put 0 (b.fn o.fn).classes (fld c 7 0) c }).complete o 0 0 0 (2 ^ 64 - 1)))
       ∧ (fld c 95 64 < p1 → p1 < 65536 → exec (.loadClass q d) s = .next (b.complete o 11 0x12 0 (2 ^ 64 - 1 + p1 * 2 ^ 64)))
       ∧ (p1 ≤ fld c 95 64 → fld c 127 96 < p2 → p2 < 65536 →
           exec (.loadClass q d) s = .next (b.complete o 11 0x12 0 (2 ^ 64 - 1 + p2 * 2 ^ 64)))))

/-- LOAD_PLAN of a plan that passes every check (R47, R52, R55, R199): the device's copy is written where space was found for it; the plan
becomes the active one where the function has none, else the pending one; DETAIL names no failing beat, no record and no excess. LOAD_PLAN
of a plan that fails (R54, R55, Table 2-7): of the checks that fail it reports the one of the lowest plan beat, of those the lowest reason
code, of those the lowest record, with its excess; nothing is admitted. -/
def Obligations.Plans : Prop :=
  (∀ (s b : State) (q : QueueId) (d : Desc) (o : Op) (copy : Nat), Control s q d 0x01 o b →
     let h : BitVec 512 := BitVec.ofNat 512 (b.nat (b.readAddr o.fn (ctAddr d)) 64)
     let n := fld h 63 48 + 1
     let events := (List.range n).map (fun i => BitVec.ofNat 256 (b.nat (b.readAddr o.fn (ctAddr d + 64 + 32 * i)) 32))
     b.recordCause o (ctAddr d) 64 = 0 → b.recordCause o (ctAddr d) (64 + 32 * n) = 0 → b.planFails o.fn h events = [] →
     b.planSpace o.fn (64 + 32 * n) = some copy →
     ∃ u : State, exec (.loadPlan q d) s = .next (u.complete o 0 0 0 (2 ^ 64 - 1))
     ∧ u.mem = (b.write copy (leBytes 64 h.toNat ++ events.flatMap (fun e => leBytes 32 e.toNat))).mem
     ∧ ((b.fn o.fn).active = none → (u.fn o.fn).active = some (Plan.admitted h events copy) ∧ (u.fn o.fn).pendingPlan = (b.fn o.fn).pendingPlan)
     ∧ ((b.fn o.fn).active.isSome → (u.fn o.fn).pendingPlan = some (Plan.admitted h events copy) ∧ (u.fn o.fn).active = (b.fn o.fn).active)
     ∧ (∀ g, g ≠ o.fn → u.fn g = b.fn g))
  ∧ (∀ (s b : State) (q : QueueId) (d : Desc) (o : Op), Control s q d 0x01 o b →
     let h : BitVec 512 := BitVec.ofNat 512 (b.nat (b.readAddr o.fn (ctAddr d)) 64)
     let n := fld h 63 48 + 1
     let fails := b.planFails o.fn h ((List.range n).map (fun i => BitVec.ofNat 256 (b.nat (b.readAddr o.fn (ctAddr d + 64 + 32 * i)) 32)))
     b.recordCause o (ctAddr d) 64 = 0 → b.recordCause o (ctAddr d) (64 + 32 * n) = 0 → fails ≠ [] →
     ∃ x ∈ fails, (∀ y ∈ fails, x.1 < y.1 ∨ (x.1 = y.1 ∧ (x.2.1 < y.2.1 ∨ (x.2.1 = y.2.1 ∧ x.2.2.1 ≤ y.2.2.1))))
     ∧ (x.2.2.2 < 65536 → exec (.loadPlan q d) s =
         .next (b.complete o 11 x.2.1 0 (x.1 % 2 ^ 32 + x.2.2.1 % 2 ^ 32 * 2 ^ 32 + x.2.2.2 * 2 ^ 64))))

/-! ## The watch table -/

/-- SET_WATCH and WRITE_WATCH (R177, R179, R190, Table 7-1): a table starts with every entry at its reset values, K 1, THRESH 12, BOOT_N
and BOOT_LEFT 16. A write takes the writable fields of each image; where it enables an entry the history is lost and BOOT_LEFT starts at
BOOT_N; the counts and the history's values stay. ROLL_HISTORY, LOAD_HISTORY and READ_WATCH (R188, R192, R193): a roll puts AMAX_RUN at
HIST_PTR, steps HIST_PTR round 16 and HIST_N up to 16, clears AMAX_RUN and takes one from BOOT_LEFT; a load takes history, pointer and
count of the image and leaves BOOT_LEFT 0; a read delivers the entries of the range, to a core's scratchpad or device memory, and clears
what is read-clear where it is told to. -/
def Obligations.WatchTables : Prop :=
  (∀ (s b : State) (q : QueueId) (d : Desc) (o : Op),
     (Control s q d 0x10 o b → b.setWatchCause o = 0 → (∀ x ∈ b.ops, x.fn = o.fn → x.flying = true → x.watched = false) →
       ∃ u : State, exec (.setWatch q d) s = .next (u.done o)
       ∧ (u.fn o.fn).watch = some (fld d 69 64, fld d 94 70, fld d 107 95) ∧ u.ops = b.ops ∧ u.regs = b.regs
       ∧ (∀ i < fld d 107 95, u.nat (llmAddr (fld d 69 64) (fld d 94 70) + 128 * i) 128
           = 16 * 2 ^ 240 + 2 ^ 258 + 12 * 2 ^ 262 + 16 * 2 ^ 292)
       ∧ (∀ a, (a < llmAddr (fld d 69 64) (fld d 94 70) ∨ llmAddr (fld d 69 64) (fld d 94 70) + 128 * fld d 107 95 ≤ a) →
           memByte u.mem a = memByte b.mem a))
     ∧ (Control s q d 0x11 o b → b.imagesCause o = 0 →
       ∃ u : State, exec (.writeWatch q d) s = .next (u.done o)
       ∧ (∀ i < fld d 151 140 + 1, ∀ a, (b.fn o.fn).watchEntry? (fld d 139 128 + i) = some a →
           let image : BitVec 1024 := BitVec.ofNat 1024 (b.nat (b.readAddr o.fn (ctAddr d) + 128 * i) 128)
           let e := b.watchRead a
           let x := u.watchRead a
           fld x 278 256 = fld image 278 256 ∧ fld x 307 292 = fld image 307 292 ∧ fld x 313 308 = fld image 313 308
           ∧ fld x 344 320 = fld image 344 320 ∧ fld x 239 0 = fld e 239 0 ∧ fld x 639 384 = fld e 639 384
           ∧ (weEnable e = 0 ∧ weEnable image = 1 → fld x 288 280 = 0 ∧ fld x 255 240 = fld image 307 292)
           ∧ (¬ (weEnable e = 0 ∧ weEnable image = 1) → fld x 288 280 = fld e 288 280 ∧ fld x 255 240 = fld e 255 240))
       ∧ u.fns = b.fns ∧ u.ops = b.ops ∧ u.regs = b.regs))
  ∧ (∀ (s b : State) (q : QueueId) (d : Desc) (o : Op),
     let n := fld d 151 140 + 1
     let first := fld d 139 128
     (Control s q d 0x13 o b → b.watchRangeBad o = false → ∃ u : State, exec (.rollHistory q d) s = .next (u.done o) ∧ u.fns = b.fns
       ∧ ∀ i < n, ∀ a, (b.fn o.fn).watchEntry? (first + i) = some a →
         let e := b.watchRead a
         let x := u.watchRead a
         let p := fld e 283 280
         fld x (399 + 16 * p) (384 + 16 * p) = fld e 239 224 ∧ fld x 283 280 = (p + 1) % 16
         ∧ fld x 288 284 = min 16 (fld e 288 284 + 1) ∧ fld x 239 224 = 0 ∧ fld x 255 240 = fld e 255 240 - 1
         ∧ fld x 223 0 = fld e 223 0 ∧ (∀ j < 16, j ≠ p → fld x (399 + 16 * j) (384 + 16 * j) = fld e (399 + 16 * j) (384 + 16 * j)))
     ∧ (Control s q d 0x14 o b → b.imagesCause o = 0 → (∀ i < n, weHistN (b.watchImage o i) ≤ 16) →
       ∃ u : State, exec (.loadHistory q d) s = .next (u.done o) ∧ u.fns = b.fns
       ∧ ∀ i < n, ∀ a, (b.fn o.fn).watchEntry? (first + i) = some a →
         let image := b.watchImage o i
         let e := b.watchRead a
         let x := u.watchRead a
         fld x 639 384 = fld image 639 384 ∧ fld x 288 280 = fld image 288 280 ∧ fld x 255 240 = 0
         ∧ fld x 239 0 = fld e 239 0 ∧ fld x 279 256 = fld e 279 256 ∧ fld x 383 289 = fld e 383 289)
     ∧ (Control s q d 0x12 o b → b.watchRangeBad o = false →
       let bs := (List.range n).flatMap (fun i => match (b.fn o.fn).watchEntry? (first + i) with
         | some a => b.bytes a 128
         | none => [])
       let ends := fun (u : State) => exec (.readWatch q d) s = .next ((if flag d 153 then
         u.mapWatch o.fn ((List.range n).map (· + first)) (fun e => withFld e 223 0 0) else u).done o)
       (flag d 152 = true → ctAddr d < 2 ^ 24 → ctAddr d + bs.length ≤ 0xC00000 → ∀ c, b.coreOf o = some c →
         b.heldBy o.fn (some o.ref) (spKey c.val (ctAddr d)) bs.length = false → ends (b.write (spKey c.val (ctAddr d)) bs))
       ∧ (flag d 152 = false → b.ctlWriteCause o (ctAddr d) bs.length = 0 → b.decideHold o.fn [(ctAddr d, bs.length)] = false →
           ends (b.writeDev (b.writeAddr o.fn (ctAddr d)) bs))))

/-! ## Frames -/

/-- DEFINE_FRAME, MEASURE_FRAME and the digest (R242, R243, R353, R354): a record whose checks pass is kept with generation 0, its digest
pending and no mortise held; a measure makes the owner's digest pending again; the digest unit leaves a pending digest valid, the hash
of the frame's layers as they lie in memory. -/
def Obligations.FrameDefined : Prop :=
  ∀ (s b : State) (q : QueueId) (d : Desc) (o : Op) (n : BitVec 8),
    (Control s q d 0x30 o b → b.recordCause o (ctAddr d) 64 = 0 →
      let r : BitVec 512 := BitVec.ofNat 512 (b.nat (b.readAddr o.fn (ctAddr d)) 64)
      b.defineCause r = 0 → ∃ u : State, exec (.defineFrame q d) s = .next (u.done o)
      ∧ (u.frame (fld r 7 0)).defined = true ∧ (u.frame (fld r 7 0)).record = withFld r 31 16 0
      ∧ (u.frame (fld r 7 0)).digestState = 1 ∧ (u.frame (fld r 7 0)).mortises = [] ∧ (u.frame (fld r 7 0)).replace = none
      ∧ (∀ k, k ≠ fld r 7 0 → u.frame k = b.frame k) ∧ u.mem = b.mem ∧ u.ops = b.ops)
    ∧ (Control s q d 0x3E o b → (b.frame (fld d 135 128)).defined = true → frOwner (b.frame (fld d 135 128)).record = o.fn.val →
      exec (.measureFrame q d) s = .next ((b.setFrame (fld d 135 128) { b.frame (fld d 135 128) with digestState := 1 }).done o))
    ∧ ((s.frame n.toNat).defined = true → (s.frame n.toNat).digestState = 1 →
      exec (.frameDigest n) s = .next (s.setFrame n.toNat { s.frame n.toNat with
        digestState := 0, digest := s.frameHash (s.frame n.toNat).record }))

/-- REPLACE_FRAME (R253, R254): the frame's generation goes up by one, the barrier stands and no layer is swapped yet; contexts that an
earlier replacement left behind and that are configured or live become stale; the operation stays in flight. Layer by layer (R253, steps 2
to 4): the next layer is swapped once every open pass of the old generation has passed it, for the first layer no drained sequence of that
generation is open, and no page of it is being re-placed; its runs take consecutive bytes of the source; the last layer ends the
replacement: the digest is pending again, the barrier gone, and the operation completes. DRAIN_LIMIT (R253): once DRAIN_LIMIT beats have
passed since a barrier, a function whose old sequence is still open counts as under the cut policy for that replacement; other
replacements and everything else stay. -/
def Obligations.FrameReplaced : Prop :=
  (∀ (s b : State) (q : QueueId) (d : Desc) (o : Op), Control s q d 0x3A o b →
     let n := fld d 135 128
     let fr := b.frame n
     fr.defined = true → frOwner fr.record = o.fn.val → b.replaceCause o = 0 →
     ∃ t, exec (.replaceFrame q d) s = .next t
     ∧ frGen (t.frame n).record = (frGen fr.record + 1) % 65536
     ∧ (∃ r, (t.frame n).replace = some r ∧ r.op = o.ref ∧ r.owner = o.fn ∧ r.swapped = 0 ∧ r.barrier = true ∧ r.base = ctAddr d
         ∧ r.stride = fld d 191 160 * 128 ∧ r.startBeat = b.beatNow)
     ∧ (∀ k, k ≠ n → t.frame k = b.frame k) ∧ t.mem = b.mem ∧ t.ops = b.ops ∧ t.queues = b.queues
     ∧ (∀ c x, (c, x) ∈ b.ctxs → cxFrame x = n → cxFrameGen x ≠ frGen fr.record → (cxState x = 1 ∨ cxState x = 2) →
         (c, withFld x 34 32 4) ∈ t.ctxs))
  ∧ (∀ (s : State) (frame : BitVec 8) (r : Replace), let fr := s.frame frame.toNat
     fr.replace = some r →
     (s.swapReady frame.toNat fr r = true → r.swapped + 1 < frLayers fr.record →
       ∃ t, exec (.layerSwap frame) s = .next t
       ∧ t.frame frame.toNat = { fr with replace := some { r with swapped := r.swapped + 1 } }
       ∧ (∀ k, k ≠ frame.toNat → t.frame k = s.frame k) ∧ t.ctxs = s.ctxs ∧ t.ops = s.ops
       ∧ (∀ a, (∀ x ∈ s.layerRuns fr.record r.swapped, a < x.1 ∨ x.1 + x.2 * 65536 ≤ a) → memByte t.mem a = memByte s.mem a)
       ∧ (∀ x, s.layerRuns fr.record r.swapped = [x] → ∀ k < x.2 * 65536,
           memByte t.mem (x.1 + k) = memByte s.mem (s.readAddr r.owner (r.base + r.swapped * r.stride) + k)))
     ∧ (s.swapReady frame.toNat fr r = true → frLayers fr.record ≤ r.swapped + 1 →
       ∃ t, exec (.layerSwap frame) s = .next t ∧ (t.frame frame.toNat).replace = none ∧ (t.frame frame.toNat).digestState = 1
       ∧ (∀ o, s.op? r.op = some o → t.ops = s.ops.eraseP (fun x => x.is r.op)))
     ∧ (s.swapReady frame.toNat fr r = true →
         (∀ x ∈ s.queues, ∀ cur, x.2.pass = some (frame.toNat, (frGen fr.record + 65535) % 65536, cur) → r.swapped < cur)
         ∧ (r.swapped = 0 → ∀ x ∈ s.queues, x.2.sequence = some (frame.toNat, (frGen fr.record + 65535) % 65536) →
             (s.fn x.2.owner).swapCut = true ∨ x.2.owner ∈ r.cut)))
  ∧ (∀ (s : State) (f : FnId), ∃ t, exec (.drainLimitExpiry f) s = .next t
     ∧ { t with frames := s.frames } = s
     ∧ t.frames.map (·.1) = s.frames.map (·.1)
     ∧ ∀ n fr r, (n, fr) ∈ s.frames → fr.replace = some r → r.startBeat + (s.fn f).drainLimit ≤ s.beatNow →
       (∃ y ∈ s.queues, y.2.sequence = some (n, (frGen fr.record + 65535) % 65536) ∧ y.2.owner = f) → f ∉ r.cut →
       (n, { fr with replace := some { r with cut := r.cut ++ [f] } }) ∈ t.frames)

/-- PASS_BEGIN, PASS_END and SET_SWAP_POLICY (R252, R253, R424): a pass begins under the frame's generation, or under the old one while no
layer is swapped and the function drains an open sequence; with FIRST a sequence and the request's arrival begin. Its end closes it,
and LAST the sequence. While the barrier stands a first pass waits. -/
def Obligations.PassesRun : Prop :=
  ∀ (s b : State) (q : QueueId) (d : Desc) (o : Op),
    let x := b.queue q.val
    let n := fld d 135 128
    let gen := frGen (b.frame n).record
    let began := fun (g : Nat) => exec (.passBegin q d) s = .next ((b.setQueue q.val { x with
        pass := some (n, g, 0), sequence := if flag d 136 then some (n, g) else x.sequence,
        request := if flag d 136 then (if hdSclass d = 0 then none else some (hdSclass d - 1, o.readBeat, 0)) else x.request }).done o)
    (Control s q d 0x3B o b → (b.frame n).defined = true → n ∈ (b.fn o.fn).frames → x.pass = none →
      ((b.frame n).replace = none → began gen)
      ∧ ∀ r, (b.frame n).replace = some r → (r.swapped ≠ 0 → began gen)
        ∧ (r.swapped = 0 → flag d 136 = false → (b.fn o.fn).swapCut = false → o.fn ∉ r.cut → began ((gen + 65535) % 65536))
        ∧ (r.swapped = 0 → flag d 136 = true → exec (.passBegin q d) s = .next (b.park (.passBegin q d) o)))
    ∧ (Control s q d 0x3C o b → x.request = none → (∃ g cur, x.pass = some (n, g, cur)) →
      exec (.passEnd q d) s = .next ((b.setQueue q.val { x with
        pass := none, sequence := if flag d 137 then none else x.sequence, request := none }).done o))
    ∧ (Control s q d 0x3C o b → ∀ cls beat passes, x.request = some (cls, beat, passes) → (∃ g cur, x.pass = some (n, g, cur)) →
      SMap.get 0 (b.fn o.fn).classes cls ≠ 0 →
      let c := SMap.get 0 (b.fn o.fn).classes cls
      exec (.passEnd q d) s = .next ((b.setQueue q.val { x with
        pass := none, sequence := if flag d 137 then none else x.sequence,
        request := if flag d 137 then none else some (cls, beat, passes + 1) }).complete o 0 0 0
          ((b.beatNow - (beat + fld c 95 64 + passes * fld c 127 96)) % 2 ^ 32)))
    ∧ (Control s q d 0x3D o b → (flag d 128 = true ∨ fld d 191 160 ≠ 0) →
      exec (.setSwapPolicy q d) s = .next ((b.setFn o.fn { b.fn o.fn with swapCut := flag d 128, drainLimit := fld d 191 160 }).done o))

/-! ## Contexts and mortises -/

/-- The states of a context (R248 to R251, Table 10-3): ACTIVATE takes a configured one live, BEGIN_TRAINING a configured or live one with
a second side and optimizer state into training, END_TRAINING of a function without a job one in training live, RELEASE_CONTEXT any but a
free one to releasing; END_TRAINING of a job's function waits for the step boundary. A context outside the function's range is refused
with CTX_RANGE, one in another state with CTX_STATE. The scrub of a released context (R173, R251): with no reference left its mortises are
free, its slices leave every cache, and a clean read-back leaves the descriptor at its reset value; until then nothing changes. -/
def Obligations.ContextStates : Prop :=
  (∀ (s b : State) (q : QueueId) (d : Desc) (o : Op),
     let c := fld d 143 128
     let x := b.ctx c
     let goes := fun (st : Nat) => (b.setCtx c (withFld x 34 32 st)).done o
     let known := (b.fn o.fn).hasCtx c = true
     (Control s q d 0x32 o b →
       (known → cxState x = 1 → exec (.activate q d) s = .next (goes 2))
       ∧ (¬ known → exec (.activate q d) s = .next (b.faultOp o 0x58))
       ∧ (known → cxState x ≠ 1 → exec (.activate q d) s = .next (b.faultOp o 0x59)))
     ∧ (Control s q d 0x33 o b → known → (cxState x = 1 ∨ cxState x = 2) →
       (cxSlice1 x ≠ 0 → cxOptAddr x ≠ 0 → exec (.beginTraining q d) s = .next (goes 3))
       ∧ (cxSlice1 x = 0 ∨ cxOptAddr x = 0 → exec (.beginTraining q d) s = .next (b.faultOp o 0x5B)))
     ∧ (Control s q d 0x34 o b → known → cxState x = 3 →
       (b.mapped o.fn = false → exec (.endTraining q d) s = .next (goes 2))
       ∧ (b.mapped o.fn = true → c ∉ (b.fn o.fn).step.ending →
           exec (.endTraining q d) s = .next ((b.modStep o.fn (fun st => { st with ending := st.ending ++ [c] })).done o)))
     ∧ (Control s q d 0x38 o b → known → 1 ≤ cxState x → cxState x ≤ 4 → exec (.releaseContext q d) s = .next (goes 5)))
  ∧ (∀ (s : State) (ctx : BitVec 16),
     let c := ctx.toNat
     (cxState (s.ctx c) = 5 → cxRefs (s.ctx c) = 0 → ∃ t, exec (.contextScrub ctx true) s = .next t
       ∧ t.ctx c = ctxReset ∧ (∀ k, k ≠ c → t.ctx k = s.ctx k)
       ∧ (∀ n m, SMap.get 0 (t.frame n).mortises m ≠ c + 1)
       ∧ (∀ f, ∀ x ∈ (t.fn f).slices, x.ctx ≠ c) ∧ t.ops = s.ops ∧ t.queues = s.queues)
     ∧ ((cxState (s.ctx c) ≠ 5 ∨ cxRefs (s.ctx c) ≠ 0) → ∀ clean, exec (.contextScrub ctx clean) s = .next s))

/-- CONFIGURE_CONTEXT (R172, R249, Table 10-2): an image whose checks pass leaves the descriptor configured, owned by the function, in
epoch 0 and of the frame's generation, with the image's formats, ranks, addresses and claims and its own REFS; every layer of every
claim is bound to the context in its frame's mortise table, and no mortise stays bound to it elsewhere. A refused claim set binds
nothing. -/
def Obligations.ContextConfigured : Prop :=
  ∀ (s b : State) (q : QueueId) (d : Desc) (o : Op), Control s q d 0x31 o b → b.recordCause o (ctAddr d) 128 = 0 →
    let c := fld d 143 128
    let r : BitVec 1024 := BitVec.ofNat 1024 (b.nat (b.readAddr o.fn (ctAddr d)) 128)
    (b.fn o.fn).hasCtx c = true → (cxState (b.ctx c) = 0 ∨ cxState (b.ctx c) = 4) →
    ((∀ x ∈ b.configureCauses o.fn c r, x.1 = false) →
      ∃ u : State, exec (.configureContext q d) s = .next (u.done o)
      ∧ cxState (u.ctx c) = 1 ∧ cxOwner (u.ctx c) = o.fn.val ∧ cxEpoch (u.ctx c) = 0 ∧ cxFrame (u.ctx c) = cxFrame r
      ∧ cxFrameGen (u.ctx c) = frGen (b.frame (cxFrame r)).record ∧ cxWFmt (u.ctx c) = cxWFmt r ∧ cxScale (u.ctx c) = cxScale r
      ∧ cxRanks (u.ctx c) = cxRanks r ∧ cxSlice0 (u.ctx c) = cxSlice0 r ∧ cxSliceStride (u.ctx c) = cxSliceStride r
      ∧ cxSlice1 (u.ctx c) = cxSlice1 r ∧ cxOptAddr (u.ctx c) = cxOptAddr r ∧ fld (u.ctx c) 703 448 = fld r 703 448
      ∧ cxRefs (u.ctx c) = cxRefs (b.ctx c)
      ∧ (∀ k, k ≠ c → u.ctx k = b.ctx k)
      ∧ (∀ x ∈ cxClaims r, ∀ l, x.first ≤ l → l ≤ x.last → SMap.get 0 (u.frame (cxFrame r)).mortises (l * 64 + x.mortise) = c + 1)
      ∧ u.mem = b.mem ∧ u.ops = b.ops)
    ∧ (∀ cause, 0x30 ≤ cause → cause ≤ 0x33 → b.claimsRefusal o.fn (cxFrame r) c [] (cxClaims r) = cause → (b.frame (cxFrame r)).defined = true →
      ∃ u : State, exec (.configureContext q d) s = .next (u.faultOp o cause) ∧ u.frames = b.frames ∧ u.ctxs = b.ctxs)

/-- RELOCATE, PROMOTE, PROBE_CHECK and READ_CONTEXT (R246, R248, R255, R256): a relocation changes SLICE0 and the stride alone; a promotion
changes no descriptor, no memory and no page; a probe that agrees in every row gives a stale generation's context the frame's, one that
fails leaves it stale with the first failing row in DETAIL; a read writes the 128 bytes of the descriptor with its own id, of which the
management role sees the low 35 bits for a confidential function. -/
def Obligations.ContextChecks : Prop :=
  ∀ (s b : State) (q : QueueId) (d : Desc) (o : Op),
    let c := fld d 143 128
    let x := b.ctx c
    let fr := b.frame (cxFrame x)
    let known := (b.fn o.fn).hasCtx c = true
    let moved := withFld (withFld x 171 128 (ctAddr d)) 195 172 (fld d 183 160)
    (Control s q d 0x35 o b → known → cxState x ∈ [1, 2, 4] → fr.defined = true → cxFrame x ∈ (b.fn o.fn).frames →
      ctxShapeBad fr moved = false → b.ctxPlaced o.fn fr moved = true → exec (.relocate q d) s = .next ((b.setCtx c moved).done o))
    ∧ (Control s q d 0x36 o b → known → cxState x ∈ [2, 3] → fld d 151 144 ≤ fld d 159 152 → fld d 159 152 < frLayers fr.record →
      (∀ z ∈ b.layerSlices c (fld d 151 144) (fld d 159 152), b.gatherCause o.fn z = 0 ∧ b.gatherWaits o.fn z = false) →
      ∃ u : State, exec (.promote q d) s = .next (u.done o) ∧ u.ctxs = b.ctxs ∧ u.mem = b.mem ∧ u.dir = b.dir ∧ u.ops = b.ops)
    ∧ (Control s q d 0x37 o b → known → cxState x ∈ [1, 2] → cxFrameGen x ≠ frGen fr.record →
      fld d 167 144 + 4 * cxProbeRows x ≤ 0xC00000 → ∀ k, b.coreOf o = some k →
      let agrees := fun (i : Nat) =>
        let v := b.nat (spKey k.val (fld d 167 144) + 4 * i) 4
        let w := b.nat (b.readAddr o.fn (cxProbeAddr x) + 4 * i) 4
        probePass fr.record (v % 65536) (w % 65536) = true ∧ probePass fr.record (v / 65536) (w / 65536) = true
      ((∀ i < cxProbeRows x, agrees i) →
        exec (.probeCheck q d) s = .next ((b.setCtx c (withFld x 115 100 (frGen fr.record))).done o))
      ∧ (∀ i < cxProbeRows x, ¬ agrees i → (∀ j < i, agrees j) →
        exec (.probeCheck q d) s = .next ((((b.setCtx c (withFld x 34 32 4)).count 0x506C).raise 0x5000 1).complete o 1 0x5F 0 i)))
    ∧ (Control s q d 0x39 o b → (b.isMgmt o = true ∨ known) → b.ctlWriteCause o (ctAddr d) 128 = 0 →
      b.decideHold o.fn [(ctAddr d, 128)] = false →
      let shown := if b.isMgmt o = true ∧ (b.fn (fnId (cxOwner x))).sec.confidential = true
        then (withFld x 15 0 c).toNat % 2 ^ 35 else (withFld x 15 0 c).toNat
      exec (.readContext q d) s = .next ((b.writeDev (b.writeAddr o.fn (ctAddr d)) (leBytes 128 shown)).done o))

/-! ## Queues and the Darlek link -/

/-- SET_QUEUE, SET_COALESCE, SET_EVENT_VECTOR (R416, R417, R427, R428): a record whose checks pass is kept; enabling a queue empties it, HEAD
and TAIL at the value of the tail line, which goes to the head line, and starts the completion index at 0; no other queue changes.
Coalescing and event vector are the function's own, or the management role's on a management queue. -/
def Obligations.QueueSet : Prop :=
  ∀ (s b : State) (q : QueueId) (d : Desc) (o : Op),
    (Control s q d 0x5A o b → b.recordCause o (ctAddr d) 64 = 0 →
      let r : BitVec 512 := BitVec.ofNat 512 (b.nat (b.readAddr o.fn (ctAddr d)) 64)
      let n := fld r 309 300
      let line := fun (a : Nat) => compKey (a / 64 * 64)
      let tail : Word := BitVec.ofNat 32 (b.nat (line (fld r 90 48)) 4)
      b.setQueueCause o r = 0 → ∃ u : State, exec (.setQueue q d) s = .next (u.done o)
      ∧ (u.queue n).record = r ∧ (u.queue n).set = true ∧ (u.queue n).stopped = false ∧ (∀ k, k ≠ n → u.queue k = b.queue k)
      ∧ (flag r 316 = true → (u.queue n).head = tail ∧ (u.queue n).tail = tail ∧ (u.queue n).cplIndex = 0 ∧ (u.queue n).cplHead = 0
          ∧ (u.queue n).waiting = [] ∧ u.nat (line (fld r 133 91)) 4 = tail.toNat
          ∧ (∀ a, (a < line (fld r 133 91) ∨ line (fld r 133 91) + 4 ≤ a) → memByte u.mem a = memByte b.mem a))
      ∧ (flag r 316 = false → u.mem = b.mem ∧ (u.queue n).head = (b.queue n).head ∧ (u.queue n).cplIndex = (b.queue n).cplIndex))
    ∧ (Control s q d 0x5B o b →
      (b.isMgmt o = true → exec (.setCoalesce q d) s = .next ({ b with mgmtCoalesce := (fld d 135 128 + 1, fld d 151 136) }.done o))
      ∧ (b.isMgmt o = false → exec (.setCoalesce q d) s = .next ((b.setFn o.fn { b.fn o.fn with
          coalesceCount := fld d 135 128 + 1, coalesceTime := fld d 151 136 }).done o)))
    ∧ (Control s q d 0x5C o b →
      (b.isMgmt o = true → exec (.setEventVector q d) s = .next ({ b with mgmtEvent := (fld d 106 64, BitVec.ofNat 32 (fld d 159 128)) }.done o))
      ∧ (b.isMgmt o = false → exec (.setEventVector q d) s = .next ((b.setFn o.fn { b.fn o.fn with
          eventAddr := fld d 106 64, eventData := BitVec.ofNat 32 (fld d 159 128) }).done o)))

/-- The watchers (R417 to R419, R422, R425, R427): a tail more than the ring's length ahead stops the queue and reads nothing; another is
taken, and where one descriptor stands before it, the queue is read, room is left and the header passes, that descriptor becomes one more
outstanding operation, HEAD follows and goes to the head line. A completion head is taken, and with the ring empty one waiting record goes
out. The coalescing timer sends the interrupt of pending records. -/
def Obligations.QueueWatched : Prop :=
  ∀ (s : State) (q : QueueId) (w : Word), let x := s.queue q.val
    let line := fun (a : Nat) => compKey (a / 64 * 64)
    let m := s.write (line (fld x.record 90 48)) (leBytes 4 w.toNat)
    let d : Desc := BitVec.ofNat 512 (m.nat (compKey (fld x.record 42 0 + 64 * (x.head.toNat % 2 ^ fld x.record 47 43))) 64)
    let u := m.setQueue q.val { x with tail := w }
    (x.enabled = true → x.stopped = false → 2 ^ fld x.record 47 43 < (w - x.head).toNat →
      ∃ t, exec (.tailWrite q w) s = .next t ∧ (t.queue q.val).stopped = true ∧ (t.queue q.val).head = x.head ∧ t.ops = s.ops)
    ∧ (x.enabled = true → x.stopped = false → w = x.head + 1 → u.dispatching q = true → u.room x.mgmt x.owner = true → u.headerCause q d = 0 →
      ∃ t, exec (.tailWrite q w) s = .next t ∧ (t.queue q.val).head = w ∧ (t.queue q.val).tail = w
      ∧ t.ops = s.ops ++ [{ Op.new q s.nextOp d (s.actsFor q d) with readBeat := s.beatNow }] ∧ t.nextOp = s.nextOp + 1
      ∧ t.nat (line (fld x.record 133 91)) 4 = w.toNat ∧ (∀ k, k ≠ q.val → t.queue k = s.queue k))
    ∧ (x.set = true → x.waiting = [] → ∃ t, exec (.cplHeadWrite q w) s = .next t
      ∧ t.queues = (s.setQueue q.val { x with cplHead := w }).queues
      ∧ t.nat (line (fld x.record 224 182)) 4 = w.toNat ∧ t.ops = s.ops ∧ t.regs = s.regs)
    ∧ (x.set = true → w = x.cplIndex → ∀ r, x.waiting = [r] → flag r 511 = false → ∃ t, exec (.cplHeadWrite q w) s = .next t
      ∧ (t.queue q.val).waiting = [] ∧ (t.queue q.val).cplHead = w ∧ (t.queue q.val).cplIndex = x.cplIndex + 1)
    ∧ (x.timer = true → x.irqPending ≠ 0 → exec (.coalesceTimer q) s = .next (
      let u := s.setQueue q.val { x with irqPending := 0, timer := false }
      if fld x.record 267 225 = 0 then u else u.write (compKey (fld x.record 267 225)) (leBytes 4 (fld x.record 299 268))))

/-- Companion writes and the link (R201, R411, R413, R429): a line that no queue watches and no page of which is tiered takes its 64 bytes;
a snoop counts at the lowest port that is up, a bad flit at its port; a port keeps the lanes it trained at, none while its clock stands;
with both ports down the device fault 0x72C2 is raised. -/
def Obligations.DarlekLink : Prop :=
  ∀ (s : State) (addr : BitVec 43) (data : BitVec 512) (port : Fin 2) (lanes : Fin 3) (ok : Bool),
    let line := addr.toNat / 64 * 64
    let up := fun (p : Nat) => 2 ≤ (if p = 0 then s.boot.dlk0 else s.boot.dlk1)
    (pgTier (s.page (compKey line / 65536)) ≠ 2 → (∀ x ∈ s.queues, fld x.2.record 90 48 / 64 * 64 ≠ line ∧ fld x.2.record 224 182 / 64 * 64 ≠ line) →
      ∃ t, exec (.companionLineWrite addr data) s = .next t ∧ t.nat (compKey line) 64 = data.toNat
      ∧ (∀ a, (a < compKey line ∨ compKey line + 64 ≤ a) → memByte t.mem a = memByte s.mem a) ∧ t.queues = s.queues ∧ t.ops = s.ops)
    ∧ (up 0 → exec (.snoop addr) s = .next (s.count 0x60004C)) ∧ (¬ up 0 → up 1 → exec (.snoop addr) s = .next (s.count 0x60104C))
    ∧ (up port.val → exec (.flit port false) s = .next (s.count (0x600044 + 0x1000 * port.val)))
    ∧ (ok = true ∨ ¬ up port.val → exec (.flit port ok) s = .next s)
    ∧ (∃ t, exec (.darlekPortLoss port lanes) s = .next t
      ∧ (if port = 0 then t.boot.dlk0 else t.boot.dlk1)
          = (if s.boot.clocks.getLsbD port.val = false ∨ lanes = 0 then 0 else lanes.val + 1)
      ∧ (if port = 0 then t.boot.dlk1 = s.boot.dlk1 else t.boot.dlk0 = s.boot.dlk0) ∧ t.ops = s.ops)
    ∧ (s.boot.dlk0 = 0 → s.boot.dlk1 = 0 → s.boot.fault = false → ∃ t, exec .darlekLinkLoss s = .next t
      ∧ t.boot.fault = true ∧ t.boot.faultCode = 0x72C2 ∧ t.boot.st = s.boot.st)
    ∧ ((s.boot.dlk0 ≠ 0 ∨ s.boot.dlk1 ≠ 0) → exec .darlekLinkLoss s = .next s)

/-! ## Step commit -/

/-- At the master (R324, R325, R328): a READY of a job whose step is not decided is kept with its origin; the last one decides commit, and
the first vote decides abort with its cause, the fourth abort of one step being final. The decision is sent to the backup where there is
one, else broadcast. A package that is not the master passes READY and VOTE up the tree. -/
def Obligations.MasterDecides : Prop :=
  ∀ (s : State) (msg : BitVec 256),
    let job := bmArg1 msg
    let step := bmNumber msg
    let j := s.job job
    let out := fun (u : State) (x : Decision) =>
      if u.hasBackup then u.sendMgmt u.beat.backup.toNat (u.decisionPayload job x) else u.broadcast job x
    let decided := fun (x : Decision) (k : MasterJob) => s.setJob job { k with
      decision := some x, lastStep := x.step, aborts := x.aborts.toNat, readies := [], closed := true, sentBeat := s.beatNow, echoed := !s.hasBackup }
    (s.isMaster = true → bmKind msg = 5 → j.members ≠ 0 → j.ignores step = false → BitVec.ofNat 16 (bmOrigin msg) ∉ j.readies →
      let k := { j with readies := j.readies ++ [BitVec.ofNat 16 (bmOrigin msg)] }
      let x : Decision := { isCommit := true, step := BitVec.ofNat 64 step, cause := 0, aborts := 0, final := false }
      (j.readies.length + 1 < j.members → exec (.ready msg) s = .next (s.setJob job k))
      ∧ (j.members ≤ j.readies.length + 1 → exec (.ready msg) s = .next (out ((decided x k).shiftPower job step) x)))
    ∧ (s.isMaster = true → bmKind msg = 8 → j.ignores step = false →
      let aborts := (if j.lastStep.toNat = step then j.aborts else 0) + 1
      let x : Decision := {
        isCommit := false, step := BitVec.ofNat 64 step, cause := BitVec.ofNat 8 (bmArg2 msg % 256), aborts := BitVec.ofNat 8 aborts,
        final := decide (4 ≤ aborts) }
      exec (.vote msg) s = .next (out (decided x j) x))
    ∧ (s.isMaster = false → (bmKind msg = 5 → exec (.ready msg) s = .next (s.sendUpTree msg))
        ∧ (bmKind msg = 8 → exec (.vote msg) s = .next (s.sendUpTree msg)))

/-- Master and backup (R324, R325): the backup holds the decision it is sent, one for each job, and echoes it; the master broadcasts a
decision once its backup has echoed that step; with no echo for 2L beats the backup counts as failed and another is sent the decision, or
with none the decision goes out. JOB_REG sets or removes a job's member count. -/
def Obligations.BackupHolds : Prop :=
  ∀ (s : State) (src : BitVec 16) (job : Word) (step : BitVec 64) (isCommit : Bool) (cause aborts : Byte) (final : Bool) (msg : BitVec 128),
    let j := s.job job.toNat
    (s.isBackup = true →
      let x : Decision := { isCommit := isCommit, step := step, cause := cause, aborts := aborts, final := final }
      exec (.decisionMessage src job step isCommit cause aborts final) s = .next ({ s with beat := { s.beat with
        held := s.beat.held.filter (fun h : Word × Decision => decide (h.1 ≠ job)) ++ [(job, x)] } }.sendMgmt src.toNat (s.decisionPayload job.toNat x)))
    ∧ (∀ x, s.isMaster = true → j.echoed = false → j.decision = some x →
      (src = s.beat.backup → x.step = step →
        exec (.decisionEcho src job step) s = .next ((s.setJob job.toNat { j with echoed := true }).broadcast job.toNat x))
      ∧ (src ≠ s.beat.backup ∨ x.step ≠ step → exec (.decisionEcho src job step) s = .next s)
      ∧ (j.sentBeat + 2 * s.beat.lead ≤ s.beatNow → ∃ t u : State, exec (.echoTimeout job) s = .next t
          ∧ u.beat.failedBackups = s.beat.failedBackups ++ [s.beat.backup] ∧ (u.job job.toNat).sentBeat = s.beatNow
          ∧ t = if u.hasBackup then u.sendMgmt u.beat.backup.toNat (u.decisionPayload job.toNat x)
              else (u.setJob job.toNat { u.job job.toNat with echoed := true }).broadcast job.toNat x))
    ∧ (s.isMaster = true ∨ s.isBackup = true →
      let k := field msg.toNat 31 0
      (field msg.toNat 48 48 = 1 → exec (.jobReg src msg) s = .next (s.setJob k { s.job k with members := 0 }))
      ∧ (field msg.toNat 48 48 = 0 → (s.job k).members ≠ 0 →
          exec (.jobReg src msg) s = .next (s.setJob k { s.job k with members := field msg.toNat 47 32 + 1 })))

/-- A decision on its way (R270, R325, R327): taken from the parent, a COMMIT or ABORT goes on to the children and is held by every
function of the job whose open step it names; from another port it goes no further. Held, it is in the function's step state where the
COMMIT event has still to come. Applied, a COMMIT flips the epoch and advances the step; an ABORT keeps both and counts. -/
def Obligations.DecisionsHeld : Prop :=
  (∀ (s : State) (port : PortId) (msg : BitVec 256), (s.port port.val).st = 3 →
    let taken := fun (x : Decision) => if s.beat.parent = some port then ((s.took port.val 0 2).sendDown msg).holdDecision (bmArg1 msg) x
      else s.took port.val 0 2
    (bmKind msg = 6 → exec (.commit port msg) s = .next (taken
      { isCommit := true, step := BitVec.ofNat 64 (bmNumber msg), cause := BitVec.ofNat 8 (bmArg2 msg),
        aborts := BitVec.ofNat 8 (bmArg2 msg / 256), final := (bmArg2 msg).testBit 16 }))
    ∧ (bmKind msg = 7 → exec (.abort port msg) s = .next (taken
      { isCommit := false, step := BitVec.ofNat 64 (bmNumber msg), cause := BitVec.ofNat 8 (bmArg2 msg),
        aborts := BitVec.ofNat 8 (bmArg2 msg / 256), final := (bmArg2 msg).testBit 16 })))
  ∧ (∀ (s : State) (f : FnId) (job : Nat) (x : Decision), x.isCommit = true → s.jobFns job = [f] → (s.fn f).step.decision = none →
    (s.fn f).step.commitBeat = none →
    (s.openStep f = x.step.toNat → (s.holdDecision job x).fn f = (s.fn f).modStep (fun st => { st with decision := some x }))
    ∧ (s.openStep f ≠ x.step.toNat → s.holdDecision job x = s))
  ∧ ∀ (s : State) (f : FnId) (x : Decision), let st := (s.fn f).step
    let st' := ((s.applyDecision f x).fn f).step
    (x.isCommit = true → st'.epoch = !st.epoch ∧ st'.step = st.step + 1 ∧ st'.aborts = 0 ∧ st'.fail = false ∧ st'.decision = none)
    ∧ (x.isCommit = false → st'.epoch = st.epoch ∧ st'.step = st.step ∧ st'.aborts = x.aborts.toNat ∧ st'.lastCause = x.cause.toNat
        ∧ st'.decision = none)

/-- The member (R321, R323, R329, R388 to R390): REPORT_READY waits for the function's earlier operations; it ends with step failed after a
failure, with aborted after a decision, and otherwise sends the READY once. SET_EPOCH_PAIR adds a pair. A slack report joins those of the
master, one for each chip; a new power offset waits for the boundary. A member that sent READY and holds no decision 4,096 beats after its
COMMIT event leaves the job broken. -/
def Obligations.MemberReports : Prop :=
  ∀ (s b : State) (q : QueueId) (d : Desc) (o : Op) (f : FnId) (job : Word) (msg : BitVec 256) (offset : BitVec 12),
    let st := (b.fn o.fn).step
    (Control s q d 0x46 o b →
      (b.issuedBefore o = true → exec (.reportReady q d) s = .next (b.park (.reportReady q d) o))
      ∧ (b.issuedBefore o = false → st.fail = true → exec (.reportReady q d) s = .next (b.complete o 9 0 0 0))
      ∧ (b.issuedBefore o = false → st.fail = false → st.decision.isSome = true → exec (.reportReady q d) s = .next (b.complete o 8 0 0 0))
      ∧ (b.issuedBefore o = false → st.fail = false → st.decision = none → flag d 64 = false → b.mapped o.fn = false →
          exec (.reportReady q d) s = .next (b.done o))
      ∧ (b.issuedBefore o = false → st.fail = false → st.decision = none → flag d 64 = false → b.mapped o.fn = true →
          b.power.groupOn = false → exec (.reportReady q d) s = .next (((b.modStep o.fn (fun st => { st with sent := true, ready := true })).toMaster
            5 (b.openStep o.fn) (jmJobId (b.fn o.fn).job.map) (((b.fn o.fn).active.map (fun p => fld p.header 47 32)).getD 0)).done o)))
    ∧ (Control s q d 0x45 o b → b.pairCause o = 0 → exec (.setEpochPair q d) s = .next ((b.modStep o.fn (fun st => { st with
        pairs := st.pairs ++ [(ctAddr d, fld d 171 128, fld d 203 172 * 128)] })).done o))
    ∧ (s.isMaster = true → ∃ t, exec (.pwrSlack msg) s = .next t
        ∧ (t.job (fld msg 31 0)).slacks = (s.job (fld msg 31 0)).slacks.filter (fun r => decide (fld r 143 128 ≠ fld msg 143 128)) ++ [msg])
    ∧ (s.power.groupOn = true → s.power.groupJob = job →
        exec (.pwrShift job offset) s = .next { s with power := { s.power with nextOffset := some offset.toInt } })
    ∧ (∀ c, (s.fn f).step.commitBeat = some c → (s.fn f).step.ready = true → (s.fn f).step.decision = none → c + 4096 ≤ s.beatNow →
        (s.fn f).job.st ≠ 3 → ∃ t, exec (.decideLost f) s = .next t ∧ (t.fn f).job.st = 3
          ∧ ((s.ops.map Op.ref).Nodup → ∀ o ∈ t.ops, o.fn = f → o.reports = false))

/-! ## Jobs -/

/-- SET_JOB_MAP, SET_STAGE_QUEUE, STAGE_FREE (R281, R290, R291): a map whose checks pass is the function's at once where no step is open, and
waits for the boundary where one is; a failing one changes no job. A stage queue starts empty with full credit; a bad record is refused
with STAGE_QUEUE. A freed slot's message number leaves the queue and its credit goes to the sending end. -/
def Obligations.JobSet : Prop :=
  ∀ (s b : State) (q : QueueId) (d : Desc) (o : Op), let f := o.fn
    (Control s q d 0x40 o b → b.recordCause o (ctAddr d) 64 = 0 →
      let m : BitVec 512 := BitVec.ofNat 512 (b.record o 64)
      (b.jobMapCause f m ≠ 0 → exec (.setJobMap q d) s = .next (b.faultOp o (b.jobMapCause f m)))
      ∧ (b.jobMapCause f m = 0 → jmJobId m ≠ 0 → b.stepOpen f = true → ∃ t, exec (.setJobMap q d) s = .next t
          ∧ (t.fn f).job = { (b.fn f).job with pendingMap := some m })
      ∧ (b.jobMapCause f m = 0 → jmJobId m ≠ 0 → b.stepOpen f = false → ∃ t, exec (.setJobMap q d) s = .next t
          ∧ (t.fn f).job.map = m ∧ (t.fn f).job.pendingMap = none ∧ (t.fn f).job.topo = b.partnerMask
          ∧ (t.fn f).job.st = if (b.fn f).job.st = 3 then 3 else 1))
    ∧ (Control s q d 0x41 o b → b.recordCause o (ctAddr d) 32 = 0 →
      let r : BitVec 256 := BitVec.ofNat 256 (b.record o 32)
      (b.stageQueueBad f r = true → exec (.setStageQueue q d) s = .next (b.faultOp o 0x74))
      ∧ (b.stageQueueBad f r = false → ∃ u : State, exec (.setStageQueue q d) s = .next (u.done o)
          ∧ u.stageQ? f (sqQid r) = some { record := r, credits := sqDepthM1 r + 1, nextMb := 0, held := [] }
          ∧ (∀ k, k ≠ sqQid r → u.stageQ? f k = b.stageQ? f k) ∧ u.mem = b.mem))
    ∧ (Control s q d 0x42 o b → ∀ x, b.stageQ? f (sgFreeQid d) = some x → sqEnd x.record = 0 → sgFreeMb d ∈ x.held →
      ∃ u : State, exec (.stageFree q d) s = .next ((u.sendNext f o.ref (sqPort x.record) (dataSub (sgFreeQid d) 2 (sgFreeMb d)) []).done o)
      ∧ u.stageQ? f (sgFreeQid d) = some { x with held := x.held.filter (fun m => decide (m ≠ sgFreeMb d)) }
      ∧ (∀ k, k ≠ sgFreeQid d → u.stageQ? f k = b.stageQ? f k) ∧ u.mem = b.mem ∧ u.ports = b.ports)

/-- SAVE_CHECKPOINT and RESTORE_CHECKPOINT (R299 to R301): with no open step the record goes to memory at once and the function keeps the step
it was taken at; within one it waits for the boundary. A restore whose regions and digest agree takes them, the step, the seed, epoch side
0, and makes a job mapped anew whole; one that does not agree leaves the function's state and ends with CKPT_INVALID. -/
def Obligations.Checkpoints : Prop :=
  ∀ (s b : State) (q : QueueId) (d : Desc) (o : Op) (c : CoreId), OnCore b o c →
    let f := o.fn
    let list := b.regionList (spKey c.val (ckOff d)) (ckRegions d)
    (Control s q d 0x43 o b → b.saveCause o list = 0 →
      (b.stepOpen f = false → ∃ u : State, exec (.saveCheckpoint q d) s = .next ((u.done o).raise (pageJobf f.val) 2)
        ∧ u.mem = memWrite b.mem (ctAddr d) (b.checkpointBytes f list (fld d 175 164) (fld d 188 176))
        ∧ (u.fn f).job = { (b.fn f).job with ckptStep := (b.fn f).step.step, save := none } ∧ u.ops = b.ops)
      ∧ (b.stepOpen f = true → (b.fn f).job.save = none → exec (.saveCheckpoint q d) s = .next (b.setFn f { b.fn f with
          job := { (b.fn f).job with save := some (o.ref, d) } })))
    ∧ (Control s q d 0x44 o b → b.restoreCause o list = 0 → b.decideHold f (list.map (fun x => (x.1, x.2.1))) = false →
      let base := b.readAddr f (ctAddr d)
      let h := b.nat base 256
      let es := b.regionEntries base (ckRegions d)
      let bodies := es.map (fun e => b.bytes (base + e.2.1) e.1)
      let good := (∀ x ∈ es.zip bodies, crc32c x.2 = x.1.2.2.1)
        ∧ Config.shake256 (b.bytes (base + 256) (recordEnd (ckRegions d) (chWatch h) es - 256)) 256 % 2 ^ 256 = field h 1023 768
      let j := (b.fn f).job
      (good → ∃ u : State, exec (.restoreCheckpoint q d) s = .next (u.done o)
        ∧ (u.fn f).step = { (b.fn f).step with step := BitVec.ofNat 64 (chStep h), epoch := false }
        ∧ (u.fn f).seed = BitVec.ofNat 64 (field h 191 128)
        ∧ (u.fn f).job = (if j.st = 3 ∧ j.remapped = true then { j with st := if jmJobId j.map = 0 then 0 else 1 } else j)
        ∧ (flag d 164 = false → u.mem = (((list.zip bodies).foldl (fun (t : State) x => (b.bothSides f x.1.1).foldl (fun t a => t.write a x.2) t) b).mem)))
      ∧ (¬ good → ∃ u : State, exec (.restoreCheckpoint q d) s = .next (u.faultOp o 0x78) ∧ u.fns = b.fns ∧ u.ops = b.ops))

/-! ## Collectives -/

/-- Collectives issue (R283, R292, R295, R305, R318, Table 2-2): a reduce takes its place on its channel behind those before it; the first of a
channel on a step that is no send step adds its sources into the accumulator and completes with status accumulated. A shard gather puts
its own shard in the store and sends it to every other member. A stage send uses one credit and the next message number of its queue. A
scarf holds its region, table and staging and starts round 0; a round that has ended starts the next, the last one the ready report. A
beat-wait for a beat that has come completes; a tagged one of a function without a plan completes with status no plan. -/
def Obligations.CollectivesIssue : Prop :=
  ∀ (s b : State) (q : QueueId) (d : Desc) (o : Op), Issues s q d o b → b.op? o.ref = some o → let f := o.fn
    (hdClass d = 4 → hdOp d = 2 → b.reduceCause o = 0 → GateOpen b o (rdReads d) (rdWrites d) →
      let ch := rdChannel d
      let x : Reduce := {
        op := o.ref, fn := f, desc := d, started := false, ended := none,
        chunks := List.replicate (if rdSends d then rdChunks d else 0) Chunk.fresh }
      let p : Op := { o with holds := b.reduceHolds f d }
      let u : State := { b.putOp p with redDone := b.redDone.filter (fun t => decide (t ≠ (f.val, ch, rdCollTag d))) }
      ((∃ y ys, b.channelReduces f ch = y :: ys ∧ y.started = true ∧ y.ended = none) →
        exec (.reduce q d) s = .next { u with reduces := b.reduces ++ [x] })
      ∧ (b.channelReduces f ch = [] → rdSends d = false → exec (.reduce q d) s = .next ({ u.accumulate x with
          reduces := b.reduces.filter (fun y => decide (y.op ≠ o.ref)), redDone := (f.val, ch, rdCollTag d) :: u.redDone }.complete p 7 0 0 0)))
    ∧ (hdClass d = 4 → hdOp d = 3 → axesOf (sgAxes d) ≠ [] → (b.fn f).job.st ≠ 0 → b.shardCause o = 0 → sgDstSp d = 0 →
      GateOpen b o [(sgSrcAddr d, sgBytes d)] (b.gatherDst f d) →
      b.tieredPages f [(b.readAddr f (sgSrcAddr d), sgBytes d)] = [] →
      b.tieredPages f ((b.gatherDst f d).map (fun r => (b.writeAddr f r.1, r.2))) = [] →
      let body := b.bytes (b.readAddr f (sgSrcAddr d)) (sgBytes d)
      let rank := (b.cut f d).2
      let name := shardName d rank
      let job := jmJobId (b.fn f).job.map
      let version := (b.fn f).step.step.toNat
      let p : Op := { o with pages := [], fills := [] }
      ∃ u v : State, exec (.shardGather q d) s = .next (v.settleGather p)
        ∧ u.mail = b.mail ++ [{ kind := 0, job := job, name := name, version := version, body := body }]
        ∧ u.mem = b.mem ∧ u.fns = b.fns ∧ u.ports = b.ports
        ∧ v = (b.cutOthers f d).foldl (fun (t : State) x =>
            t.post p x.2 (sgDstAddr d + rank * sgBytes d) 0 (mailHead job name version ++ body)) u)
    ∧ (∀ x a, hdClass d = 4 → hdOp d = 4 → b.stageSendCause o = 0 → b.stageQ? f (ssQid d) = some x → b.stageSource f d = some a →
      (ssSrcSp d = 1 → b.moving f (ssSrcCore d) = false) → x.credits ≠ 0 → b.stageWait f [(a, ssBytes d)] = false →
      GateOpen b o (if ssSrcSp d = 1 then [] else [(ssSrcAddr d, ssBytes d)]) [] →
      ∃ u : State, exec (.stageSend q d) s = .next
          ((u.sendNext f o.ref (sqPort x.record) (dataSub (ssQid d) 1 (ssMb d)) (b.bytes a (ssBytes d))).settleSend o)
        ∧ u.stageQ? f (ssQid d) = some { x with credits := x.credits - 1, nextMb := x.nextMb + 1 }
        ∧ (∀ k, k ≠ ssQid d → u.stageQ? f k = b.stageQ? f k) ∧ u.mem = b.mem ∧ u.ports = b.ports)
    ∧ (∀ c, hdClass d = 4 → hdOp d = 5 → (b.fn f).job.st ≠ 0 → b.phys? f (sfPcore d) = some c → b.scarfCause o (b.pieces f d) = 0 →
      b.moving f (sfPcore d) = false → GateOpen b o [(sfRegion d, sfBytes d)] [(sfRegion d, sfBytes d)] →
      ∃ u : State, exec (.scarf q d) s = .next ((u.startRound o 0).pumpScarf f)
        ∧ (u.fn f).job = { (b.fn f).job with st := 2, scarf := some { op := o.ref, desc := d, round := 0, written := [], done := false } }
        ∧ (∃ z ∈ u.ops, z.ref = o.ref ∧ z.holds = [(b.readAddr f (sfRegion d), sfBytes d), (b.writeAddr f (sfRegion d), sfBytes d),
            (spKey c.val (sfPieceAddr d), 16 * (sfPiecesM1 d + 1)), (llmAddr (sfStagePart d) 0, (sfStagePartsM1 d + 1) * 2 ^ 25)])
        ∧ u.mem = b.mem)
    ∧ (∀ z p, (s.fn f).job.scarf = some z → s.op? z.op = some p → z.done = false → p.cause = 0 → s.roundDone f z = true →
      (z.round = sfRoundsM1 z.desc → exec (.scarfRound f) s = .next ((s.setFn f { s.fn f with
          job := { (s.fn f).job with scarf := some { z with done := true } } }).sendReady f))
      ∧ (z.round ≠ sfRoundsM1 z.desc → exec (.scarfRound f) s = .next (((s.setFn f { s.fn f with
          job := { (s.fn f).job with scarf := some { z with round := z.round + 1, written := [] } } }).startRound p (z.round + 1)).pumpScarf f)))
    ∧ (hdClass d = 5 →
      (bwAt d ≠ 0 → exec (.beatWait q d) s = .next (if b.atBeat d then b.done o else b))
      ∧ (bwAt d = 0 → (b.fn f).active = none → exec (.beatWait q d) s = .next (b.complete o 6 0 0 0))
      ∧ (bwAt d = 0 → (b.fn f).active ≠ none → hdTag d ∉ (b.queue o.queue.val).skips → exec (.beatWait q d) s = .next b))

/-- Reduction frames (R310 to R320): a window frame, a partial or a result goes to the collective that receives on its channel, which then
goes on as far as it can; the partial of an agreed window whose residues agree joins those of its chunk under its link and element;
a partial of another window ends the collective with 0x84; one for a collective that is over is counted and dropped; one that comes before
its collective is kept. A resend frame sends the chunk's stored frames again and counts. TIMEOUT beats after issue a collective no
deadline governs ends with RED_TIMEOUT. -/
def Obligations.ReductionFrames : Prop :=
  (∀ (s : State) (port : PortId) (fr g : Frame) (f : FnId) (x : Reduce) (err : Bool),
     let freed := s.setPort port.val ((s.port port.val).accept fr)
     let goes := fun (u : State) => (u.pumpReduce x.op).flush f (fhChannel fr.hdr)
     (RedArrives s port.val fr 4 g f x → fhType g.hdr = 4 → exec (.redWindow port fr) s = .next (goes (freed.onWindow x port.val g)))
     ∧ (RedArrives s port.val fr 6 g f x → fhType g.hdr = 6 → exec (.redResult port fr) s = .next (goes (freed.onResult x port.val g)))
     ∧ (RedArrives s port.val fr 5 g f x → fhType g.hdr = 5 →
       let c := rsChunk (redHead g)
       let n := rsCountM1 (redHead g) + 1
       let words := (payloadNums g 0 8 n).map (toSigned 64)
       ∀ y l w, x.chunks[c]? = some y → freed.linkFrom x c port.val = some l → y.window = some w → c < 2 ^ 31 → y.high = [] →
       (w ≠ rsWexp (redHead g) → exec (.redPartial port fr err) s = .next (goes (freed.endReduce x.op 1 0x84)))
       ∧ (w = rsWexp (redHead g) → residuesOk g n words = true → err = false → exec (.redPartial port fr err) s = .next (goes (freed.modChunk x.op c
           (fun y => { y with
             got := y.got.filter (fun v => !(words.zipIdx.map (fun k => (l, rsFirst (redHead g) + k.2, k.1))).any (fun k =>
               decide (k.1 = v.1) && decide (k.2.1 = v.2.1))) ++ words.zipIdx.map (fun k => (l, rsFirst (redHead g) + k.2, k.1)),
             high := y.high.filter (fun h => !(decide (h.1 = port.val) && decide (h.2.1 = rsFirst (redHead g)))) }))))
       ∧ (w = rsWexp (redHead g) → residuesOk g n words = false → y.resends ≠ 0 → exec (.redPartial port fr err) s = .next
           (goes ((freed.count (pageStepf x.fn.val + 0x58)).endReduce x.op 1 0x82)))))
  ∧ (∀ (s : State) (port : PortId) (fr g : Frame) (f : FnId),
     let ch := fhChannel fr.hdr
     let freed := s.setPort port.val ((s.port port.val).accept fr)
     s.openFrame fr = some g → s.channelOwner port.val ch = some f →
     (∀ type i, (type = 4 ∧ i = Instr.redWindow port fr ∨ type = 5 ∧ i = .redPartial port fr false ∨ type = 6 ∧ i = .redResult port fr) →
       s.takes port.val fr type = true → s.channelReduces f ch = [] →
       ((f.val, ch, rsTag (redHead g)) ∈ s.redDone → exec i s = .next (freed.count (pageStepf f.val + 0x5C)))
       ∧ ((f.val, ch, rsTag (redHead g)) ∉ s.redDone → exec i s = .next (s.setPort port.val ((s.port port.val).keep fr g))))
     ∧ (s.takes port.val fr 7 = true → ∀ e, (freed.port port.val).store.find? (fun e => decide (e.1 = rsTag (redHead g))
         && decide (e.2.1 = rsChunk (redHead g))) = some e → exec (.redResend port fr) s = .next
         ((((e.2.2.foldl (fun (t : State) k => t.sendOn port.val k) freed).count (pageStepf f.val + 0x54)).raise (pageStepf f.val) 2).logFn
           0x1441 f 0 (rsChunk (redHead g)) (rsTag (redHead g)))))
  ∧ ∀ (s : State) (q : QueueId) (opId : BitVec 16) (x : Reduce) (xs : List Reduce) (o : Op), s.reduces = x :: xs → s.op? x.op = some o →
    o.named q opId = true → rdTimeout x.desc ≠ 0 → s.hasDeadline o = false →
    (o.issued + rdTimeout x.desc ≤ s.beatNow →
      exec (.reduceTimeout q opId) s = .next ((s.endReduce x.op 1 0x81).flush x.fn (rdChannel x.desc)))
    ∧ (xs = [] → s.beatNow < o.issued + rdTimeout x.desc → exec (.reduceTimeout q opId) s = .next s)

/-! ## Functions -/

/-- CREATE_FUNCTION, RESIZE, RESIZE_EFFECT, RESIZE_LAPSED (R335 to R339, R342, R494): a record whose checks pass makes a running function with
that record, a fresh key under KEY_GEN 0 and its own partitions, SCRATCH or tenon cache; with cores it waits for the cell map. A resize is
refused with the first failing check, or stands until its beat: then the record changes, FN_RESIZED is raised and the operation
completes; one no event has taken by the end of its beat completes with RESIZE_LAPSED. -/
def Obligations.FunctionsMade : Prop :=
  (∀ (s b : State) (q : QueueId) (d : Desc) (o : Op), b.recordCause o (ctAddr d) 512 = 0 →
     let f := ctFn d
     let r := b.resourceRecord o
     let x : Fn := { Fn.reset with record := r }
     (Control s q d 0x50 o b →
       (b.createCause f r ≠ 0 → exec (.createFunction q d) s = .next (b.faultOp o (b.createCause f r)))
       ∧ (b.createCause f r = 0 → ∃ t, exec (.createFunction q d) s = .next t
         ∧ (t.fn f).st = .running ∧ (t.fn f).record = r ∧ (t.fn f).sec.keyGen = 0 ∧ (t.fn f).sec.key0 = Config.freeValue b.fresh % 2 ^ 512
         ∧ (t.fn f).sec.session = (b.fn f).sec.session ∧ (t.fn f).frames = [] ∧ (t.fn f).mapOp = (if x.cores = 0 then none else some o.ref)
         ∧ (∀ p ∈ setBits 64 x.partMask, (t.part p).owner = some f ∧ (t.part p).scrubbing = false
             ∧ (t.part p).mode = if p ∈ cacheParts (setBits 64 x.partMask) then 3 else 0)
         ∧ (∀ p, p ∉ setBits 64 x.partMask → t.part p = b.part p)))
     ∧ (Control s q d 0x51 o b →
       (b.resizeCause f r ≠ 0 → exec (.resize q d) s = .next (b.faultOp o (b.resizeCause f r)))
       ∧ (b.resizeCause f r = 0 → (b.fn f).active = none → (b.fn f).pendingPlan = none → (b.fn f).classes = [] →
         (fld d 255 192 < b.beatNow + b.beat.lead →
           exec (.resize q d) s = .next (b.complete o 1 0x94 0 (packDetail [(8, 0x08), (32, 0xFFFFFFFF)])))
         ∧ (b.beatNow + b.beat.lead ≤ fld d 255 192 → b.quietUnplaced f x (x.cores - (b.fn f).cores) = false →
           exec (.resize q d) s = .next (b.setFn f { b.fn f with
             resize := some { op := o.ref, record := r, tag := BitVec.ofNat 16 (fld d 159 144), effect := BitVec.ofNat 64 (fld d 255 192) } })))))
  ∧ ∀ (s : State) (f : FnId) (z : Resize) (o : Op), (s.fn f).resize = some z → s.op? z.op = some o →
     ((s.fn f).active = none → (s.fn f).mapOp = none → z.effect.toNat ≤ s.beatNow → ∃ t u : State, exec (.resizeEffect f) s = .next t
       ∧ (u.fn f).record = z.record ∧ (u.fn f).resize = none ∧ (u.reg 0 (pageFunc f.val + 0x18)).testBit 0 = true
       ∧ t = (match u.op? z.op with | some p => u.done p | none => u))
     ∧ (s.beatNow < z.effect.toNat → exec (.resizeEffect f) s = .next s)
     ∧ ((s.fn f).active ≠ none → z.effect.toNat < s.beatNow →
       exec (.resizeLapsed f) s = .next ((s.setFn f { s.fn f with resize := none }).complete o 1 0x9B 0 0))
     ∧ (s.beatNow ≤ z.effect.toNat → exec (.resizeLapsed f) s = .next s)

/-- DISABLE, DRAIN_BEATS_EXPIRY, FUNCTION_SCRUBBING, FUNCTION_OFF (R343, R372): a function drains or is aborted; what remains at the end of its
drain beats is aborted; with nothing in flight it is scrubbed, keys first, with its partitions; with every resource returned it is off,
everything at its reset value, and the disable completes. -/
def Obligations.FunctionsDisabled : Prop :=
  (∀ (s b : State) (q : QueueId) (d : Desc) (o : Op), Control s q d 0x55 o b →
     let f := ctFn d
     let x := b.fn f
     let gone := x.st = .off ∨ x.st = .draining ∨ x.st = .aborting ∨ x.st = .scrubbing
     (fld d 191 160 = 0 → exec (.disable q d) s = .next (b.faultOp o 0xC0))
     ∧ (fld d 191 160 ≠ 0 → gone → exec (.disable q d) s = .next (b.faultOp o 0x90))
     ∧ (fld d 191 160 ≠ 0 → ¬ gone → (flag d 134 = true ∨ x.st = .frozen) → ∃ t, exec (.disable q d) s = .next t ∧ (t.fn f).st = .aborting)
     ∧ (fld d 191 160 ≠ 0 → ¬ gone → flag d 134 = false → x.st ≠ .frozen → x.resize = none → x.freeze = none → x.mapOp = none →
       exec (.disable q d) s = .next (b.setFn f { x with st := .draining, disableOp := some o.ref, drainEnd := b.beatNow + fld d 191 160 })))
  ∧ ∀ (s : State) (f : FnId), let x := s.fn f
     (x.st = .draining → x.drainEnd ≤ s.beatNow → s.opsOf f ≠ [] → ∃ t, exec (.drainBeatsExpiry f) s = .next t ∧ (t.fn f).st = .aborting)
     ∧ (x.st ≠ .draining ∨ s.beatNow < x.drainEnd ∨ s.opsOf f = [] → exec (.drainBeatsExpiry f) s = .next s)
     ∧ ((x.st = .draining ∨ x.st = .aborting) → s.opsOf f = [] → ∃ t, exec (.functionScrubbing f) s = .next t
       ∧ (t.fn f).st = .scrubbing ∧ (t.fn f).record = x.record ∧ (t.fn f).sec = { SecState.reset with confidential := x.sec.confidential }
       ∧ (∀ p < 64, (s.part p).owner = some f → (t.part p).scrubbing = true))
     ∧ (x.st ≠ .draining → x.st ≠ .aborting → exec (.functionScrubbing f) s = .next s)
     ∧ (∀ r o, x.st = .scrubbing → s.allReturned f = true → x.disableOp = some r → s.op? r = some o → ∃ u : State,
       exec (.functionOff f) s = .next (u.done o) ∧ u.fn f = Fn.reset ∧ u.mem = s.mem ∧ u.ops = s.ops)
     ∧ (x.st ≠ .scrubbing ∨ s.allReturned f = false → exec (.functionOff f) s = .next s)

/-- FREEZE, THAW, RESTORE (R340 to R342): a freeze begins with the image's COMMIT cleared and waits while issued operations run; then the
function is frozen and the slots open on its cores are gone. A thaw at least L beats ahead makes it running again, its plan to go on at
RESUME_BEAT. A restore whose checks pass makes the function running with the image's seed. -/
def Obligations.FreezeAndRestore : Prop :=
  ∀ (s b : State) (q : QueueId) (d : Desc) (o : Op), let f := ctFn d
    let x := b.fn f
    (Control s q d 0x52 o b → x.freeze = none →
      (b.freezeCause o f ≠ 0 → exec (.freeze q d) s = .next (b.faultOp o (b.freezeCause o f)))
      ∧ (b.freezeCause o f = 0 → let u := b.startFreeze o f
        (∀ i < 8, memByte u.mem (ctAddr d + 248 + i) = 0)
        ∧ (u.freezeWaits f = true → exec (.freeze q d) s = .next (u.park (.freeze q d) o) ∧ (u.fn f).st = .freezing)
        ∧ (u.freezeWaits f = false → ∃ v : State, exec (.freeze q d) s = .next (v.done o) ∧ (v.fn f).st = .frozen
            ∧ (v.fn f).freeze.map (·.base) = some (ctAddr d) ∧ (∀ h ∈ v.heldOps, h.fn ≠ f))))
    ∧ (Control s q d 0x53 o b →
      (x.st ≠ .frozen → exec (.thaw q d) s = .next (b.faultOp o 0x90))
      ∧ (x.st = .frozen → fld d 255 192 < b.beatNow + b.beat.lead → exec (.thaw q d) s = .next (b.faultOp o 0xC0))
      ∧ (x.st = .frozen → b.beatNow + b.beat.lead ≤ fld d 255 192 → exec (.thaw q d) s = .next ((b.setFn f { x with
          st := .running, freeze := none, active := x.active.map (fun p => p.resumeAt (fld d 255 192)) }).done o)))
    ∧ (Control s q d 0x54 o b → b.recordCause o (ctAddr d) 256 = 0 →
      let h := b.nat (ctAddr d) 256
      b.mgmtCause (ctAddr d) (max 256 (ihLen h)) = 0 →
      let ps := b.readParts (ctAddr d) h (x.sec.stagedKey.or (if x.st = .frozen then x.sec.imageKey else none))
      let y := Fn.from { (if b.ownFrozen f (ctAddr d) h then x else Fn.reset) with
        record := BitVec.ofNat 4096 (numAt (controlOf ps) 0 512) } (controlOf ps) h ps (fld d 255 192)
      (b.restoreFnCause f (ctAddr d) h ps y ≠ 0 → exec (.restore q d) s = .next (b.faultOp o (b.restoreFnCause f (ctAddr d) h ps y)))
      ∧ (b.restoreFnCause f (ctAddr d) h ps y = 0 → b.readmit f y (fld d 255 192) = none → ∃ t, exec (.restore q d) s = .next t
          ∧ (t.fn f).st = .running ∧ (t.fn f).seed = BitVec.ofNat 64 (field h 319 256) ∧ (t.fn f).freeze = none
          ∧ (t.fn f).sec.stagedKey = none))

/-- What the management role gives a function (R170, R223, R224, R242, R497, R498): BIND_FRAME, UNBIND, SET_MORTISE_RANGE, SET_APERTURE and
EXTENSION change the binding, the serving frame, the range, the aperture or the extension named and, but for contexts that an unbind makes
stale, nothing else. -/
def Obligations.FunctionSettings : Prop :=
  ∀ (s b : State) (q : QueueId) (d : Desc) (o : Op),
    let f := ctFn d
    let x := b.fn f
    let id := fld d 143 136
    (Control s q d 0x57 o b → flag d 144 = false →
      ((b.frame id).defined = false → exec (.bindFrame q d) s = .next (b.faultOp o 0x5A))
      ∧ ((b.frame id).defined = true → id ∉ x.frames → 8 ≤ x.frames.length → exec (.bindFrame q d) s = .next (b.faultOp o 0x91))
      ∧ ((b.frame id).defined = true → (id ∈ x.frames ∨ x.frames.length < 8) → exec (.bindFrame q d) s = .next ((b.setFn f { x with
          frames := if id ∈ x.frames then x.frames else x.frames ++ [id], serving := if flag d 145 then some id else x.serving }).done o)))
    ∧ (Control s q d 0x57 o b → flag d 144 = true →
      (id ∉ x.frames → exec (.unbind q d) s = .next (b.faultOp o 0x5A))
      ∧ (id ∈ x.frames → ∃ u : State, exec (.unbind q d) s = .next (u.done o)
        ∧ u.fn f = { x with frames := x.frames.filter (· ≠ id), serving := x.serving.filter (· ≠ id) }
        ∧ (∀ c v, (c, v) ∈ b.ctxs → cxFrame v = id → cxOwner v = f.val → cxState v ∈ [1, 2, 3] → (c, withFld v 34 32 4) ∈ u.ctxs)
        ∧ (∀ c v, (c, v) ∈ b.ctxs → (cxFrame v ≠ id ∨ cxOwner v ≠ f.val ∨ cxState v ∉ [1, 2, 3]) → (c, v) ∈ u.ctxs)
        ∧ u.mem = b.mem ∧ u.ops = b.ops))
    ∧ (Control s q d 0x58 o b →
      let base := fld d 149 144
      let count := fld d 156 150
      (64 < count ∨ 64 < base + count → exec (.setMortiseRange q d) s = .next (b.faultOp o 0xC0))
      ∧ (base + count ≤ 64 → b.mortiseMeets f id base count = false → exec (.setMortiseRange q d) s = .next ((b.setFn f { x with
          mortises := SMap.put (0, 0) x.mortises id (base, count) }).done o)))
    ∧ (Control s q d 0x59 o b → flag d 180 = false →
      (b.apertureCause f d ≠ 0 → exec (.setAperture q d) s = .next (b.faultOp o (b.apertureCause f d)))
      ∧ (b.apertureCause f d = 0 → exec (.setAperture q d) s = .next ((b.setFn f { x with
          apertures := SMap.put Aperture.reset x.apertures (fld d 139 136) (apertureOf d) }).done o))
      ∧ apertureOf d = ⟨ctAddr d - 2 ^ 43, fld d 175 144, flag d 176, flag d 177, flag d 178, flag d 179⟩)
    ∧ (Control s q d 0x59 o b → flag d 180 = true → region (ctAddr d) = .companion →
      (aperturesBad (b.apertures.map (fun y => y.2.2)) (some (ctAddr d - 2 ^ 43)) = true →
        exec (.extension q d) s = .next (b.faultOp o 0x9C))
      ∧ (aperturesBad (b.apertures.map (fun y => y.2.2)) (some (ctAddr d - 2 ^ 43)) = false →
        exec (.extension q d) s = .next ({ b with extension := some (ctAddr d - 2 ^ 43) }.done o)))

/-- Partitions, window slots and counters (R197, R198, R216, R217, R372, R474): a mode change zero-fills the partition and nothing else of
memory; SET_WINDOW sets every slot EMPTY with its mask; RETIRE_SLOT drains a READY slot alone, and once nothing uses it it is EMPTY again.
A partition that leaves is zero before it is free. READ_COUNTERS delivers the blocks of its cores, and with CLEAR zeroes them. -/
def Obligations.PartitionsSet : Prop :=
  (∀ (s b : State) (q : QueueId) (d : Desc) (o : Op),
     let f := o.fn
     let p := fld d 133 128
     let j := fld d 130 128
     (Control s q d 0x20 o b →
       (b.hasPart f p = false → exec (.configurePartition q d) s = .next (b.faultOp o 0x42))
       ∧ (b.hasPart f p = true → b.partBusy f p = true → exec (.configurePartition q d) s = .next (b.faultOp o 0x49))
       ∧ (b.hasPart f p = true → b.partBusy f p = false → ∃ u : State, exec (.configurePartition q d) s = .next (u.done o)
         ∧ (u.part p).mode = fld d 135 134 ∧ (u.part p).owner = some f ∧ (∀ k, k ≠ p → u.part k = b.part k)
         ∧ (∀ a, llmAddr p 0 ≤ a → a < llmAddr p 0 + 2 ^ 25 → memByte u.mem a = 0)
         ∧ (b.mgmtEvent.1 = 0 → ∀ a, (a < llmAddr p 0 ∨ llmAddr p 0 + 2 ^ 25 ≤ a) → memByte u.mem a = memByte b.mem a)))
     ∧ (Control s q d 0x21 o b →
       (b.windowCause o ≠ 0 → exec (.setWindow q d) s = .next (b.faultOp o (b.windowCause o)))
       ∧ (b.windowCause o = 0 → exec (.setWindow q d) s = .next ((b.setFn f { b.fn f with
           window := (List.range (fld d 131 128)).map (fun i => WSlot.empty (b.nat (b.readAddr f (ctAddr d) + 8 * i) 8)) }).done o)))
     ∧ (Control s q d 0x22 o b →
       (∀ w, (b.fn f).window[j]? = some w → w.st = 2 → exec (.retireSlot q d) s = .next ((b.setFn f { b.fn f with
           window := (b.fn f).window.mapIdx (fun i v => if i = j then { v with st := 3 } else v) }).done o))
       ∧ ((∀ w, (b.fn f).window[j]? = some w → w.st ≠ 2) → exec (.retireSlot q d) s = .next (b.faultOp o 0x4A)))
     ∧ (Control s q d 0x56 o b → flag d 148 = false →
       let cores := (setBits 20 (fld d 147 128)).filterMap (b.phys? f)
       let bs := cores.flatMap (fun c => b.coreBlocks c.val)
       (∀ l ∈ setBits 20 (fld d 147 128), l < (b.fn f).cores ∧ (b.phys? f l).isSome) → b.ctlWriteCause o (ctAddr d) bs.length = 0 →
       b.decideHold f [(ctAddr d, bs.length)] = false → ∃ u : State, exec (.readCounters q d) s = .next (u.done o)
         ∧ u.mem = (b.writeDev (b.writeAddr f (ctAddr d)) bs).mem ∧ u.ops = b.ops
         ∧ (flag d 149 = false → u = b.writeDev (b.writeAddr f (ctAddr d)) bs)
         ∧ (flag d 149 = true → ∀ c ∈ cores, (∀ off ∈ rcCore, u.reg 0 (pageCore c.val + off) = 0) ∧ (∀ off ∈ rcTe, u.reg 0 (pageTe c.val + off) = 0)
             ∧ ∀ off ∈ rcMe, u.reg 0 (pageMe (2 * c.val) + off) = 0 ∧ u.reg 0 (pageMe (2 * c.val + 1) + off) = 0)))
  ∧ ∀ (s : State) (f : FnId) (slot : Fin 8) (part : PartId),
     (∀ w, (s.fn f).window[slot.val]? = some w → w.st = 3 → s.slotInUse w = false →
       exec (.slotDrained f slot) s = .next (s.setFn f { s.fn f with
         window := (s.fn f).window.mapIdx (fun i v => if i = slot.val then WSlot.empty v.mask else v) }))
     ∧ ((∀ w, (s.fn f).window[slot.val]? = some w → w.st ≠ 3 ∨ s.slotInUse w = true) → exec (.slotDrained f slot) s = .next s)
     ∧ ((s.part part.val).scrubbing = true → ∃ t, exec (.partitionScrub part true) s = .next t
       ∧ t.part part.val = { Part.reset with failed := (s.part part.val).failed }
       ∧ (∀ a, llmAddr part.val 0 ≤ a → a < llmAddr part.val 0 + 2 ^ 25 → memByte t.mem a = 0)
       ∧ (∀ a, (a < llmAddr part.val 0 ∨ llmAddr part.val 0 + 2 ^ 25 ≤ a) → memByte t.mem a = memByte s.mem a))
     ∧ ((s.part part.val).scrubbing = true → ∃ t, exec (.partitionScrub part false) s = .next t ∧ t.boot.fault = true)
     ∧ ((s.part part.val).scrubbing = false → ∀ clean, exec (.partitionScrub part clean) s = .next s)

/-! ## Security -/

/-- REPORT, CHANNEL_OPEN, CHANNEL_MESSAGE, GET_CERTIFICATES, MEASURE_REGION, UNMEASURE and the end of a session (R350 to R357): a report goes to
memory with its signature block, and one with KEM opens a session; a channel opens with the keys its ciphertext derives; a message that
does not verify ends its session with CHANNEL, one that does is acknowledged under the next counter; the rest change the measured region
they name, or nothing. -/
def Obligations.Attested : Prop :=
  (∀ (s b : State) (q : QueueId) (d : Desc) (o : Op) (c : CoreId), Control s q d 0x60 o b → b.reportCore o = some c →
     spOk (fld d 165 142) (2 * fld d 141 135) = true → spOk (fld d 189 166) 64 = true →
     let f := o.fn
     let nonce := b.nat (spKey c.val (fld d 189 166)) 64
     let ids := (List.range (fld d 141 135)).map (fun k => b.nat (spKey c.val (fld d 165 142) + 2 * k) 2)
     let id := Config.freeValue b.fresh % (2 ^ 32 - 1) + 1
     let kem := if flag d 134 then some (id, Config.freeValue (b.fresh + 1)) else none
     let body := b.reportBody f kem nonce ids
     let bytes := body ++ signatureBlock (digest512 body) (Config.freeValue (b.fresh + 2))
     b.reportCause o ids = 0 → b.ctlWriteCause o (ctAddr d) bytes.length = 0 → b.decideHold f [(ctAddr d, bytes.length)] = false →
     ∃ u : State, exec (.report q d) s = .next (u.done o) ∧ u.mem = (b.writeDev (b.writeAddr f (ctAddr d)) bytes).mem
       ∧ (flag d 134 = false → (u.fn f).sec = (b.fn f).sec)
       ∧ (flag d 134 = true → ∃ z, (u.fn f).sec.session = some z ∧ z.id = id ∧ z.opened = false ∧ z.digest = digest512 body ∧ z.beat = b.beatNow))
  ∧ (∀ (s b : State) (q : QueueId) (d : Desc) (o : Op),
     let f := o.fn
     let measured := fun (x : Nat × Nat) => b.setFn f { b.fn f with
       sec := { (b.fn f).sec with measured := SMap.put (0, 0) (b.fn f).sec.measured (fld d 133 128) x } }
     (Control s q d 0x61 o b → b.recordCause o (ctAddr d) 1568 = 0 →
       (b.sessionFn o (fld d 159 128) = none → exec (.channelOpen q d) s = .next (b.faultOp o 0xA1))
       ∧ ∀ g, b.sessionFn o (fld d 159 128) = some g →
         (b.boot.noIdentity = true → exec (.channelOpen q d) s = .next (b.faultOp o 0xA2))
         ∧ (b.boot.noIdentity = false → exec (.channelOpen q d) s = .next ((b.setFn g { b.fn g with sec := { (b.fn g).sec with
             session := (b.fn g).sec.session.map (fun z => z.derive (b.bytes (b.readAddr f (ctAddr d)) 1568)) } }).done o)))
     ∧ (Control s q d 0x62 o b → b.recordCause o (ctAddr d) (fld d 187 172) = 0 → b.ctlWriteCause o (fld d 171 128) 48 = 0 →
       let bs := b.bytes (b.readAddr f (ctAddr d)) (fld d 187 172)
       ∀ g z, b.sessionFn o (numAt bs 0 4) = some g → (b.fn g).sec.session = some z →
         (z.openMessage bs = none → ∃ u : State, exec (.channelMessage q d) s = .next (u.faultOp o 0xA1) ∧ (u.fn g).sec.session = none
           ∧ u.ops = b.ops)
         ∧ ∀ body slot t, z.openMessage bs = some body →
           (b.setFn g { b.fn g with sec := { (b.fn g).sec with session := some { z with counter := field (numAt bs 0 16) 127 64 + 1 } } }).takeBody g body
             = some (0, slot, t) → exec (.channelMessage q d) s = .next
               ((t.ctlWrite o (fld d 171 128) (ackBytes z (numAt bs 0 16) 0 (t.fn g).sec.keyGen.toNat slot)).done o))
     ∧ (Control s q d 0x63 o b →
       let bs := Config.certificates.take (fld d 159 128)
       b.ctlWriteCause o (ctAddr d) bs.length = 0 → b.decideHold f [(ctAddr d, bs.length)] = false →
       exec (.getCertificates q d) s = .next ((b.ctlWrite o (ctAddr d) bs).done o))
     ∧ (Control s q d 0x64 o b → b.measureCause o = 0 → SMap.get (0, 0) (b.fn f).sec.measured (fld d 133 128) = (0, 0) →
       (flag d 134 = false → exec (.measureRegion q d) s = .next ((measured (ctAddr d, fld d 191 160 * 128)).done o))
       ∧ (flag d 134 = true → b.coreOf o ≠ none →
         exec (.measureRegion q d) s = .next ((measured (2 ^ 45 + hdCore d * 2 ^ 24 + fld d 87 64, fld d 191 160 * 128)).done o)))
     ∧ (Control s q d 0x65 o b → exec (.unmeasure q d) s = .next ((measured (0, 0)).done o)))
  ∧ ∀ (s : State) (f : FnId) (z : Session), (s.fn f).sec.session = some z →
     let ended := s.setFn f { s.fn f with sec := { (s.fn f).sec with session := none } }
     exec (.closeSession f) s = .next (if z.opened then ended else s)
     ∧ exec (.sessionExpiry f) s = .next (if z.opened = false ∧ z.beat + 2 ^ 28 ≤ s.beatNow then ended else s)

/-- Keys (R359 to R361, R365, R368, Table 15-3): a rotation takes KEY_GEN to the next number and the new key into the slot of its parity, and a
sweep runs while pages of the function are under the old one; MEM_KEY brings the tenant's key, and waits for no sweep: one in progress
refuses it. A swept page without references is under the new generation, one with references is held. IMAGE_KEY, LINK_KEY, LINK_DROP and
CONFIDENTIAL change the key, the slot or the mode they name. -/
def Obligations.KeysTaken : Prop :=
  (∀ (s b : State) (q : QueueId) (d : Desc) (o : Op), Control s q d 0x66 o b → let f := ctFn d
     let x := b.fn f
     (x.st = .off ∨ x.st = .scrubbing → exec (.rotateKey q d) s = .next (b.faultOp o 0x90))
     ∧ (x.st ≠ .off → x.st ≠ .scrubbing → x.sec.sweep = true → exec (.rotateKey q d) s = .next (b.faultOp o 0xA0))
     ∧ (x.st ≠ .off → x.st ≠ .scrubbing → x.sec.sweep = false → x.sec.confidential = true → exec (.rotateKey q d) s = .next (b.faultOp o 0xA5))
     ∧ (x.st ≠ .off → x.st ≠ .scrubbing → x.sec.sweep = false → x.sec.confidential = false → ∃ u : State,
       exec (.rotateKey q d) s = .next (u.done o) ∧ (u.fn f).sec.keyGen = x.sec.keyGen + 1 ∧ u.dir = b.dir
       ∧ (if (x.sec.keyGen + 1).toNat % 2 = 0 then (u.fn f).sec.key0 else (u.fn f).sec.key1) = Config.freeValue b.fresh % 2 ^ 512
       ∧ (u.fn f).sec.sweep = !(u.sweepLeft f).isEmpty))
  ∧ ∀ (s : State) (f : FnId) (key : BitVec 512) (image : BitVec 256) (job : Word) (activation : BitVec 64) (slot : Fin 4) (page : Nat),
     let x := s.fn f
     let e := s.page page
     let g := fnId (pgOwner e)
     (s.channelOpened f = true → x.st ≠ .off → field key.toNat 255 0 ≠ field key.toNat 511 256 →
       (x.sec.sweep = true → exec (.memKey f key) s = .next s)
       ∧ (x.sec.sweep = false → ∃ t, exec (.memKey f key) s = .next t ∧ (t.fn f).sec.keyGen = x.sec.keyGen + 1 ∧ t.dir = s.dir ∧ t.ops = s.ops
         ∧ (if (x.sec.keyGen + 1).toNat % 2 = 0 then (t.fn f).sec.key0 else (t.fn f).sec.key1) = key.toNat
         ∧ (t.fn f).sec.sweep = !(t.sweepLeft f).isEmpty))
     ∧ ((s.fn g).sec.sweep = true → page ∈ s.sweepLeft g → pgMove e ≠ 1 →
       (pgRef e ≠ 0 → exec (.keySweepPage page) s = .next (s.setPage page (withFld e 28 26 3)))
       ∧ (pgRef e = 0 → ∃ t, exec (.keySweepPage page) s = .next t
         ∧ t.dir = (s.setPage page (withFld (withFld e 28 26 0) 9 9 ((s.fn g).sec.keyGen.toNat % 2))).dir))
     ∧ ((s.fn g).sec.sweep = false ∨ page ∉ s.sweepLeft g ∨ pgMove e = 1 → exec (.keySweepPage page) s = .next s)
     ∧ (s.channelOpened f = true → exec (.imageKey f image) s = .next (s.setFn f { x with sec := (if x.st = .off
         then { x.sec with stagedKey := some image.toNat } else { x.sec with imageKey := some image.toNat }) }))
     ∧ (s.channelOpened f = true → x.st ≠ .off →
       (∀ i, s.linkSlotFor f job.toNat = some i → exec (.linkKey f job activation image) s = .next (s.setLink i {
           job := job, key := image.toNat, activation := activation, counter := 0, inForce := false }))
       ∧ (s.linkSlotFor f job.toNat = none → exec (.linkKey f job activation image) s = .next s)
       ∧ (s.mapped f = true → jmJobId x.job.map = job.toNat → (s.link slot.val).job = job →
         (∃ i < 4, i ≠ slot.val ∧ (s.link i).job = job ∧ (s.link slot.val).activation ≤ (s.link i).activation) →
         exec (.linkDrop f job slot) s = .next (s.setLink slot.val LinkSlot.reset))
       ∧ (s.mapped f = true → 256 < jmMembers x.job.map → exec (.confidential f) s = .next s)
       ∧ (s.mapped f = false ∨ jmMembers x.job.map ≤ 256 →
         exec (.confidential f) s = .next (s.setFn f { x with sec := { x.sec with confidential := true } })))
     ∧ (s.channelOpened f = false → exec (.memKey f key) s = .next s ∧ exec (.imageKey f image) s = .next s
       ∧ exec (.linkKey f job activation image) s = .next s ∧ exec (.linkDrop f job slot) s = .next s ∧ exec (.confidential f) s = .next s)

/-! ## Power and the cell map -/

/-- SET_CAP, SET_POWER_GROUP, TELEMETRY_CALIBRATION, GOVERNOR_STEP, DIE_SENSOR_READ (R377 to R384, R387, R393 to R395): a cap in range and not
below the quiet functions' power takes effect later; an enabled level moves one step toward its target, which no ceiling lets pass; the
hotter reading of a die sets its temperature and throttling, and 115 °C trips it. -/
def Obligations.PowerHeld : Prop :=
  (∀ (s b : State) (q : QueueId) (d : Desc) (o : Op), let cap := fld d 139 128
     (Control s q d 0x70 o b →
       (cap < 1000 ∨ 3200 < cap ∨ cap % 5 ≠ 0 → exec (.setCap q d) s = .next (b.faultOp o (if cap < b.quietPower + 700 then 0x9A else 0xB0)))
       ∧ (1000 ≤ cap → cap ≤ 3200 → cap % 5 = 0 → cap < b.quietPower + 700 → exec (.setCap q d) s = .next (b.faultOp o 0x9A))
       ∧ (1000 ≤ cap → cap ≤ 3200 → cap % 5 = 0 → b.quietPower + 700 ≤ cap →
         exec (.setCap q d) s = .next ({ b with power := { b.power with nextCap := some cap } }.done o)))
     ∧ (Control s q d 0x71 o b →
       (b.jobFns (fld d 159 128) = [] ∨ 800 < 5 * fld d 168 161 → exec (.setPowerGroup q d) s = .next (b.faultOp o 0xB1))
       ∧ (b.jobFns (fld d 159 128) ≠ [] → 5 * fld d 168 161 ≤ 800 → exec (.setPowerGroup q d) s = .next ({ b with power := { b.power with
           groupOn := flag d 160, groupJob := BitVec.ofNat 32 (fld d 159 128), shiftMax := 5 * fld d 168 161,
           nextOffset := if flag d 160 then b.power.nextOffset else some 0 } }.done o))))
  ∧ (∀ (s : State) (power reserved : BitVec 12), ∃ t, exec (.telemetryCalibration power reserved) s = .next t
     ∧ t.power = { s.power with package := power.toNat, reserved := reserved.toNat } ∧ t.mem = s.mem ∧ t.ops = s.ops ∧ t.fns = s.fns)
  ∧ (∀ (s : State) (core : CoreId) (demand : Fin 17), let x := s.cell core
     ((x.st ≠ .inService ∨ (s.die (core.val / 6)).tripped = true) → exec (.governorStep core demand) s = .next s)
     ∧ (x.st = .inService → (s.die (core.val / 6)).tripped = false → ∃ t, exec (.governorStep core demand) s = .next t
       ∧ (t.cell core).target = s.target core demand.val ∧ (t.cell core).target ≤ x.capCeiling ∧ (t.cell core).target ≤ x.thermal
       ∧ (t.cell core).level = (if x.level < s.target core demand.val then x.level + 1
           else if s.target core demand.val < x.level then x.level - 1 else x.level)
       ∧ (∀ k, k ≠ core → (t.cell k).level = (s.cell k).level) ∧ t.mem = s.mem ∧ t.ops = s.ops))
  ∧ ∀ (s : State) (die : Fin 10) (temp0 temp1 : Byte),
     let m := max temp0.toNat temp1.toNat
     let x := s.die die.val
     ∃ t, exec (.dieSensorRead die temp0 temp1) s = .next t ∧ (t.die die.val).temp = BitVec.ofNat 8 m
       ∧ (die.val < 4 → ((t.die die.val).throttling = true ↔ 98 ≤ m ∨ (x.throttling = true ∧ 96 ≤ m)))
       ∧ (115 ≤ m → x.tripped = false → (t.die die.val).tripped = true ∧ t.boot.thermN = true ∧ t.boot.fault = true)
       ∧ (m < 115 → (t.die die.val).tripped = x.tripped ∧ t.boot.thermN = s.boot.thermN)
       ∧ (∀ k, k ≠ die.val → t.die k = s.die k)

/-- Ageing, margin plans, active tests and the store (R397 to R408): a drift that passes 1.5% raises the guard by 10 mV up to 60 and starts a
plan; a plan that is due requests the set point of the cores it keeps; a test of an unowned core keeps its V_req, an owned one's is due;
the hour, a record and a compaction go to the store; a retried request is acknowledged. A self-test that passes makes a quarantined core
eligible. -/
def Obligations.AgeingKept : Prop :=
  (∀ (s : State) (core : CoreId) (drift : Int) (leakage : BitVec 16) (die : DieId) (v : Option Nat) (overdue : Nat) (acked : Bool),
     let x := s.cell core
     let y := s.die die.val
     let out := s.outlier? die.val
     let kept := ((s.planCores die.val).filter (fun c => decide (out ≠ some c))).map (fun c => (s.cell c).need)
     ((drift ≤ 150 ∨ 150 < x.drift) →
       exec (.ageingMonitorRead core drift leakage) s = .next (s.setCell core { x with drift := drift, leakage := leakage }))
     ∧ (150 < drift → x.drift ≤ 150 → ∃ t, exec (.ageingMonitorRead core drift leakage) s = .next t
       ∧ (t.cell core).drift = drift ∧ (t.die (core.val / 6)).nextGuard = some (min 600 ((s.die (core.val / 6)).guard + 100))
       ∧ (t.die (core.val / 6)).planRunning = true ∧ (t.die (core.val / 6)).alarmed = true)
     ∧ ((y.planRunning = true ∨ s.power.planPoh + 1000 ≤ s.power.poh) → ∃ t, exec (.marginPlan die) s = .next t
       ∧ (t.die die.val).guard = y.planGuard ∧ (t.die die.val).requested = setPoint (kept.foldl max 0) y.planGuard
       ∧ (t.die die.val).planRunning = false ∧ t.power.planCount = s.power.planCount + 1 ∧ t.power.planPoh = s.power.poh ∧ t.ops = s.ops)
     ∧ (y.planRunning = false → s.power.poh < s.power.planPoh + 1000 → exec (.marginPlan die) s = .next s)
     ∧ (x.owner = none → exec (.activeTest core v) s = .next (s.setCell core { x with
         vReq := v.getD x.vReq, hoursSinceTest := 0, testDue := false }))
     ∧ (x.owner ≠ none → exec (.activeTest core v) s = .next s)
     ∧ (x.owner = none → exec (.testDue core overdue) s = .next s)
     ∧ (x.owner ≠ none → ∃ t, exec (.testDue core overdue) s = .next t ∧ (t.cell core).testDue = true
       ∧ (t.reg 0 (pageCore core.val + 0x18)).testBit 1 = true)
     ∧ exec (.avsRetry die acked) s = .next (if acked = true ∧ y.requested ≠ y.acked then s.setDie die.val { y with acked := y.requested } else s))
  ∧ (∀ (s : State) (type scope : BitVec 16) (payload : List Byte) (ok : Bool),
     (∃ t, exec .pohRecord s = .next t ∧ t.power.poh = s.power.poh + 1 ∧ (∀ c, (t.cell c).hoursSinceTest = (s.cell c).hoursSinceTest + 1)
       ∧ t.store = s.store.append 0x13 0xFFFF (s.power.poh + 1) s.boot.count (leBytes 4 (s.power.poh + 1)) true ∧ t.mem = s.mem)
     ∧ exec (.calibrationRecordWrite type scope payload ok) s = .next { s with
         store := s.store.append type.toNat scope.toNat s.power.poh s.boot.count payload ok }
     ∧ (64 ≤ s.store.erased → exec .storeCompaction s = .next s)
     ∧ (s.store.erased < 64 → exec .storeCompaction s = .next { s with store := s.store.compact s.power.poh s.boot.count }))
  ∧ ∀ (s b : State) (q : QueueId) (d : Desc) (o : Op) (c : CoreId) (pass : Bool), Control s q d 0x74 o b → coreId? (fld d 132 128) = some c →
     (b.cell c).st = .quarantined → (b.cell c).owner = none → exec (.coreSelfTest q d pass) s = .next
       ((if pass then b.setCell c { b.cell c with nextSt := some .eligible } else b).done o)

/-- The cell map (R21, R24, R26, R28): a quarantine order whose engines are at rest names the state its core takes and starts a margin plan; at
the boundary a core that was chosen enters service for its logical number, a quarantined one leaves it, and what waited for the map
completes. A clean scrub zeroes the scratchpad and frees the core; one that fails orders its quarantine. -/
def Obligations.CellMapKept : Prop :=
  (∀ (s : State) (core : CoreId), let x := s.cell core
     let effect := fun (w : Order) => exec (.managementOrderEffect core w) s
     (x.quarantining = true → x.nextSt ≠ some .quarantined → s.engineBusy core = false → ∃ t, effect .quarantine = .next t
       ∧ (t.cell core).nextSt = some .quarantined ∧ (t.die (core.val / 6)).planRunning = true)
     ∧ (x.quarantining = false ∨ x.nextSt = some .quarantined ∨ s.engineBusy core = true → effect .quarantine = .next s)
     ∧ (s.engineBusy core = false → effect .thermalThrottle = .next (s.setCell core { x with thermal := (s.die (core.val / 6)).thermalCeiling }))
     ∧ (x.st ≠ .inService → x.owner = none → effect .scrub = .next (s.setCell core { x with scrubbing := true }))
     ∧ ((s.die (core.val / 6)).tripped = true → effect .thermalTrip = .next (s.stopEngines core))
     ∧ (∀ f, x.owner = some f → (s.fn f).st = .aborting → effect .disableFunction = .next (s.cancelCore core.val 2))
     ∧ (x.quarantining = true → effect .cellMapChange = .next (s.supersedeMove core))
     ∧ effect .powerCap = .next s ∧ effect .voltageTrim = .next s)
  ∧ (∀ (s : State), (∀ k, (s.cell k).moveTo = none) → ∃ t, exec .cellMapChange s = .next t ∧ (∀ f, (t.fn f).mapOp = none)
     ∧ (∀ c f l, (∀ k, (s.cell k).nextSt = none) → (s.cell c).taking = some (f, l) → (s.cell c).quarantining = false →
         (t.cell c).st = .inService ∧ (t.cell c).owner = some f ∧ (t.cell c).logical = l ∧ (t.cell c).taking = none)
     ∧ (∀ c, (s.cell c).nextSt = some .quarantined →
         (t.cell c).st = .quarantined ∧ (t.cell c).owner = none ∧ (t.cell c).scrubbing = true ∧ (t.cell c).nextSt = none))
  ∧ ∀ (s : State) (core : CoreId), let x := s.cell core
     (x.st ≠ .inService → x.scrubbing = true →
       (∃ t, exec (.coreScrub core true) s = .next t ∧ (t.cell core).scrubbing = false ∧ (t.cell core).owner = none ∧ (t.cell core).st = x.st
         ∧ (∀ a, spKey core.val 0 ≤ a → a < spKey core.val 0 + 2 ^ 24 → memByte t.mem a = 0)
         ∧ (∀ a, (a < spKey core.val 0 ∨ spKey core.val 0 + 2 ^ 24 ≤ a) → memByte t.mem a = memByte s.mem a)
         ∧ t.me (meInst core.val 0) = Me.reset ∧ t.me (meInst core.val 1) = Me.reset ∧ t.te core.val = Te.reset)
       ∧ (x.st ≠ .quarantined → ∃ t, exec (.coreScrub core false) s = .next t ∧ (t.cell core).quarantining = true))
     ∧ ((x.st = .inService ∨ x.scrubbing = false) → ∀ clean, exec (.coreScrub core clean) s = .next s)

/-! ## The fabric -/

/-- Link control, training and loss (R259, R260, R263, R264): an LCTRL lets acknowledged frames leave the replay buffer and adds its credits,
never beyond the initial ones, and with NAK sends again from the SEQ it names; one that goes out returns the credits owed under the last
SEQ taken. A port that trains is up at its width, full or half; one whose lanes fail is down, and a retry trains it again. A lost link
starts from empty buffers. A frame whose CRC fails is asked for again, one with a bad header is counted. -/
def Obligations.LinkControl : Prop :=
  ∀ (s : State) (port : PortId) (payload : BitVec 256) (low high : Bool) (fr : Frame),
    let p := port.val
    let x := s.port p
    let left := x.replay.dropWhile (ackedBy (lcAck payload))
    let taken := s.setPort p { x with
      replay := left, replays := if left.length < x.replay.length then 0 else x.replays,
      credits := x.credits.mapIdx (fun i c => min (c + lcCredit payload i) (initialCredits.getD i 0)) }
    (x.st < 2 → exec (.lctrl port payload) s = .next s ∧ exec (.lctrlSend port) s = .next s ∧ exec (.fabricLinkLost port) s = .next s
      ∧ exec (.droppedFrame port fr low) s = .next s)
    ∧ (2 ≤ x.st → exec (.lctrl port payload) s
        = .next ((((if lcNak payload then taken.goBack p (lcSeq payload) else taken).drain p).settleAll).pumpAll))
    ∧ (2 ≤ x.st → ∃ y, exec (.lctrlSend port) s = .next (s.setPort p y) ∧ lcAck y.ctrl = (x.rxSeq + 4095) % 4096 ∧ lcNak y.ctrl = x.nak
        ∧ y.owed = x.owed.map (fun c => c - 4095) ∧ y.replay = x.replay ∧ y.credits = x.credits ∧ y.st = x.st)
    ∧ (x.st ≤ 1 → s.portEnabled p = true → s.portClock p = true →
        (low = false → high = false → exec (.portTraining port low high) s = .next (s.setPort p { x with st := 0, width := 0 }))
        ∧ (low = true ∨ high = true → ∃ t, exec (.portTraining port low high) s = .next t ∧ (t.port p).st = 2 ∧ (t.port p).rxSeq = 0
            ∧ (t.port p).width = (if low && high then 3 else if low then 1 else 2)
            ∧ ((low && high) = false → (t.reg 0 (pageFab p + 0x18)).testBit 2 = true)
            ∧ (∀ k, k ≠ p → t.port k = s.port k)))
    ∧ (1 < x.st ∨ s.portEnabled p = false ∨ s.portClock p = false → exec (.portTraining port low high) s = .next s)
    ∧ (x.st = 0 → s.portEnabled p = true → s.portClock p = true → exec (.portRetry port) s = .next (s.setPort p { x with st := 1 }))
    ∧ (x.st ≠ 0 ∨ s.portEnabled p = false ∨ s.portClock p = false → exec (.portRetry port) s = .next s)
    ∧ (2 ≤ x.st → ∃ t, exec (.fabricLinkLost port) s = .next t ∧ (t.port p).st = 1 ∧ (t.port p).replay = [] ∧ (t.port p).kept = [])
    ∧ (2 ≤ x.st → exec (.droppedFrame port fr false) s = .next ((s.setPort p ({ x with nak := true } : Port).sendControl).count (pageFab p + 0x5C)))
    ∧ (2 ≤ x.st → headerOk fr = false → exec (.droppedFrame port fr true) s = .next ((s.setPort p (x.accept fr)).count (pageFab p + 0x70)))

/-- HELLO, HELLO_SEND and DATA (R265 to R267, R271, R272): the first HELLO of a kind is kept; the second alike makes the partner discovered
where it passes its checks, and else the port goes to MISMATCH with the first check that failed. A HELLO that goes out carries the
package's own fields. A DATA frame for this package joins its message, one for another place goes on, one for another chip is counted. -/
def Obligations.HelloAndData : Prop :=
  ∀ (s : State) (port : PortId) (payload : BitVec 512) (fr : Frame),
    let p := port.val
    let x := s.port p
    let freed := s.setPort p (x.accept fr)
    (2 ≤ x.st → (helloKey payload ≠ helloKey x.hello ∨ x.helloCount = 0) → ∃ t, exec (.hello port payload) s = .next t
      ∧ (t.port p).st = 2 ∧ (t.port p).hello = payload ∧ (t.port p).helloCount = 1)
    ∧ (x.st = 2 → helloKey payload = helloKey x.hello → 0 < x.helloCount → ∃ t, exec (.hello port payload) s = .next t
      ∧ (t.port p).st = (if s.helloFault p payload = 0 then 3 else 4) ∧ (t.port p).mismatch = s.helloFault p payload
      ∧ (t.reg 0 (pageFab p + 0x18)).testBit (if s.helloFault p payload = 0 then 0 else 3) = true)
    ∧ (x.st < 2 → exec (.hello port payload) s = .next s ∧ exec (.helloSend port) s = .next s)
    ∧ (2 ≤ x.st → exec (.helloSend port) s = .next (s.sendOn p (mkFrame 1 true 0 (hePos x.hello) (heChip x.hello) s.chip
        (leBytes 64 (s.helloFields p).toNat))))
    ∧ (s.takes p fr 8 = true →
      (fhDestPos fr.hdr = s.pos → fhDestChip fr.hdr ≠ s.chip → exec (.data port fr) s = .next (freed.count (pageFab p + 0x70)))
      ∧ (fhDestPos fr.hdr = s.pos → fhDestChip fr.hdr = s.chip →
        (freed.openFrame fr = none → exec (.data port fr) s = .next (freed.sealFail p fr))
        ∧ ∀ g, freed.openFrame fr = some g →
          (∀ u, freed.assemble g = (none, u) → exec (.data port fr) s = .next u)
          ∧ ∀ m u, freed.assemble g = (some m, u) → exec (.data port fr) s = .next (u.onMessage p m.1 m.2))
      ∧ (fhDestPos fr.hdr ≠ s.pos →
        (∀ k, freed.hop fr = some k → exec (.data port fr) s = .next (freed.sendOn k (unstamp fr)))
        ∧ (freed.hop fr = none → exec (.data port fr) s = .next freed)))
    ∧ (s.takes p fr 8 = false → exec (.data port fr) s = .next s)

/-! ## Beat plans -/

/-- Events of a running plan (R49 to R52, R320, R326, R337, R391, R392, Table 2-5): an instance that is due and may start leaves those that
wait, and its action is done: RELEASE, COLLECTIVE and MOVE release the beat-wait of their tag, COMMIT applies the decision held or votes
abort, POWER_RAMP and SHIM set ramp and floor, RESIZE brings the accepted resize, CORE_MOVE names a destination. One that may not start
changes nothing. -/
def Obligations.EventsStart : Prop :=
  ∀ (s : State) (f : FnId) (idx : Nat) (p : Plan) (w : Due), s.runningPlan? f = some p → p.due? idx = some w →
    let e := p.event idx
    let u := (s.setFn f { s.fn f with active := (s.fn f).active.map (fun p => p.start w) }).settleHold f idx
    let runs := fun (i : Instr) (kind : Nat) (t : State) => evKind e = kind → s.mayStart f p w = true → exec i s = .next t
    (∀ o, s.heldWait? f e = some o →
      runs (.releaseEvent f idx) 1 ((u.setQueue o.queue.val { s.queue o.queue.val with event := none }).done o)
      ∧ runs (.collectiveEvent f idx) 2 ((u.setQueue o.queue.val { s.queue o.queue.val with event := some idx }).done o)
      ∧ runs (.moveEvent f idx) 3 ((u.setQueue o.queue.val { s.queue o.queue.val with event := none }).done o))
    ∧ (s.mapped f = true → let v := u.setFn f { u.fn f with step := { (u.fn f).step with commitBeat := some s.beatNow } }
      (∀ x, (s.fn f).step.decision = some x → runs (.commitEvent f idx) 4 (v.applyDecision f x))
      ∧ ((s.fn f).step.decision = none → runs (.commitEvent f idx) 4 (v.vote f 5)))
    ∧ (s.mapped f = false → runs (.commitEvent f idx) 4 u)
    ∧ runs (.powerRamp f idx) 5 (u.setFn f { u.fn f with
        rampFrom := (s.fn f).ramp, rampTo := evTag e % 32, rampDone := 0, rampLen := evDuration e })
    ∧ runs (.shim f idx) 6 (u.setFn f { u.fn f with shims := (s.fn f).shims ++ [(evTag e % 32, evDuration e)] })
    ∧ (∀ z, (s.fn f).resize = some z → evKind e = 7 → s.mayStart f p w = true → ∃ t, exec (.resizeEvent f idx) s = .next t
        ∧ (t.fn f).record = z.record ∧ (t.fn f).resize = none)
    ∧ (∀ c, s.moveSource? f = some c → runs (.coreMove f idx) 9 (u.setCell c { s.cell c with moveTo := s.moveDest? f c }))
    ∧ (s.mayStart f p w = false → ∀ i ∈ [Instr.releaseEvent f idx, .collectiveEvent f idx, .moveEvent f idx, .commitEvent f idx,
        .powerRamp f idx, .shim f idx, .resizeEvent f idx, .coreMove f idx], exec i s = .next s)
    ∧ (evKind e = 8 → (w.beat < p.clock ∨ s.holdNext = false) → ∃ t, exec (.deadline f idx) s = .next t
        ∧ (t.fn f).active = some { p with waiting := (takeFirst (fun v => decide (v = w)) p.waiting).2 } ∧ t.mes = s.mes ∧ t.tes = s.tes)
    ∧ (evKind e = 8 → p.clock ≤ w.beat → s.holdNext = true → exec (.deadline f idx) s = .next s)

/-- The beat edge and planned moves (R27, R36, R45, R52): with no epoch armed the number goes up by one, the beat is a hold beat exactly where
a granted run covers it, and the clock of a running plan that is not at its end goes on but on a hold beat. A planned move's copy is the
scratchpad and the banks of its core. -/
def Obligations.BeatAdvances : Prop :=
  (∀ (s : State), s.beat.armed = none → s.beat.requests = [] →
     let n := s.beat.number + 1
     ∃ t, exec .beatEdge s = .next t ∧ t.beat.number = n ∧ t.beat.holding = (s.beat.epochSet && s.beat.isHold n.toNat)
       ∧ t.beat.sinceSync = s.beat.sinceSync + 1 ∧ t.beat.epochSet = s.beat.epochSet
       ∧ ∀ f p, (s.fn f).active = some p → p.running = true → (s.fn f).pendingPlan = none → phRepeats p.header = 0 →
         ((s.fn f).st = .running ∨ (s.fn f).st = .draining) →
         ∃ q, (t.fn f).active = some q ∧ q.clock = (if t.beat.holding then p.clock else p.clock + 1) ∧ q.header = p.header ∧ q.events = p.events)
  ∧ ∀ (s : State) (core dst : CoreId), ((s.cell core).moveTo = none → exec (.plannedMoveComplete core) s = .next s)
     ∧ ((s.cell core).moveTo = some dst → dst ≠ core → ∃ t, exec (.plannedMoveComplete core) s = .next t ∧ (t.cell core).moveDone = true
       ∧ (∀ a < 2 ^ 24, memByte t.mem (spKey dst.val a) = memByte s.mem (spKey core.val a) ∧ memByte t.mem (spKey core.val a) = memByte s.mem (spKey core.val a))
       ∧ (∀ e < 2, (t.me (meInst dst.val e)).bank0 = (s.me (meInst core.val e)).bank0 ∧ (t.me (meInst dst.val e)).bank1 = (s.me (meInst core.val e)).bank1)
       ∧ t.ops = s.ops)

/-- The cadence domain (R36 to R44, R60 to R63, R269, R270): a SYNC from the parent ends a holdover and, in fabric mode, sets the number; the
master sends one every sixteen beats. An EPOCH is armed, or refused where a plan is held. The master keeps hold requests, others pass
them up; a grant becomes hold beats. A member without SYNC for 48 beats holds over, a backup for 64 takes over. A pulse of CAD_IN within
10 ns corrects the edge, another or none counts as missed. A DELAY gives half of the round trip. -/
def Obligations.CadenceKept : Prop :=
  ∀ (s : State) (port : PortId) (msg : BitVec 256) (arrival departure sent received turnaround : Nat) (offset : Int),
    let b := s.beat
    let x := s.port port.val
    let u := s.took port.val 0 2
    let up := x.st = 3 ∧ b.parent = some port
    (bmKind msg = 1 → up → b.refused = false → bmPeriod msg = b.period → ∃ t, exec (.sync port msg arrival) s = .next t
      ∧ t.beat.holdover = false ∧ t.beat.sinceSync = 0
      ∧ (s.beatSource = 2 → b.epochSet = true → b.inDomain = true →
          t.beat.number = BitVec.ofNat 64 (bmNumber msg + (bmArg1 msg + x.delay) / s.beatUnits))
      ∧ (s.beatSource ≠ 2 → t.beat.number = b.number))
    ∧ (bmKind msg = 1 → x.st = 3 → b.parent ≠ some port → exec (.sync port msg arrival) s = .next u)
    ∧ ((s.isMaster = false ∨ b.sinceSync < 16) → exec (.syncSend departure) s = .next s)
    ∧ (s.isMaster = true → 16 ≤ b.sinceSync → s.recentDecisions = [] → ∃ t, exec (.syncSend departure) s = .next t
      ∧ t = { s.sendDown (s.beatMsg 1 b.number.toNat departure 0 s.chip) with beat := { b with sinceSync := 0 } })
    ∧ (bmKind msg = 2 → up → bmPeriod msg = b.period → ∃ t, exec (.epoch port msg) s = .next t
      ∧ (s.planHeld = true → t.beat.refused = true ∧ t.beat.inDomain = false ∧ t.beat.armed = none)
      ∧ (s.planHeld = false → ∃ k v, t.beat.armed = some (k, v) ∧ b.number.toNat < k ∧ t.beat.refused = false
          ∧ (b.number.toNat < b.number.toNat - b.sinceSync + bmArg1 msg →
              k = b.number.toNat - b.sinceSync + bmArg1 msg ∧ v = BitVec.ofNat 64 (bmNumber msg))))
    ∧ (bmKind msg = 3 →
      (s.isMaster = true → ∃ t, exec (.holdReq msg) s = .next t ∧ t.beat.requests = b.requests ++
          [(BitVec.ofNat 16 (bmOrigin msg), bmArg1 msg % 2 ^ 12 + 1, bmArg1 msg / 2 ^ 12 % 16, bmArg2 msg, bmNumber msg)])
      ∧ (s.isMaster = false → exec (.holdReq msg) s = .next (s.sendUpTree msg)))
    ∧ (bmKind msg = 4 → up → bmArg1 msg ≠ 0 → ∃ t, exec (.holdGrant port msg) s = .next t ∧ ∃ start c, c < 16
        ∧ t.beat.holds = b.holds ++ [(start, bmArg1 msg, c)] ∧ t.beat.ownRequests = []
        ∧ (b.number.toNat < bmNumber msg → start = bmNumber msg) ∧ b.number.toNat < start)
    ∧ (s.isMaster = false → 48 ≤ b.sinceSync → s.hasPartner = true → ∃ t, exec .holdover s = .next t ∧ t.beat.holdover = true)
    ∧ ((s.isMaster = true ∨ b.sinceSync < 48) → exec .holdover s = .next s)
    ∧ (s.isBackup = true → s.isMaster = false → 64 ≤ b.sinceSync → ∃ t, exec .backupTakeover s = .next t
        ∧ t.beat.master = BitVec.ofNat 16 s.chip ∧ t.beat.holdover = false)
    ∧ ((s.isBackup = false ∨ s.isMaster = true ∨ b.sinceSync < 64) → exec .backupTakeover s = .next s)
    ∧ (s.beatSource ≠ 1 → exec (.cadInPulse offset) s = .next s ∧ exec .cadInMissing s = .next s)
    ∧ (s.beatSource = 1 → s.boot.tapIr ≠ 3 → let a := offset + toSigned 16 (s.reg 0 (pageBeat + 0x44) % 2 ^ 16)
      (a.natAbs ≤ 160 → exec (.cadInPulse offset) s = .next { s with beat := { b with edge := b.edge + a, missRow := 0, holdover := false } })
      ∧ (160 < a.natAbs → ∃ t, exec (.cadInPulse offset) s = .next t ∧ t.beat.missRow = b.missRow + 1 ∧ t.beat.number = b.number))
    ∧ (s.beatSource = 1 → ∃ t, exec .cadInMissing s = .next t ∧ t.beat.missRow = b.missRow + 1 ∧ t.beat.number = b.number)
    ∧ (2 ≤ x.st → exec (.delay port sent received turnaround) s
        = .next ((s.setPort port.val { x with delay := (received - sent - turnaround) / 2 % 2 ^ 24 }).took port.val 0 2))
    ∧ (2 ≤ x.st → exec (.delayRemeasure port departure) s
        = .next (s.sendOn port.val (mkFrame 3 true 0 (hePos x.hello) (heChip x.hello) s.chip (leBytes 32 (departure % 2 ^ 64)))))

/-! ## Reset and start-up -/

/-- Resets, start-up, clocks and the PKC (R433, R444 to R457, R480): power-on, DEV_RST_N and WARM leave the reset state under their source, with
companion memory, fuses and the store; WARM alone keeps the log; a rail lost holds the device in reset. GO in a step that waits for it
checks the image, ends in BOOT_FAIL with the first check or step that failed, or in READY. A clock that stops takes its links down. A
failed PKC is a device fault, and the log is written no further. -/
def Obligations.ResetAndBoot : Prop :=
  (∀ (s : State) (lanes0 lanes1 : Fin 3) (straps : BitVec 2) (rail : Fin 19) (key : Byte),
     let fresh := fun (t : State) (source : Nat) => t.ops = [] ∧ t.fns = State.reset.fns ∧ t.queues = [] ∧ t.dir = [] ∧ t.ctxs = []
       ∧ t.beat = Beat.reset ∧ t.power = Power.reset ∧ t.boot.source = source ∧ t.boot.count = s.boot.count + 1 ∧ t.boot.fault = false
       ∧ t.boot.svn = s.boot.svn ∧ t.store = s.store ∧ t.pending = s.pending
       ∧ (∀ a, memByte t.mem a = if 2 ^ 43 ≤ a ∧ a < 2 ^ 44 then memByte s.mem a else 0)
     let waits := fun (t : State) => t.boot.st = (if (s.boot.clocks.getLsbD 0 = true ∧ lanes0 ≠ 0) ∨ (s.boot.clocks.getLsbD 1 = true ∧ lanes1 ≠ 0) then 1 else 0)
     (∃ t, exec (.powerOnReset lanes0 lanes1 straps) s = .next t ∧ fresh t 1 ∧ waits t ∧ t.regs = State.reset.regs ∧ t.log = []
       ∧ t.boot.straps = straps ∧ t.boot.powered = true)
     ∧ (∃ t, exec (.railLoss rail) s = .next t ∧ fresh t 1 ∧ t.boot.powered = false ∧ t.log = [])
     ∧ (s.boot.powered = true → ∃ t, exec (.devRstN lanes0 lanes1) s = .next t ∧ fresh t 2 ∧ waits t ∧ t.regs = State.reset.regs ∧ t.log = [])
     ∧ (s.boot.powered = false → exec (.devRstN lanes0 lanes1) s = .next s ∧ exec (.warm key lanes0 lanes1) s = .next s)
     ∧ (s.boot.powered = true → key = 0xA5 → ∃ t, exec (.warm key lanes0 lanes1) s = .next t ∧ fresh t 3 ∧ waits t
         ∧ t.log.map (·.bits) = s.log.map (·.bits))
     ∧ (s.boot.powered = true → key ≠ 0xA5 → ∃ t, exec (.warm key lanes0 lanes1) s = .next t ∧ t = s.pageError pagePkc 0xFFFF none true))
  ∧ (∀ (s : State) (env : BootEnv),
     let a := compKey s.imageAddr
     let h := s.nat a 256
     let c := s.fwCause a h env.imageReadable
     (s.boot.st ≠ 1 → s.boot.st ≠ 9 → ∃ t, exec (.go env) s = .next t ∧ { t with regs := s.regs } = s)
     ∧ ((s.boot.st = 1 ∨ s.boot.st = 9) →
       (c ≠ 0 → ∃ t, exec (.go env) s = .next t ∧ t.boot.st = 9 ∧ t.boot.cause = c ∧ (t.reg 0 (pagePkc + 0x18)).testBit 1 = true)
       ∧ (c = 0 →
         let step := firstCause [(!env.diesUp, 0x10), (!env.sramTables, 0x11), (!env.storeReadable, 0x12), (!env.avsAnswers, 0x13)]
         (step ≠ 0 → ∃ t, exec (.go env) s = .next t ∧ t.boot.st = 9 ∧ t.boot.cause = step)
         ∧ (step = 0 → ∃ t, exec (.go env) s = .next t ∧ t.boot.st = 8 ∧ t.boot.cause = 0 ∧ t.boot.pos = env.pos.toNat
           ∧ t.boot.fwDigest = s.fwDigest a h ∧ t.boot.svn = (if h.testBit 56 then max s.boot.svn (fwSvn h) else s.boot.svn)
           ∧ t.boot.noIdentity = !env.identityUnsealed ∧ (t.reg 0 (pagePkc + 0x18)).testBit 0 = true))))
  ∧ (∀ (s : State) (clock : Fin 4), ∃ t u, exec (.refclkStop clock) s = .next t ∧ exec (.refclkReturn clock) s = .next u
     ∧ t.boot.clocks = s.boot.clocks &&& ~~~(1#4 <<< clock.val) ∧ u.boot.clocks = s.boot.clocks ||| (1#4 <<< clock.val)
     ∧ (clock.val < 2 → t.dlk clock.val = 0)
     ∧ (2 ≤ clock.val → ∀ p < 12, p / 6 = clock.val - 2 → (t.port p).st < 2
         ∧ (s.boot.st = 8 → (s.port p).st = 0 → s.portEnabled p = true → (u.port p).st = 1)))
  ∧ ∀ (s : State), (s.boot.pkcFailed = true → exec .pkcFailure s = .next s)
     ∧ (s.boot.pkcFailed = false → ∃ t, exec .pkcFailure s = .next t ∧ t.boot.pkcFailed = true ∧ t.boot.fault = true ∧ t.log = s.log)

/-! ## Registers -/

/-- Reads and header writes (R9, R460, R464 to R467): a read returns the register's value, or the high word taken with the low one; a counter
read where nothing hides it is 0 afterwards; a read of a low word keeps the high word for the next read. ERR_CLEAR zeroes the errors of
the window, IRQ_STAT loses the bits written as 1, LOCK is set and stays. Where no page answers, a write changes nothing. -/
def Obligations.RegistersRead : Prop :=
  ∀ (s : State) (w : Window) (off : BitVec 26) (v : Word),
    let base := pageBase off.toNat
    let r := regOff off.toNat
    (∀ i ∈ [Instr.rcRead w off, .lowWordRead w off], ∃ t, exec i s = .next t ∧ t.rdData = s.readValue w off.toNat
      ∧ t.mem = s.mem ∧ t.fns = s.fns ∧ t.queues = s.queues ∧ t.ops = s.ops ∧ t.boot = s.boot ∧ t.log = s.log
      ∧ (s.snapshots = [] → t.rdData = BitVec.ofNat 32 (s.readReg w off.toNat))
      ∧ (∀ k n, s.pageAt? w off.toNat = some (k, n) →
        (r ∈ k.rc → s.hidden w k n r = false → (noIrq w k = false ∨ 0x100 ≤ r) → t.reg (counterWin w k) (base + r) = 0)
        ∧ (r ∉ k.rc → t.regs = s.regs)
        ∧ (isLow k r = true → t.readValue w (base + r + 4) = BitVec.ofNat 32 (s.readReg w (base + r + 4))))
      ∧ (s.pageAt? w off.toNat = none → t.regs = s.regs))
    ∧ (s.pageAt? w off.toNat = none → ∀ i ∈ [Instr.errClear w off, .irqStatWrite w off v, .lock w off v], exec i s = .next s)
    ∧ (∀ k n, s.pageAt? w off.toNat = some (k, n) →
      (∃ t, exec (.errClear w off) s = .next t ∧ (∀ o ∈ [0x20, 0x24, 0x28, 0x2C], t.reg (winNo w) (base + o) = 0)
        ∧ { t with regs := s.regs } = s)
      ∧ (noIrq w k = false → ∃ t, exec (.irqStatWrite w off v) s = .next t ∧ { t with regs := s.regs } = s
        ∧ ∀ b < 32, (t.reg (irqWin w k) (base + 0x18)).testBit b
            = ((s.reg (irqWin w k) (base + 0x18)).testBit b && !v.toNat.testBit b))
      ∧ exec (.lock w off v) s = .next (if w = .mgmt ∧ v.toNat.testBit 0 = true then s.setReg 0 (base + 0x30) 1 else s))

/-- Registers with actions (R34 to R36, R240, R259, R379, R400, R402, R442, R443, R459, R464, R469 to R471, R473): on a page that answers and is not
locked each takes the value the page allows and does what it starts; a value outside it is ignored and recorded; a locked page refuses
every write of an RW register. REGISTER_WRITE of 4 bytes writes one register, of 8 two, low address first; other sizes are refused. -/
def Obligations.RegistersWritten : Prop :=
  ∀ (s : State) (v : Word) (stack : StackId) (port : PortId) (width height : Byte) (w : Window) (off : BitVec 26) (data : BitVec 64),
    let n := v.toNat
    let open_ := fun (o : Nat) => (s.pageAt? .mgmt o).isSome = true ∧ s.locked o = false
    let ignored := fun (o : Nat) => s.pageError (pageBase o) 0xFFFF none true
    let p := port.val
    (∀ i o, (i, o) ∈ [(Instr.chipIdWrite v, 0x5C), (.beatCfgWrite v, 0x1040), (.epochEdgeWrite v, 0x105C), (.planCtrlStart v, 0x2084),
        (.govCfgWrite v, 0x205C), (.marginCtrlStart stack v width height, pageHbm stack.val + 0x70), (.portRetrain port v, pageFab p + 0x40),
        (.rdSeqWrite .mgmt v, 0x4044)] →
      ((s.pageAt? .mgmt o).isSome = false → exec i s = .next s)
      ∧ ((s.pageAt? .mgmt o).isSome = true → s.locked o = true → exec i s = .next (s.pageError (pageBase o) 0xFFFD none true)))
    ∧ (open_ 0x5C → (s.inJob = true → exec (.chipIdWrite v) s = .next (ignored 0x5C))
      ∧ (s.inJob = false → exec (.chipIdWrite v) s = .next (((s.setReg 0 0x5C (n % 2 ^ 16)).elect).sendHellos))
      ∧ (s.inJob = true ↔ ∃ f, (s.fn f).job.st ≠ 0 ∨ (s.fn f).job.pendingMap ≠ none))
    ∧ (open_ 0x1040 → let old := s.reg 0 0x1040
      let bad := n % 16 < 2 ∨ 9 < n % 16 ∨ n / 16 % 4 = 3 ∨ ((n % 16 ≠ old % 16 ∨ n / 16 % 4 ≠ old / 16 % 4) ∧ s.planHeld = true)
      (bad → exec (.beatCfgWrite v) s = .next (ignored 0x1040))
      ∧ (¬ bad → ∃ t, exec (.beatCfgWrite v) s = .next t ∧ t.beat.period = n % 16 ∧ t.reg 0 0x1040 = n % 256))
    ∧ (open_ 0x105C → let edge := s.stagedLow 0x1058 + n * 2 ^ 32
      (edge < s.beatNow + 2 ∨ s.hasPartner = true → exec (.epochEdgeWrite v) s = .next (ignored 0x105C))
      ∧ (s.beatNow + 2 ≤ edge → s.hasPartner = false → ∃ t, exec (.epochEdgeWrite v) s = .next t
        ∧ t.beat.armed = some (if s.beat.epochSet then edge else edge - 2 ^ 63, BitVec.ofNat 64 (s.reg 0 0x1050 + s.reg 0 0x1054 * 2 ^ 32))
        ∧ t.beat.number = s.beat.number))
    ∧ (open_ 0x2084 → ∃ t, exec (.planCtrlStart v) s = .next t ∧ t.reg 0 0x2084 = n &&& 2
      ∧ (n.testBit 0 = true → ∀ d < 4, (t.die d).planRunning = true) ∧ (n.testBit 0 = false → t.dies = s.dies))
    ∧ (open_ 0x205C → exec (.govCfgWrite v) s = .next (if 4 < n % 8 then ignored 0x205C else s.setReg 0 0x205C (n % 8)))
    ∧ (open_ (pageHbm stack.val + 0x70) →
      (n.testBit 0 = false → exec (.marginCtrlStart stack v width height) s = .next (s.setReg 0 (pageHbm stack.val + 0x70) (n &&& 0x7E)))
      ∧ (n.testBit 0 = true → (s.stackClaimed stack.val = true ∨ s.stackConfidential stack.val = true) →
        exec (.marginCtrlStart stack v width height) s = .next (ignored (pageHbm stack.val + 0x70))))
    ∧ (open_ (pageFab p + 0x40) → n &&& 0x2F = s.portCfg p →
      (n.testBit 4 = false → exec (.portRetrain port v) s = .next s)
      ∧ (n.testBit 4 = true → s.portEnabled p = true → s.portClock p = true → exec (.portRetrain port v) s
          = .next (if 2 ≤ (s.port p).st then s.dropLink p else s.setPort p { s.port p with st := 1 })))
    ∧ (open_ 0x4044 → let k := min (max n (s.oldest .mgmt)) (s.wrSeq 0)
      ∃ t, exec (.rdSeqWrite .mgmt v) s = .next t ∧ t.log = s.log.filter (fun e => !decide (e.seq < k)))
    ∧ ((s.pageAt? .mgmt 0x64).isSome = true →
      (s.queueBad s.mqRecord = true ∨ qrMgmt s.mqRecord = false → exec .apply s = .next (s.setReg 0 0x68 (3 + 0xC3 * 4)))
      ∧ (s.queueBad s.mqRecord = false → qrMgmt s.mqRecord = true → exec .apply s = .next ((s.takeQueue s.mqRecord).setReg 0 0x68 1)))
    ∧ ((s.pageAt? .mgmt 0x60A0).isSome = true → n.testBit 8 = true → ∀ c, coreId? (n % 32) = some c →
      ((s.cell c).st = .quarantined → exec (.cmapOrder v) s = .next (ignored 0x60A0))
      ∧ ((s.cell c).st ≠ .quarantined → exec (.cmapOrder v) s = .next (s.orderQuarantine c 3)))
    ∧ exec (.registerWrite w off 4 data) s = .next (s.write32 w off.toNat (data.toNat % 2 ^ 32))
    ∧ exec (.registerWrite w off 8 data) s
        = .next ((s.write32 w off.toNat (data.toNat % 2 ^ 32)).write32 w (off.toNat + 4) (data.toNat / 2 ^ 32))
    ∧ (∀ bytes, bytes ≠ 4 → bytes ≠ 8 → (s.pageAt? w off.toNat).isSome = true →
      exec (.registerWrite w off bytes data) s = .next (s.refuseAccess w off.toNat 0xFFFE))
    ∧ (∀ k i x, s.pageAt? w off.toNat = some (k, i) → (∀ f, w = .fn f → k ≠ .beat) → regOff off.toNat = 0x1C → s.locked off.toNat = false →
      s.write32 w off.toNat x = s.setReg (winNo w) (pageBase off.toNat + 0x1C) x)

/-- SMBus and the test access port (R484 to R486): an answer holds the words of its command, zeros before READY but for GET_STATE, the failure's
event code after the PKC failed, and nothing without power; it changes nothing else of the device. The scan reads the register its
instruction selects; IDCODE is 0x1B7A1DCB; with a confidential function SAMPLE/PRELOAD acts as BYPASS. -/
def Obligations.SidePorts : Prop :=
  ∀ (s : State) (eid : Byte) (boundary : BitVec 64),
    let answers := fun (i : Instr) (always : Bool) (bs : List Byte) =>
      (s.boot.powered = false → exec i s = .next s)
      ∧ (s.boot.powered = true → s.boot.pkcFailed = true → exec i s = .next { s with smbData := leBytes 2 0x73C1 })
      ∧ (s.boot.powered = true → s.boot.pkcFailed = false → (always = true ∨ s.boot.st = 8) → ∃ t, exec i s = .next t ∧ t.smbData = bs
          ∧ { t with smbData := s.smbData, fresh := s.fresh } = s)
      ∧ (s.boot.powered = true → s.boot.pkcFailed = false → always = false → s.boot.st ≠ 8 →
          exec i s = .next { s with smbData := List.replicate bs.length 0 })
    let scans := fun (i : Instr) (ir : Nat) (data : BitVec 64) =>
      (s.boot.powered = true → exec i s = .next { s with boot := { s.boot with tapIr := ir }, scanData := data })
      ∧ (s.boot.powered = false → exec i s = .next s)
    answers .getState true (words [s.bootState, s.faultReg, s.coreCounts])
    ∧ answers .getThermal false (words [s.temps 0 4, s.temps 4 4, s.tjIo] ++ (List.range 24).map (fun i => (s.stack i).temp))
    ∧ answers .getPower false (words ([s.power.package % 4096, s.capEff % 4096] ++ (List.range 4).map s.vcoreReg))
    ∧ answers .getEvents false s.severe
    ∧ (s.boot.powered = true → s.boot.pkcFailed = false → ∃ t, exec (.mctpControl 1 eid) s = .next t ∧ t.boot = { s.boot with eid := eid }
        ∧ t.smbData = [0, 0, eid, 0] ∧ t.ops = s.ops ∧ t.mem = s.mem)
    ∧ (s.boot.powered = true → s.boot.pkcFailed = true → ∀ command, ∃ t, exec (.mctpControl command eid) s = .next t
        ∧ t.smbData = leBytes 2 0x73C1)
    ∧ scans .bypass 1 0 ∧ scans .idcode 0 0x1B7A1DCB ∧ scans .extest 3 s.boot.boundary
    ∧ (s.anyConfidential = true → scans (.samplePreload boundary) 1 0)
    ∧ (s.boot.powered = true → s.anyConfidential = false → ∃ t, exec (.samplePreload boundary) s = .next t ∧ t.boot.boundary = boundary
        ∧ t.boot.tapIr = 2 ∧ t.ops = s.ops ∧ t.mem = s.mem)

/-! ## The block as a whole -/

/-- A step takes the command at the front of the queue and does with the rest what the command does; on an empty queue, the model's choice (log
entry 5), it tries again what waits. -/
def Obligations.StepRunsFront : Prop :=
  ∀ (s : State) (c : Instr) (rest : List Instr),
    (s.pending = c :: rest → step s = exec c { s with pending := rest }) ∧ (s.pending = [] → step s = .next (retryParked s))

/-- The state after power-on reset, as far as the tables give it: every function off, no operation, no queue set; BOOT_STATE ROM; the beat of
2^3 units without an epoch and no master; CHIP_ID 0xFFFF; the cap 3,200 W; the directory entry free under FRAME 0xFF; every port down. -/
def Obligations.ResetValues : Prop :=
  let s := State.reset
  s.pending = [] ∧ s.ops = [] ∧ s.queues = [] ∧ s.log = [] ∧ (∀ f, (s.fn f).st = .off) ∧ (∀ q, (s.queue q).set = false)
  ∧ s.boot.st = 0 ∧ s.boot.source = 1 ∧ s.boot.fault = false ∧ s.beat.period = 3 ∧ s.beat.epochSet = false ∧ s.beat.master = 0xFFFF
  ∧ s.beatNow = 2 ^ 63 ∧ s.reg 0 (pagePkc + 0x5C) = 0xFFFF ∧ s.reg 0 (pageBeat + 0x4C) = 256 ∧ s.power.cap = 3200
  ∧ (∀ p, pgTier (s.page p) = (if (stackOfPage p).isSome then 3 else 0) ∧ pgFrame (s.page p) = 0xFF)
  ∧ (∀ p, (s.port p).st = 0) ∧ (∀ c, cxState (s.ctx c) = 0 ∧ cxFrame (s.ctx c) = 0xFF ∧ cxWFmt (s.ctx c) = 1)

/-- Every step keeps memory in its canonical form: addresses strictly rising, no entry that an unlisted byte would read as. -/
def Obligations.MemoryKept : Prop :=
  ∀ (s t : State), memWf s.mem = true → step s = .next t → memWf t.mem = true

/-- Every step keeps the outstanding operations apart: each has a number of its own, below the next one to be given. -/
def Obligations.OperationsNumbered : Prop :=
  ∀ (s t : State), (s.ops.map (·.num)).Nodup → (∀ o ∈ s.ops, o.num < s.nextOp) → step s = .next t →
    (t.ops.map (·.num)).Nodup ∧ ∀ o ∈ t.ops, o.num < t.nextOp

/-- Both hold after reset, and no command runs there of itself: the idle step leaves no operation. -/
def Obligations.ResetKeeps : Prop :=
  memWf State.reset.mem = true ∧ (State.reset.ops.map (·.num)).Nodup ∧ (∀ o ∈ State.reset.ops, o.num < State.reset.nextOp)
  ∧ ∃ t, step State.reset = .next t ∧ t.ops = [] ∧ t.mem = [] ∧ t.boot = State.reset.boot
end

