-- ==== Sys2Proof/Laws/Issue.lean ====
section
/-! SUPPORT. Issue, said once: a descriptor that issues reaches its command's own effect. -/

namespace Sys2Proof.Laws

open Sys2Proof.Machine Sys2Proof.Safety

theorem modOp_fresh (s : State) (o x : Op) (h : ∀ y ∈ s.ops, y.num < s.nextOp) (ho : o.num = s.nextOp) (hr : o.ref = x.ref) :
    (s.addOp o).modOp x.ref (fun _ => x) = s.addOp x := by
  have hx : x.num = s.nextOp := by
    have := congrArg Prod.snd hr; simp [Op.ref] at this; omega
  have hmap : s.ops.map (fun y => if y.is x.ref then x else y) = s.ops := by
    refine (List.map_congr_left (g := id) (fun y hy => ?_)).trans (List.map_id _)
    have := h y hy
    have hn : y.num ≠ x.num := by omega
    simp [Op.is, Op.ref, hn]
  have hox : o.is x.ref = true := by rw [← hr]; simp [Op.is, Op.ref]
  simp [State.modOp, State.addOp, hmap, hox]

theorem before_fresh (s : State) (o : Op) (h : ∀ y ∈ s.ops, y.num < s.nextOp) (ho : o.num = s.nextOp) :
    (s.addOp o).before o = s.ops.filter (fun x => decide (x.queue = o.queue)) := by
  have hne : ∀ y ∈ s.ops, (!y.is o.ref) = true := by
    intro y hy
    have := h y hy
    have hn : y.num ≠ o.num := by omega
    simp [Op.is, Op.ref, hn]
  have hself : (!o.is o.ref) = false := by simp [Op.is, Op.ref]
  unfold State.before State.addOp
  simp only
  rw [List.takeWhile_append_of_pos hne]
  simp [hself]

theorem blocked_fresh (s : State) (q : QueueId) (d : Desc) (o : Op) (h : Starts s q d) (ho : o.num = s.nextOp) (hq : o.queue = q)
    (hd : o.desc = d) : (s.addOp o).blocked o = false := by
  unfold State.blocked
  rw [before_fresh s o h.numbered ho]
  have hc := h.clear
  simp only [Bool.or_eq_false_iff]
  refine ⟨?_, ?_⟩
  · rw [List.any_eq_false]
    intro x hx
    simp only [List.mem_filter, decide_eq_true_eq] at hx
    obtain ⟨h1, h2, h3, _⟩ := hc x hx.1 (hx.2.trans hq)
    simp [h1, h2, h3]
  · by_cases hf : hdFence d = 1
    · have : s.ops.filter (fun x => decide (x.queue = o.queue)) = [] := by
        rw [List.filter_eq_nil_iff]
        intro x hx hxq
        exact (hc x hx ((of_decide_eq_true hxq).trans hq)).2.2.2 hf
      simp [this]
    · simp [hd, hf]

theorem accept_starts (s : State) (i : Sys2Proof.Instr) (q : QueueId) (d : Desc) (h : Starts s q d) :
    s.accept i q d = (some (opOf s q d), s.addOp (opOf s q d)) := by
  have hiss : s.issuing q = true := by simp [State.issuing, h.reads]
  have hold : s.ops.find? (fun o => decide (o.queue = q) && decide (o.desc = d) && (decide (o.stage = .dispatched) || decide (o.stage = .held))) = none := by
    rw [List.find?_eq_none]
    intro o ho hx
    simp only [Bool.and_eq_true, Bool.or_eq_true, decide_eq_true_eq] at hx
    obtain ⟨⟨hq, _⟩, hs⟩ := hx
    obtain ⟨h1, h2, _⟩ := h.clear o ho hq
    rcases hs with hs | hs
    · exact h1 hs
    · exact h2 hs
  unfold State.accept
  simp only [hiss, hold, h.runs, h.reads, h.fits, Bool.not_true, Bool.false_or, Bool.false_eq_true, if_false]
  have hadd : ∀ o : Op, (s.addOp o).headerCause q d = s.headerCause q d := fun o => rfl
  rw [hadd, h.header]
  simp only [ne_eq, not_true_eq_false, if_false]
  rw [if_neg (by rw [blocked_fresh s q d _ h rfl rfl rfl]; simp)]
  exact congrArg (Prod.mk _) (modOp_fresh s _ (opOf s q d) h.numbered rfl rfl)

theorem accept_waits (s : State) (i : Sys2Proof.Instr) (q : QueueId) (d : Desc) (o : Op) (h : Waits s q d o) :
    s.accept i q d = (some (issued s o), s.modOp o.ref (fun _ => issued s o)) := by
  have hq : o.queue = q := by
    have := List.find?_some h.first
    simp only [Bool.and_eq_true, decide_eq_true_eq] at this
    exact this.1.1
  subst hq
  unfold State.accept
  simp only [h.issues, h.first, h.free, Bool.not_true, Bool.false_eq_true, if_false]
  rfl

/-- A descriptor that spells its command and issues reaches the command's own effect. -/
theorem issue_of {s b : State} {i : Sys2Proof.Instr} {q : QueueId} {d : Desc} {o : Op} {cls op : Nat} {sel : Bool}
    (h : Issues s q d o b) (hi : carried i = some (q, d, cls, op, sel)) (hc : hdClass d = cls) (ho : hdOp d = op) (hs : sel = true)
    (k : Op → State → State) : s.issue i k = k o b := by
  unfold State.issue
  rw [hi]
  simp only [hc, ho, hs, and_self, if_true]
  cases h with
  | direct h => rw [accept_starts s i q d h]
  | waited o h => rw [accept_waits s i q d o h]

theorem Issues_desc {s b : State} {q : QueueId} {d : Desc} {o : Op} (h : Issues s q d o b) : o.desc = d ∧ o.queue = q := by
  cases h with
  | direct h => exact ⟨rfl, rfl⟩
  | waited o h =>
    have := List.find?_some h.first
    simp only [Bool.and_eq_true, decide_eq_true_eq] at this
    exact ⟨this.1.2, this.1.1⟩

/-- The same on its core. -/
theorem issueOnCore_of {s b : State} {i : Sys2Proof.Instr} {q : QueueId} {d : Desc} {o : Op} {c : CoreId} {cls op : Nat} {sel : Bool}
    (h : Issues s q d o b) (hc : OnCore b o c) (hi : carried i = some (q, d, cls, op, sel)) (hcl : hdClass d = cls) (ho : hdOp d = op)
    (hs : sel = true) (k : CoreId → Op → State → State) : s.issueOnCore i k = k c o b := by
  unfold State.issueOnCore
  rw [issue_of h hi hcl ho hs]
  simp [hc.core, hc.sound, hc.still]

/-- A vector operation that is ready reaches its own effect. -/
theorem vectorOp_ready {s b : State} {i : Sys2Proof.Instr} {q : QueueId} {d : Desc} {o : Op} {c : CoreId} {op : Nat}
    (h : Issues s q d o b) (hv : VectorReady b o c) (hi : carried i = some (q, d, 1, op, true)) (ho : hdOp d = op)
    (run : CoreId → Op → State → State) : s.vectorOp i false run = run c (veOp b o c) (veState b o c) := by
  have hd := (Issues_desc h).1
  unfold State.vectorOp
  rw [issueOnCore_of h hv.toOnCore hi (by rw [← hd]; exact hv.cls) ho rfl]
  have hk : b.vectorCause c o (b.enabledEntry o.fn (veWatchEn o.desc) (veWatchId o.desc)) = 0 := hv.checks
  have hw : b.stageWait o.fn ((veReads o.desc).map (fun r => (spKey c.val r.1, r.2))) = false := hv.slots
  simp only [hk, hw, ne_eq, not_true_eq_false, if_false, Bool.false_eq_true]
  rfl

end Sys2Proof.Laws
end

