-- ==== Sys2Proof/Laws/State.lean ====
section
/-! SUPPORT. What each update of the state does to each field, by rfl: no later proof unfolds a record update. -/

namespace Sys2Proof.Machine

@[simp] theorem State.setFn_pending (s : State) (f : FnId) (x : Fn) : (s.setFn f x).pending = s.pending := rfl
@[simp] theorem State.setFn_parked (s : State) (f : FnId) (x : Fn) : (s.setFn f x).parked = s.parked := rfl
@[simp] theorem State.setFn_mem (s : State) (f : FnId) (x : Fn) : (s.setFn f x).mem = s.mem := rfl
@[simp] theorem State.setFn_poison (s : State) (f : FnId) (x : Fn) : (s.setFn f x).poison = s.poison := rfl
@[simp] theorem State.setFn_dir (s : State) (f : FnId) (x : Fn) : (s.setFn f x).dir = s.dir := rfl
@[simp] theorem State.setFn_scrubs (s : State) (f : FnId) (x : Fn) : (s.setFn f x).scrubs = s.scrubs := rfl
@[simp] theorem State.setFn_dirLag (s : State) (f : FnId) (x : Fn) : (s.setFn f x).dirLag = s.dirLag := rfl
@[simp] theorem State.setFn_ctxs (s : State) (f : FnId) (x : Fn) : (s.setFn f x).ctxs = s.ctxs := rfl
@[simp] theorem State.setFn_frames (s : State) (f : FnId) (x : Fn) : (s.setFn f x).frames = s.frames := rfl
@[simp] theorem State.setFn_queues (s : State) (f : FnId) (x : Fn) : (s.setFn f x).queues = s.queues := rfl
@[simp] theorem State.setFn_ops (s : State) (f : FnId) (x : Fn) : (s.setFn f x).ops = s.ops := rfl
@[simp] theorem State.setFn_nextOp (s : State) (f : FnId) (x : Fn) : (s.setFn f x).nextOp = s.nextOp := rfl
@[simp] theorem State.setFn_heldOps (s : State) (f : FnId) (x : Fn) : (s.setFn f x).heldOps = s.heldOps := rfl
@[simp] theorem State.setFn_cells (s : State) (f : FnId) (x : Fn) : (s.setFn f x).cells = s.cells := rfl
@[simp] theorem State.setFn_mes (s : State) (f : FnId) (x : Fn) : (s.setFn f x).mes = s.mes := rfl
@[simp] theorem State.setFn_tes (s : State) (f : FnId) (x : Fn) : (s.setFn f x).tes = s.tes := rfl
@[simp] theorem State.setFn_dies (s : State) (f : FnId) (x : Fn) : (s.setFn f x).dies = s.dies := rfl
@[simp] theorem State.setFn_hbms (s : State) (f : FnId) (x : Fn) : (s.setFn f x).hbms = s.hbms := rfl
@[simp] theorem State.setFn_parts (s : State) (f : FnId) (x : Fn) : (s.setFn f x).parts = s.parts := rfl
@[simp] theorem State.setFn_ports (s : State) (f : FnId) (x : Fn) : (s.setFn f x).ports = s.ports := rfl
@[simp] theorem State.setFn_reduces (s : State) (f : FnId) (x : Fn) : (s.setFn f x).reduces = s.reduces := rfl
@[simp] theorem State.setFn_redDone (s : State) (f : FnId) (x : Fn) : (s.setFn f x).redDone = s.redDone := rfl
@[simp] theorem State.setFn_inbox (s : State) (f : FnId) (x : Fn) : (s.setFn f x).inbox = s.inbox := rfl
@[simp] theorem State.setFn_mail (s : State) (f : FnId) (x : Fn) : (s.setFn f x).mail = s.mail := rfl
@[simp] theorem State.setFn_outbox (s : State) (f : FnId) (x : Fn) : (s.setFn f x).outbox = s.outbox := rfl
@[simp] theorem State.setFn_nextMsg (s : State) (f : FnId) (x : Fn) : (s.setFn f x).nextMsg = s.nextMsg := rfl
@[simp] theorem State.setFn_jobs (s : State) (f : FnId) (x : Fn) : (s.setFn f x).jobs = s.jobs := rfl
@[simp] theorem State.setFn_beat (s : State) (f : FnId) (x : Fn) : (s.setFn f x).beat = s.beat := rfl
@[simp] theorem State.setFn_log (s : State) (f : FnId) (x : Fn) : (s.setFn f x).log = s.log := rfl
@[simp] theorem State.setFn_logNext (s : State) (f : FnId) (x : Fn) : (s.setFn f x).logNext = s.logNext := rfl
@[simp] theorem State.setFn_power (s : State) (f : FnId) (x : Fn) : (s.setFn f x).power = s.power := rfl
@[simp] theorem State.setFn_store (s : State) (f : FnId) (x : Fn) : (s.setFn f x).store = s.store := rfl
@[simp] theorem State.setFn_boot (s : State) (f : FnId) (x : Fn) : (s.setFn f x).boot = s.boot := rfl
@[simp] theorem State.setFn_links (s : State) (f : FnId) (x : Fn) : (s.setFn f x).links = s.links := rfl
@[simp] theorem State.setFn_extension (s : State) (f : FnId) (x : Fn) : (s.setFn f x).extension = s.extension := rfl
@[simp] theorem State.setFn_regs (s : State) (f : FnId) (x : Fn) : (s.setFn f x).regs = s.regs := rfl
@[simp] theorem State.setFn_snapshots (s : State) (f : FnId) (x : Fn) : (s.setFn f x).snapshots = s.snapshots := rfl
@[simp] theorem State.setFn_mgmtEvent (s : State) (f : FnId) (x : Fn) : (s.setFn f x).mgmtEvent = s.mgmtEvent := rfl
@[simp] theorem State.setFn_mgmtCoalesce (s : State) (f : FnId) (x : Fn) : (s.setFn f x).mgmtCoalesce = s.mgmtCoalesce := rfl
@[simp] theorem State.setFn_rdData (s : State) (f : FnId) (x : Fn) : (s.setFn f x).rdData = s.rdData := rfl
@[simp] theorem State.setFn_smbData (s : State) (f : FnId) (x : Fn) : (s.setFn f x).smbData = s.smbData := rfl
@[simp] theorem State.setFn_scanData (s : State) (f : FnId) (x : Fn) : (s.setFn f x).scanData = s.scanData := rfl
@[simp] theorem State.setFn_lastCpl (s : State) (f : FnId) (x : Fn) : (s.setFn f x).lastCpl = s.lastCpl := rfl
@[simp] theorem State.setFn_fresh (s : State) (f : FnId) (x : Fn) : (s.setFn f x).fresh = s.fresh := rfl

@[simp] theorem State.setCell_pending (s : State) (c : CoreId) (x : Cell) : (s.setCell c x).pending = s.pending := rfl
@[simp] theorem State.setCell_parked (s : State) (c : CoreId) (x : Cell) : (s.setCell c x).parked = s.parked := rfl
@[simp] theorem State.setCell_mem (s : State) (c : CoreId) (x : Cell) : (s.setCell c x).mem = s.mem := rfl
@[simp] theorem State.setCell_poison (s : State) (c : CoreId) (x : Cell) : (s.setCell c x).poison = s.poison := rfl
@[simp] theorem State.setCell_dir (s : State) (c : CoreId) (x : Cell) : (s.setCell c x).dir = s.dir := rfl
@[simp] theorem State.setCell_scrubs (s : State) (c : CoreId) (x : Cell) : (s.setCell c x).scrubs = s.scrubs := rfl
@[simp] theorem State.setCell_dirLag (s : State) (c : CoreId) (x : Cell) : (s.setCell c x).dirLag = s.dirLag := rfl
@[simp] theorem State.setCell_ctxs (s : State) (c : CoreId) (x : Cell) : (s.setCell c x).ctxs = s.ctxs := rfl
@[simp] theorem State.setCell_frames (s : State) (c : CoreId) (x : Cell) : (s.setCell c x).frames = s.frames := rfl
@[simp] theorem State.setCell_fns (s : State) (c : CoreId) (x : Cell) : (s.setCell c x).fns = s.fns := rfl
@[simp] theorem State.setCell_queues (s : State) (c : CoreId) (x : Cell) : (s.setCell c x).queues = s.queues := rfl
@[simp] theorem State.setCell_ops (s : State) (c : CoreId) (x : Cell) : (s.setCell c x).ops = s.ops := rfl
@[simp] theorem State.setCell_nextOp (s : State) (c : CoreId) (x : Cell) : (s.setCell c x).nextOp = s.nextOp := rfl
@[simp] theorem State.setCell_heldOps (s : State) (c : CoreId) (x : Cell) : (s.setCell c x).heldOps = s.heldOps := rfl
@[simp] theorem State.setCell_mes (s : State) (c : CoreId) (x : Cell) : (s.setCell c x).mes = s.mes := rfl
@[simp] theorem State.setCell_tes (s : State) (c : CoreId) (x : Cell) : (s.setCell c x).tes = s.tes := rfl
@[simp] theorem State.setCell_dies (s : State) (c : CoreId) (x : Cell) : (s.setCell c x).dies = s.dies := rfl
@[simp] theorem State.setCell_hbms (s : State) (c : CoreId) (x : Cell) : (s.setCell c x).hbms = s.hbms := rfl
@[simp] theorem State.setCell_parts (s : State) (c : CoreId) (x : Cell) : (s.setCell c x).parts = s.parts := rfl
@[simp] theorem State.setCell_ports (s : State) (c : CoreId) (x : Cell) : (s.setCell c x).ports = s.ports := rfl
@[simp] theorem State.setCell_reduces (s : State) (c : CoreId) (x : Cell) : (s.setCell c x).reduces = s.reduces := rfl
@[simp] theorem State.setCell_redDone (s : State) (c : CoreId) (x : Cell) : (s.setCell c x).redDone = s.redDone := rfl
@[simp] theorem State.setCell_inbox (s : State) (c : CoreId) (x : Cell) : (s.setCell c x).inbox = s.inbox := rfl
@[simp] theorem State.setCell_mail (s : State) (c : CoreId) (x : Cell) : (s.setCell c x).mail = s.mail := rfl
@[simp] theorem State.setCell_outbox (s : State) (c : CoreId) (x : Cell) : (s.setCell c x).outbox = s.outbox := rfl
@[simp] theorem State.setCell_nextMsg (s : State) (c : CoreId) (x : Cell) : (s.setCell c x).nextMsg = s.nextMsg := rfl
@[simp] theorem State.setCell_jobs (s : State) (c : CoreId) (x : Cell) : (s.setCell c x).jobs = s.jobs := rfl
@[simp] theorem State.setCell_beat (s : State) (c : CoreId) (x : Cell) : (s.setCell c x).beat = s.beat := rfl
@[simp] theorem State.setCell_log (s : State) (c : CoreId) (x : Cell) : (s.setCell c x).log = s.log := rfl
@[simp] theorem State.setCell_logNext (s : State) (c : CoreId) (x : Cell) : (s.setCell c x).logNext = s.logNext := rfl
@[simp] theorem State.setCell_power (s : State) (c : CoreId) (x : Cell) : (s.setCell c x).power = s.power := rfl
@[simp] theorem State.setCell_store (s : State) (c : CoreId) (x : Cell) : (s.setCell c x).store = s.store := rfl
@[simp] theorem State.setCell_boot (s : State) (c : CoreId) (x : Cell) : (s.setCell c x).boot = s.boot := rfl
@[simp] theorem State.setCell_links (s : State) (c : CoreId) (x : Cell) : (s.setCell c x).links = s.links := rfl
@[simp] theorem State.setCell_extension (s : State) (c : CoreId) (x : Cell) : (s.setCell c x).extension = s.extension := rfl
@[simp] theorem State.setCell_regs (s : State) (c : CoreId) (x : Cell) : (s.setCell c x).regs = s.regs := rfl
@[simp] theorem State.setCell_snapshots (s : State) (c : CoreId) (x : Cell) : (s.setCell c x).snapshots = s.snapshots := rfl
@[simp] theorem State.setCell_mgmtEvent (s : State) (c : CoreId) (x : Cell) : (s.setCell c x).mgmtEvent = s.mgmtEvent := rfl
@[simp] theorem State.setCell_mgmtCoalesce (s : State) (c : CoreId) (x : Cell) : (s.setCell c x).mgmtCoalesce = s.mgmtCoalesce := rfl
@[simp] theorem State.setCell_rdData (s : State) (c : CoreId) (x : Cell) : (s.setCell c x).rdData = s.rdData := rfl
@[simp] theorem State.setCell_smbData (s : State) (c : CoreId) (x : Cell) : (s.setCell c x).smbData = s.smbData := rfl
@[simp] theorem State.setCell_scanData (s : State) (c : CoreId) (x : Cell) : (s.setCell c x).scanData = s.scanData := rfl
@[simp] theorem State.setCell_lastCpl (s : State) (c : CoreId) (x : Cell) : (s.setCell c x).lastCpl = s.lastCpl := rfl
@[simp] theorem State.setCell_fresh (s : State) (c : CoreId) (x : Cell) : (s.setCell c x).fresh = s.fresh := rfl

@[simp] theorem State.setQueue_pending (s : State) (q : Nat) (x : Queue) : (s.setQueue q x).pending = s.pending := rfl
@[simp] theorem State.setQueue_parked (s : State) (q : Nat) (x : Queue) : (s.setQueue q x).parked = s.parked := rfl
@[simp] theorem State.setQueue_mem (s : State) (q : Nat) (x : Queue) : (s.setQueue q x).mem = s.mem := rfl
@[simp] theorem State.setQueue_poison (s : State) (q : Nat) (x : Queue) : (s.setQueue q x).poison = s.poison := rfl
@[simp] theorem State.setQueue_dir (s : State) (q : Nat) (x : Queue) : (s.setQueue q x).dir = s.dir := rfl
@[simp] theorem State.setQueue_scrubs (s : State) (q : Nat) (x : Queue) : (s.setQueue q x).scrubs = s.scrubs := rfl
@[simp] theorem State.setQueue_dirLag (s : State) (q : Nat) (x : Queue) : (s.setQueue q x).dirLag = s.dirLag := rfl
@[simp] theorem State.setQueue_ctxs (s : State) (q : Nat) (x : Queue) : (s.setQueue q x).ctxs = s.ctxs := rfl
@[simp] theorem State.setQueue_frames (s : State) (q : Nat) (x : Queue) : (s.setQueue q x).frames = s.frames := rfl
@[simp] theorem State.setQueue_fns (s : State) (q : Nat) (x : Queue) : (s.setQueue q x).fns = s.fns := rfl
@[simp] theorem State.setQueue_ops (s : State) (q : Nat) (x : Queue) : (s.setQueue q x).ops = s.ops := rfl
@[simp] theorem State.setQueue_nextOp (s : State) (q : Nat) (x : Queue) : (s.setQueue q x).nextOp = s.nextOp := rfl
@[simp] theorem State.setQueue_heldOps (s : State) (q : Nat) (x : Queue) : (s.setQueue q x).heldOps = s.heldOps := rfl
@[simp] theorem State.setQueue_cells (s : State) (q : Nat) (x : Queue) : (s.setQueue q x).cells = s.cells := rfl
@[simp] theorem State.setQueue_mes (s : State) (q : Nat) (x : Queue) : (s.setQueue q x).mes = s.mes := rfl
@[simp] theorem State.setQueue_tes (s : State) (q : Nat) (x : Queue) : (s.setQueue q x).tes = s.tes := rfl
@[simp] theorem State.setQueue_dies (s : State) (q : Nat) (x : Queue) : (s.setQueue q x).dies = s.dies := rfl
@[simp] theorem State.setQueue_hbms (s : State) (q : Nat) (x : Queue) : (s.setQueue q x).hbms = s.hbms := rfl
@[simp] theorem State.setQueue_parts (s : State) (q : Nat) (x : Queue) : (s.setQueue q x).parts = s.parts := rfl
@[simp] theorem State.setQueue_ports (s : State) (q : Nat) (x : Queue) : (s.setQueue q x).ports = s.ports := rfl
@[simp] theorem State.setQueue_reduces (s : State) (q : Nat) (x : Queue) : (s.setQueue q x).reduces = s.reduces := rfl
@[simp] theorem State.setQueue_redDone (s : State) (q : Nat) (x : Queue) : (s.setQueue q x).redDone = s.redDone := rfl
@[simp] theorem State.setQueue_inbox (s : State) (q : Nat) (x : Queue) : (s.setQueue q x).inbox = s.inbox := rfl
@[simp] theorem State.setQueue_mail (s : State) (q : Nat) (x : Queue) : (s.setQueue q x).mail = s.mail := rfl
@[simp] theorem State.setQueue_outbox (s : State) (q : Nat) (x : Queue) : (s.setQueue q x).outbox = s.outbox := rfl
@[simp] theorem State.setQueue_nextMsg (s : State) (q : Nat) (x : Queue) : (s.setQueue q x).nextMsg = s.nextMsg := rfl
@[simp] theorem State.setQueue_jobs (s : State) (q : Nat) (x : Queue) : (s.setQueue q x).jobs = s.jobs := rfl
@[simp] theorem State.setQueue_beat (s : State) (q : Nat) (x : Queue) : (s.setQueue q x).beat = s.beat := rfl
@[simp] theorem State.setQueue_log (s : State) (q : Nat) (x : Queue) : (s.setQueue q x).log = s.log := rfl
@[simp] theorem State.setQueue_logNext (s : State) (q : Nat) (x : Queue) : (s.setQueue q x).logNext = s.logNext := rfl
@[simp] theorem State.setQueue_power (s : State) (q : Nat) (x : Queue) : (s.setQueue q x).power = s.power := rfl
@[simp] theorem State.setQueue_store (s : State) (q : Nat) (x : Queue) : (s.setQueue q x).store = s.store := rfl
@[simp] theorem State.setQueue_boot (s : State) (q : Nat) (x : Queue) : (s.setQueue q x).boot = s.boot := rfl
@[simp] theorem State.setQueue_links (s : State) (q : Nat) (x : Queue) : (s.setQueue q x).links = s.links := rfl
@[simp] theorem State.setQueue_extension (s : State) (q : Nat) (x : Queue) : (s.setQueue q x).extension = s.extension := rfl
@[simp] theorem State.setQueue_regs (s : State) (q : Nat) (x : Queue) : (s.setQueue q x).regs = s.regs := rfl
@[simp] theorem State.setQueue_snapshots (s : State) (q : Nat) (x : Queue) : (s.setQueue q x).snapshots = s.snapshots := rfl
@[simp] theorem State.setQueue_mgmtEvent (s : State) (q : Nat) (x : Queue) : (s.setQueue q x).mgmtEvent = s.mgmtEvent := rfl
@[simp] theorem State.setQueue_mgmtCoalesce (s : State) (q : Nat) (x : Queue) : (s.setQueue q x).mgmtCoalesce = s.mgmtCoalesce := rfl
@[simp] theorem State.setQueue_rdData (s : State) (q : Nat) (x : Queue) : (s.setQueue q x).rdData = s.rdData := rfl
@[simp] theorem State.setQueue_smbData (s : State) (q : Nat) (x : Queue) : (s.setQueue q x).smbData = s.smbData := rfl
@[simp] theorem State.setQueue_scanData (s : State) (q : Nat) (x : Queue) : (s.setQueue q x).scanData = s.scanData := rfl
@[simp] theorem State.setQueue_lastCpl (s : State) (q : Nat) (x : Queue) : (s.setQueue q x).lastCpl = s.lastCpl := rfl
@[simp] theorem State.setQueue_fresh (s : State) (q : Nat) (x : Queue) : (s.setQueue q x).fresh = s.fresh := rfl

@[simp] theorem State.setMe_pending (s : State) (i : Nat) (x : Me) : (s.setMe i x).pending = s.pending := rfl
@[simp] theorem State.setMe_parked (s : State) (i : Nat) (x : Me) : (s.setMe i x).parked = s.parked := rfl
@[simp] theorem State.setMe_mem (s : State) (i : Nat) (x : Me) : (s.setMe i x).mem = s.mem := rfl
@[simp] theorem State.setMe_poison (s : State) (i : Nat) (x : Me) : (s.setMe i x).poison = s.poison := rfl
@[simp] theorem State.setMe_dir (s : State) (i : Nat) (x : Me) : (s.setMe i x).dir = s.dir := rfl
@[simp] theorem State.setMe_scrubs (s : State) (i : Nat) (x : Me) : (s.setMe i x).scrubs = s.scrubs := rfl
@[simp] theorem State.setMe_dirLag (s : State) (i : Nat) (x : Me) : (s.setMe i x).dirLag = s.dirLag := rfl
@[simp] theorem State.setMe_ctxs (s : State) (i : Nat) (x : Me) : (s.setMe i x).ctxs = s.ctxs := rfl
@[simp] theorem State.setMe_frames (s : State) (i : Nat) (x : Me) : (s.setMe i x).frames = s.frames := rfl
@[simp] theorem State.setMe_fns (s : State) (i : Nat) (x : Me) : (s.setMe i x).fns = s.fns := rfl
@[simp] theorem State.setMe_queues (s : State) (i : Nat) (x : Me) : (s.setMe i x).queues = s.queues := rfl
@[simp] theorem State.setMe_ops (s : State) (i : Nat) (x : Me) : (s.setMe i x).ops = s.ops := rfl
@[simp] theorem State.setMe_nextOp (s : State) (i : Nat) (x : Me) : (s.setMe i x).nextOp = s.nextOp := rfl
@[simp] theorem State.setMe_heldOps (s : State) (i : Nat) (x : Me) : (s.setMe i x).heldOps = s.heldOps := rfl
@[simp] theorem State.setMe_cells (s : State) (i : Nat) (x : Me) : (s.setMe i x).cells = s.cells := rfl
@[simp] theorem State.setMe_tes (s : State) (i : Nat) (x : Me) : (s.setMe i x).tes = s.tes := rfl
@[simp] theorem State.setMe_dies (s : State) (i : Nat) (x : Me) : (s.setMe i x).dies = s.dies := rfl
@[simp] theorem State.setMe_hbms (s : State) (i : Nat) (x : Me) : (s.setMe i x).hbms = s.hbms := rfl
@[simp] theorem State.setMe_parts (s : State) (i : Nat) (x : Me) : (s.setMe i x).parts = s.parts := rfl
@[simp] theorem State.setMe_ports (s : State) (i : Nat) (x : Me) : (s.setMe i x).ports = s.ports := rfl
@[simp] theorem State.setMe_reduces (s : State) (i : Nat) (x : Me) : (s.setMe i x).reduces = s.reduces := rfl
@[simp] theorem State.setMe_redDone (s : State) (i : Nat) (x : Me) : (s.setMe i x).redDone = s.redDone := rfl
@[simp] theorem State.setMe_inbox (s : State) (i : Nat) (x : Me) : (s.setMe i x).inbox = s.inbox := rfl
@[simp] theorem State.setMe_mail (s : State) (i : Nat) (x : Me) : (s.setMe i x).mail = s.mail := rfl
@[simp] theorem State.setMe_outbox (s : State) (i : Nat) (x : Me) : (s.setMe i x).outbox = s.outbox := rfl
@[simp] theorem State.setMe_nextMsg (s : State) (i : Nat) (x : Me) : (s.setMe i x).nextMsg = s.nextMsg := rfl
@[simp] theorem State.setMe_jobs (s : State) (i : Nat) (x : Me) : (s.setMe i x).jobs = s.jobs := rfl
@[simp] theorem State.setMe_beat (s : State) (i : Nat) (x : Me) : (s.setMe i x).beat = s.beat := rfl
@[simp] theorem State.setMe_log (s : State) (i : Nat) (x : Me) : (s.setMe i x).log = s.log := rfl
@[simp] theorem State.setMe_logNext (s : State) (i : Nat) (x : Me) : (s.setMe i x).logNext = s.logNext := rfl
@[simp] theorem State.setMe_power (s : State) (i : Nat) (x : Me) : (s.setMe i x).power = s.power := rfl
@[simp] theorem State.setMe_store (s : State) (i : Nat) (x : Me) : (s.setMe i x).store = s.store := rfl
@[simp] theorem State.setMe_boot (s : State) (i : Nat) (x : Me) : (s.setMe i x).boot = s.boot := rfl
@[simp] theorem State.setMe_links (s : State) (i : Nat) (x : Me) : (s.setMe i x).links = s.links := rfl
@[simp] theorem State.setMe_extension (s : State) (i : Nat) (x : Me) : (s.setMe i x).extension = s.extension := rfl
@[simp] theorem State.setMe_regs (s : State) (i : Nat) (x : Me) : (s.setMe i x).regs = s.regs := rfl
@[simp] theorem State.setMe_snapshots (s : State) (i : Nat) (x : Me) : (s.setMe i x).snapshots = s.snapshots := rfl
@[simp] theorem State.setMe_mgmtEvent (s : State) (i : Nat) (x : Me) : (s.setMe i x).mgmtEvent = s.mgmtEvent := rfl
@[simp] theorem State.setMe_mgmtCoalesce (s : State) (i : Nat) (x : Me) : (s.setMe i x).mgmtCoalesce = s.mgmtCoalesce := rfl
@[simp] theorem State.setMe_rdData (s : State) (i : Nat) (x : Me) : (s.setMe i x).rdData = s.rdData := rfl
@[simp] theorem State.setMe_smbData (s : State) (i : Nat) (x : Me) : (s.setMe i x).smbData = s.smbData := rfl
@[simp] theorem State.setMe_scanData (s : State) (i : Nat) (x : Me) : (s.setMe i x).scanData = s.scanData := rfl
@[simp] theorem State.setMe_lastCpl (s : State) (i : Nat) (x : Me) : (s.setMe i x).lastCpl = s.lastCpl := rfl
@[simp] theorem State.setMe_fresh (s : State) (i : Nat) (x : Me) : (s.setMe i x).fresh = s.fresh := rfl

@[simp] theorem State.setTe_pending (s : State) (i : Nat) (x : Te) : (s.setTe i x).pending = s.pending := rfl
@[simp] theorem State.setTe_parked (s : State) (i : Nat) (x : Te) : (s.setTe i x).parked = s.parked := rfl
@[simp] theorem State.setTe_mem (s : State) (i : Nat) (x : Te) : (s.setTe i x).mem = s.mem := rfl
@[simp] theorem State.setTe_poison (s : State) (i : Nat) (x : Te) : (s.setTe i x).poison = s.poison := rfl
@[simp] theorem State.setTe_dir (s : State) (i : Nat) (x : Te) : (s.setTe i x).dir = s.dir := rfl
@[simp] theorem State.setTe_scrubs (s : State) (i : Nat) (x : Te) : (s.setTe i x).scrubs = s.scrubs := rfl
@[simp] theorem State.setTe_dirLag (s : State) (i : Nat) (x : Te) : (s.setTe i x).dirLag = s.dirLag := rfl
@[simp] theorem State.setTe_ctxs (s : State) (i : Nat) (x : Te) : (s.setTe i x).ctxs = s.ctxs := rfl
@[simp] theorem State.setTe_frames (s : State) (i : Nat) (x : Te) : (s.setTe i x).frames = s.frames := rfl
@[simp] theorem State.setTe_fns (s : State) (i : Nat) (x : Te) : (s.setTe i x).fns = s.fns := rfl
@[simp] theorem State.setTe_queues (s : State) (i : Nat) (x : Te) : (s.setTe i x).queues = s.queues := rfl
@[simp] theorem State.setTe_ops (s : State) (i : Nat) (x : Te) : (s.setTe i x).ops = s.ops := rfl
@[simp] theorem State.setTe_nextOp (s : State) (i : Nat) (x : Te) : (s.setTe i x).nextOp = s.nextOp := rfl
@[simp] theorem State.setTe_heldOps (s : State) (i : Nat) (x : Te) : (s.setTe i x).heldOps = s.heldOps := rfl
@[simp] theorem State.setTe_cells (s : State) (i : Nat) (x : Te) : (s.setTe i x).cells = s.cells := rfl
@[simp] theorem State.setTe_mes (s : State) (i : Nat) (x : Te) : (s.setTe i x).mes = s.mes := rfl
@[simp] theorem State.setTe_dies (s : State) (i : Nat) (x : Te) : (s.setTe i x).dies = s.dies := rfl
@[simp] theorem State.setTe_hbms (s : State) (i : Nat) (x : Te) : (s.setTe i x).hbms = s.hbms := rfl
@[simp] theorem State.setTe_parts (s : State) (i : Nat) (x : Te) : (s.setTe i x).parts = s.parts := rfl
@[simp] theorem State.setTe_ports (s : State) (i : Nat) (x : Te) : (s.setTe i x).ports = s.ports := rfl
@[simp] theorem State.setTe_reduces (s : State) (i : Nat) (x : Te) : (s.setTe i x).reduces = s.reduces := rfl
@[simp] theorem State.setTe_redDone (s : State) (i : Nat) (x : Te) : (s.setTe i x).redDone = s.redDone := rfl
@[simp] theorem State.setTe_inbox (s : State) (i : Nat) (x : Te) : (s.setTe i x).inbox = s.inbox := rfl
@[simp] theorem State.setTe_mail (s : State) (i : Nat) (x : Te) : (s.setTe i x).mail = s.mail := rfl
@[simp] theorem State.setTe_outbox (s : State) (i : Nat) (x : Te) : (s.setTe i x).outbox = s.outbox := rfl
@[simp] theorem State.setTe_nextMsg (s : State) (i : Nat) (x : Te) : (s.setTe i x).nextMsg = s.nextMsg := rfl
@[simp] theorem State.setTe_jobs (s : State) (i : Nat) (x : Te) : (s.setTe i x).jobs = s.jobs := rfl
@[simp] theorem State.setTe_beat (s : State) (i : Nat) (x : Te) : (s.setTe i x).beat = s.beat := rfl
@[simp] theorem State.setTe_log (s : State) (i : Nat) (x : Te) : (s.setTe i x).log = s.log := rfl
@[simp] theorem State.setTe_logNext (s : State) (i : Nat) (x : Te) : (s.setTe i x).logNext = s.logNext := rfl
@[simp] theorem State.setTe_power (s : State) (i : Nat) (x : Te) : (s.setTe i x).power = s.power := rfl
@[simp] theorem State.setTe_store (s : State) (i : Nat) (x : Te) : (s.setTe i x).store = s.store := rfl
@[simp] theorem State.setTe_boot (s : State) (i : Nat) (x : Te) : (s.setTe i x).boot = s.boot := rfl
@[simp] theorem State.setTe_links (s : State) (i : Nat) (x : Te) : (s.setTe i x).links = s.links := rfl
@[simp] theorem State.setTe_extension (s : State) (i : Nat) (x : Te) : (s.setTe i x).extension = s.extension := rfl
@[simp] theorem State.setTe_regs (s : State) (i : Nat) (x : Te) : (s.setTe i x).regs = s.regs := rfl
@[simp] theorem State.setTe_snapshots (s : State) (i : Nat) (x : Te) : (s.setTe i x).snapshots = s.snapshots := rfl
@[simp] theorem State.setTe_mgmtEvent (s : State) (i : Nat) (x : Te) : (s.setTe i x).mgmtEvent = s.mgmtEvent := rfl
@[simp] theorem State.setTe_mgmtCoalesce (s : State) (i : Nat) (x : Te) : (s.setTe i x).mgmtCoalesce = s.mgmtCoalesce := rfl
@[simp] theorem State.setTe_rdData (s : State) (i : Nat) (x : Te) : (s.setTe i x).rdData = s.rdData := rfl
@[simp] theorem State.setTe_smbData (s : State) (i : Nat) (x : Te) : (s.setTe i x).smbData = s.smbData := rfl
@[simp] theorem State.setTe_scanData (s : State) (i : Nat) (x : Te) : (s.setTe i x).scanData = s.scanData := rfl
@[simp] theorem State.setTe_lastCpl (s : State) (i : Nat) (x : Te) : (s.setTe i x).lastCpl = s.lastCpl := rfl
@[simp] theorem State.setTe_fresh (s : State) (i : Nat) (x : Te) : (s.setTe i x).fresh = s.fresh := rfl

@[simp] theorem State.setDie_pending (s : State) (i : Nat) (x : Die) : (s.setDie i x).pending = s.pending := rfl
@[simp] theorem State.setDie_parked (s : State) (i : Nat) (x : Die) : (s.setDie i x).parked = s.parked := rfl
@[simp] theorem State.setDie_mem (s : State) (i : Nat) (x : Die) : (s.setDie i x).mem = s.mem := rfl
@[simp] theorem State.setDie_poison (s : State) (i : Nat) (x : Die) : (s.setDie i x).poison = s.poison := rfl
@[simp] theorem State.setDie_dir (s : State) (i : Nat) (x : Die) : (s.setDie i x).dir = s.dir := rfl
@[simp] theorem State.setDie_scrubs (s : State) (i : Nat) (x : Die) : (s.setDie i x).scrubs = s.scrubs := rfl
@[simp] theorem State.setDie_dirLag (s : State) (i : Nat) (x : Die) : (s.setDie i x).dirLag = s.dirLag := rfl
@[simp] theorem State.setDie_ctxs (s : State) (i : Nat) (x : Die) : (s.setDie i x).ctxs = s.ctxs := rfl
@[simp] theorem State.setDie_frames (s : State) (i : Nat) (x : Die) : (s.setDie i x).frames = s.frames := rfl
@[simp] theorem State.setDie_fns (s : State) (i : Nat) (x : Die) : (s.setDie i x).fns = s.fns := rfl
@[simp] theorem State.setDie_queues (s : State) (i : Nat) (x : Die) : (s.setDie i x).queues = s.queues := rfl
@[simp] theorem State.setDie_ops (s : State) (i : Nat) (x : Die) : (s.setDie i x).ops = s.ops := rfl
@[simp] theorem State.setDie_nextOp (s : State) (i : Nat) (x : Die) : (s.setDie i x).nextOp = s.nextOp := rfl
@[simp] theorem State.setDie_heldOps (s : State) (i : Nat) (x : Die) : (s.setDie i x).heldOps = s.heldOps := rfl
@[simp] theorem State.setDie_cells (s : State) (i : Nat) (x : Die) : (s.setDie i x).cells = s.cells := rfl
@[simp] theorem State.setDie_mes (s : State) (i : Nat) (x : Die) : (s.setDie i x).mes = s.mes := rfl
@[simp] theorem State.setDie_tes (s : State) (i : Nat) (x : Die) : (s.setDie i x).tes = s.tes := rfl
@[simp] theorem State.setDie_hbms (s : State) (i : Nat) (x : Die) : (s.setDie i x).hbms = s.hbms := rfl
@[simp] theorem State.setDie_parts (s : State) (i : Nat) (x : Die) : (s.setDie i x).parts = s.parts := rfl
@[simp] theorem State.setDie_ports (s : State) (i : Nat) (x : Die) : (s.setDie i x).ports = s.ports := rfl
@[simp] theorem State.setDie_reduces (s : State) (i : Nat) (x : Die) : (s.setDie i x).reduces = s.reduces := rfl
@[simp] theorem State.setDie_redDone (s : State) (i : Nat) (x : Die) : (s.setDie i x).redDone = s.redDone := rfl
@[simp] theorem State.setDie_inbox (s : State) (i : Nat) (x : Die) : (s.setDie i x).inbox = s.inbox := rfl
@[simp] theorem State.setDie_mail (s : State) (i : Nat) (x : Die) : (s.setDie i x).mail = s.mail := rfl
@[simp] theorem State.setDie_outbox (s : State) (i : Nat) (x : Die) : (s.setDie i x).outbox = s.outbox := rfl
@[simp] theorem State.setDie_nextMsg (s : State) (i : Nat) (x : Die) : (s.setDie i x).nextMsg = s.nextMsg := rfl
@[simp] theorem State.setDie_jobs (s : State) (i : Nat) (x : Die) : (s.setDie i x).jobs = s.jobs := rfl
@[simp] theorem State.setDie_beat (s : State) (i : Nat) (x : Die) : (s.setDie i x).beat = s.beat := rfl
@[simp] theorem State.setDie_log (s : State) (i : Nat) (x : Die) : (s.setDie i x).log = s.log := rfl
@[simp] theorem State.setDie_logNext (s : State) (i : Nat) (x : Die) : (s.setDie i x).logNext = s.logNext := rfl
@[simp] theorem State.setDie_power (s : State) (i : Nat) (x : Die) : (s.setDie i x).power = s.power := rfl
@[simp] theorem State.setDie_store (s : State) (i : Nat) (x : Die) : (s.setDie i x).store = s.store := rfl
@[simp] theorem State.setDie_boot (s : State) (i : Nat) (x : Die) : (s.setDie i x).boot = s.boot := rfl
@[simp] theorem State.setDie_links (s : State) (i : Nat) (x : Die) : (s.setDie i x).links = s.links := rfl
@[simp] theorem State.setDie_extension (s : State) (i : Nat) (x : Die) : (s.setDie i x).extension = s.extension := rfl
@[simp] theorem State.setDie_regs (s : State) (i : Nat) (x : Die) : (s.setDie i x).regs = s.regs := rfl
@[simp] theorem State.setDie_snapshots (s : State) (i : Nat) (x : Die) : (s.setDie i x).snapshots = s.snapshots := rfl
@[simp] theorem State.setDie_mgmtEvent (s : State) (i : Nat) (x : Die) : (s.setDie i x).mgmtEvent = s.mgmtEvent := rfl
@[simp] theorem State.setDie_mgmtCoalesce (s : State) (i : Nat) (x : Die) : (s.setDie i x).mgmtCoalesce = s.mgmtCoalesce := rfl
@[simp] theorem State.setDie_rdData (s : State) (i : Nat) (x : Die) : (s.setDie i x).rdData = s.rdData := rfl
@[simp] theorem State.setDie_smbData (s : State) (i : Nat) (x : Die) : (s.setDie i x).smbData = s.smbData := rfl
@[simp] theorem State.setDie_scanData (s : State) (i : Nat) (x : Die) : (s.setDie i x).scanData = s.scanData := rfl
@[simp] theorem State.setDie_lastCpl (s : State) (i : Nat) (x : Die) : (s.setDie i x).lastCpl = s.lastCpl := rfl
@[simp] theorem State.setDie_fresh (s : State) (i : Nat) (x : Die) : (s.setDie i x).fresh = s.fresh := rfl

@[simp] theorem State.setStack_pending (s : State) (i : Nat) (x : Stack) : (s.setStack i x).pending = s.pending := rfl
@[simp] theorem State.setStack_parked (s : State) (i : Nat) (x : Stack) : (s.setStack i x).parked = s.parked := rfl
@[simp] theorem State.setStack_mem (s : State) (i : Nat) (x : Stack) : (s.setStack i x).mem = s.mem := rfl
@[simp] theorem State.setStack_poison (s : State) (i : Nat) (x : Stack) : (s.setStack i x).poison = s.poison := rfl
@[simp] theorem State.setStack_dir (s : State) (i : Nat) (x : Stack) : (s.setStack i x).dir = s.dir := rfl
@[simp] theorem State.setStack_scrubs (s : State) (i : Nat) (x : Stack) : (s.setStack i x).scrubs = s.scrubs := rfl
@[simp] theorem State.setStack_dirLag (s : State) (i : Nat) (x : Stack) : (s.setStack i x).dirLag = s.dirLag := rfl
@[simp] theorem State.setStack_ctxs (s : State) (i : Nat) (x : Stack) : (s.setStack i x).ctxs = s.ctxs := rfl
@[simp] theorem State.setStack_frames (s : State) (i : Nat) (x : Stack) : (s.setStack i x).frames = s.frames := rfl
@[simp] theorem State.setStack_fns (s : State) (i : Nat) (x : Stack) : (s.setStack i x).fns = s.fns := rfl
@[simp] theorem State.setStack_queues (s : State) (i : Nat) (x : Stack) : (s.setStack i x).queues = s.queues := rfl
@[simp] theorem State.setStack_ops (s : State) (i : Nat) (x : Stack) : (s.setStack i x).ops = s.ops := rfl
@[simp] theorem State.setStack_nextOp (s : State) (i : Nat) (x : Stack) : (s.setStack i x).nextOp = s.nextOp := rfl
@[simp] theorem State.setStack_heldOps (s : State) (i : Nat) (x : Stack) : (s.setStack i x).heldOps = s.heldOps := rfl
@[simp] theorem State.setStack_cells (s : State) (i : Nat) (x : Stack) : (s.setStack i x).cells = s.cells := rfl
@[simp] theorem State.setStack_mes (s : State) (i : Nat) (x : Stack) : (s.setStack i x).mes = s.mes := rfl
@[simp] theorem State.setStack_tes (s : State) (i : Nat) (x : Stack) : (s.setStack i x).tes = s.tes := rfl
@[simp] theorem State.setStack_dies (s : State) (i : Nat) (x : Stack) : (s.setStack i x).dies = s.dies := rfl
@[simp] theorem State.setStack_parts (s : State) (i : Nat) (x : Stack) : (s.setStack i x).parts = s.parts := rfl
@[simp] theorem State.setStack_ports (s : State) (i : Nat) (x : Stack) : (s.setStack i x).ports = s.ports := rfl
@[simp] theorem State.setStack_reduces (s : State) (i : Nat) (x : Stack) : (s.setStack i x).reduces = s.reduces := rfl
@[simp] theorem State.setStack_redDone (s : State) (i : Nat) (x : Stack) : (s.setStack i x).redDone = s.redDone := rfl
@[simp] theorem State.setStack_inbox (s : State) (i : Nat) (x : Stack) : (s.setStack i x).inbox = s.inbox := rfl
@[simp] theorem State.setStack_mail (s : State) (i : Nat) (x : Stack) : (s.setStack i x).mail = s.mail := rfl
@[simp] theorem State.setStack_outbox (s : State) (i : Nat) (x : Stack) : (s.setStack i x).outbox = s.outbox := rfl
@[simp] theorem State.setStack_nextMsg (s : State) (i : Nat) (x : Stack) : (s.setStack i x).nextMsg = s.nextMsg := rfl
@[simp] theorem State.setStack_jobs (s : State) (i : Nat) (x : Stack) : (s.setStack i x).jobs = s.jobs := rfl
@[simp] theorem State.setStack_beat (s : State) (i : Nat) (x : Stack) : (s.setStack i x).beat = s.beat := rfl
@[simp] theorem State.setStack_log (s : State) (i : Nat) (x : Stack) : (s.setStack i x).log = s.log := rfl
@[simp] theorem State.setStack_logNext (s : State) (i : Nat) (x : Stack) : (s.setStack i x).logNext = s.logNext := rfl
@[simp] theorem State.setStack_power (s : State) (i : Nat) (x : Stack) : (s.setStack i x).power = s.power := rfl
@[simp] theorem State.setStack_store (s : State) (i : Nat) (x : Stack) : (s.setStack i x).store = s.store := rfl
@[simp] theorem State.setStack_boot (s : State) (i : Nat) (x : Stack) : (s.setStack i x).boot = s.boot := rfl
@[simp] theorem State.setStack_links (s : State) (i : Nat) (x : Stack) : (s.setStack i x).links = s.links := rfl
@[simp] theorem State.setStack_extension (s : State) (i : Nat) (x : Stack) : (s.setStack i x).extension = s.extension := rfl
@[simp] theorem State.setStack_regs (s : State) (i : Nat) (x : Stack) : (s.setStack i x).regs = s.regs := rfl
@[simp] theorem State.setStack_snapshots (s : State) (i : Nat) (x : Stack) : (s.setStack i x).snapshots = s.snapshots := rfl
@[simp] theorem State.setStack_mgmtEvent (s : State) (i : Nat) (x : Stack) : (s.setStack i x).mgmtEvent = s.mgmtEvent := rfl
@[simp] theorem State.setStack_mgmtCoalesce (s : State) (i : Nat) (x : Stack) : (s.setStack i x).mgmtCoalesce = s.mgmtCoalesce := rfl
@[simp] theorem State.setStack_rdData (s : State) (i : Nat) (x : Stack) : (s.setStack i x).rdData = s.rdData := rfl
@[simp] theorem State.setStack_smbData (s : State) (i : Nat) (x : Stack) : (s.setStack i x).smbData = s.smbData := rfl
@[simp] theorem State.setStack_scanData (s : State) (i : Nat) (x : Stack) : (s.setStack i x).scanData = s.scanData := rfl
@[simp] theorem State.setStack_lastCpl (s : State) (i : Nat) (x : Stack) : (s.setStack i x).lastCpl = s.lastCpl := rfl
@[simp] theorem State.setStack_fresh (s : State) (i : Nat) (x : Stack) : (s.setStack i x).fresh = s.fresh := rfl

@[simp] theorem State.setPart_pending (s : State) (i : Nat) (x : Part) : (s.setPart i x).pending = s.pending := rfl
@[simp] theorem State.setPart_parked (s : State) (i : Nat) (x : Part) : (s.setPart i x).parked = s.parked := rfl
@[simp] theorem State.setPart_mem (s : State) (i : Nat) (x : Part) : (s.setPart i x).mem = s.mem := rfl
@[simp] theorem State.setPart_poison (s : State) (i : Nat) (x : Part) : (s.setPart i x).poison = s.poison := rfl
@[simp] theorem State.setPart_dir (s : State) (i : Nat) (x : Part) : (s.setPart i x).dir = s.dir := rfl
@[simp] theorem State.setPart_scrubs (s : State) (i : Nat) (x : Part) : (s.setPart i x).scrubs = s.scrubs := rfl
@[simp] theorem State.setPart_dirLag (s : State) (i : Nat) (x : Part) : (s.setPart i x).dirLag = s.dirLag := rfl
@[simp] theorem State.setPart_ctxs (s : State) (i : Nat) (x : Part) : (s.setPart i x).ctxs = s.ctxs := rfl
@[simp] theorem State.setPart_frames (s : State) (i : Nat) (x : Part) : (s.setPart i x).frames = s.frames := rfl
@[simp] theorem State.setPart_fns (s : State) (i : Nat) (x : Part) : (s.setPart i x).fns = s.fns := rfl
@[simp] theorem State.setPart_queues (s : State) (i : Nat) (x : Part) : (s.setPart i x).queues = s.queues := rfl
@[simp] theorem State.setPart_ops (s : State) (i : Nat) (x : Part) : (s.setPart i x).ops = s.ops := rfl
@[simp] theorem State.setPart_nextOp (s : State) (i : Nat) (x : Part) : (s.setPart i x).nextOp = s.nextOp := rfl
@[simp] theorem State.setPart_heldOps (s : State) (i : Nat) (x : Part) : (s.setPart i x).heldOps = s.heldOps := rfl
@[simp] theorem State.setPart_cells (s : State) (i : Nat) (x : Part) : (s.setPart i x).cells = s.cells := rfl
@[simp] theorem State.setPart_mes (s : State) (i : Nat) (x : Part) : (s.setPart i x).mes = s.mes := rfl
@[simp] theorem State.setPart_tes (s : State) (i : Nat) (x : Part) : (s.setPart i x).tes = s.tes := rfl
@[simp] theorem State.setPart_dies (s : State) (i : Nat) (x : Part) : (s.setPart i x).dies = s.dies := rfl
@[simp] theorem State.setPart_hbms (s : State) (i : Nat) (x : Part) : (s.setPart i x).hbms = s.hbms := rfl
@[simp] theorem State.setPart_ports (s : State) (i : Nat) (x : Part) : (s.setPart i x).ports = s.ports := rfl
@[simp] theorem State.setPart_reduces (s : State) (i : Nat) (x : Part) : (s.setPart i x).reduces = s.reduces := rfl
@[simp] theorem State.setPart_redDone (s : State) (i : Nat) (x : Part) : (s.setPart i x).redDone = s.redDone := rfl
@[simp] theorem State.setPart_inbox (s : State) (i : Nat) (x : Part) : (s.setPart i x).inbox = s.inbox := rfl
@[simp] theorem State.setPart_mail (s : State) (i : Nat) (x : Part) : (s.setPart i x).mail = s.mail := rfl
@[simp] theorem State.setPart_outbox (s : State) (i : Nat) (x : Part) : (s.setPart i x).outbox = s.outbox := rfl
@[simp] theorem State.setPart_nextMsg (s : State) (i : Nat) (x : Part) : (s.setPart i x).nextMsg = s.nextMsg := rfl
@[simp] theorem State.setPart_jobs (s : State) (i : Nat) (x : Part) : (s.setPart i x).jobs = s.jobs := rfl
@[simp] theorem State.setPart_beat (s : State) (i : Nat) (x : Part) : (s.setPart i x).beat = s.beat := rfl
@[simp] theorem State.setPart_log (s : State) (i : Nat) (x : Part) : (s.setPart i x).log = s.log := rfl
@[simp] theorem State.setPart_logNext (s : State) (i : Nat) (x : Part) : (s.setPart i x).logNext = s.logNext := rfl
@[simp] theorem State.setPart_power (s : State) (i : Nat) (x : Part) : (s.setPart i x).power = s.power := rfl
@[simp] theorem State.setPart_store (s : State) (i : Nat) (x : Part) : (s.setPart i x).store = s.store := rfl
@[simp] theorem State.setPart_boot (s : State) (i : Nat) (x : Part) : (s.setPart i x).boot = s.boot := rfl
@[simp] theorem State.setPart_links (s : State) (i : Nat) (x : Part) : (s.setPart i x).links = s.links := rfl
@[simp] theorem State.setPart_extension (s : State) (i : Nat) (x : Part) : (s.setPart i x).extension = s.extension := rfl
@[simp] theorem State.setPart_regs (s : State) (i : Nat) (x : Part) : (s.setPart i x).regs = s.regs := rfl
@[simp] theorem State.setPart_snapshots (s : State) (i : Nat) (x : Part) : (s.setPart i x).snapshots = s.snapshots := rfl
@[simp] theorem State.setPart_mgmtEvent (s : State) (i : Nat) (x : Part) : (s.setPart i x).mgmtEvent = s.mgmtEvent := rfl
@[simp] theorem State.setPart_mgmtCoalesce (s : State) (i : Nat) (x : Part) : (s.setPart i x).mgmtCoalesce = s.mgmtCoalesce := rfl
@[simp] theorem State.setPart_rdData (s : State) (i : Nat) (x : Part) : (s.setPart i x).rdData = s.rdData := rfl
@[simp] theorem State.setPart_smbData (s : State) (i : Nat) (x : Part) : (s.setPart i x).smbData = s.smbData := rfl
@[simp] theorem State.setPart_scanData (s : State) (i : Nat) (x : Part) : (s.setPart i x).scanData = s.scanData := rfl
@[simp] theorem State.setPart_lastCpl (s : State) (i : Nat) (x : Part) : (s.setPart i x).lastCpl = s.lastCpl := rfl
@[simp] theorem State.setPart_fresh (s : State) (i : Nat) (x : Part) : (s.setPart i x).fresh = s.fresh := rfl

@[simp] theorem State.setPort_pending (s : State) (i : Nat) (x : Port) : (s.setPort i x).pending = s.pending := rfl
@[simp] theorem State.setPort_parked (s : State) (i : Nat) (x : Port) : (s.setPort i x).parked = s.parked := rfl
@[simp] theorem State.setPort_mem (s : State) (i : Nat) (x : Port) : (s.setPort i x).mem = s.mem := rfl
@[simp] theorem State.setPort_poison (s : State) (i : Nat) (x : Port) : (s.setPort i x).poison = s.poison := rfl
@[simp] theorem State.setPort_dir (s : State) (i : Nat) (x : Port) : (s.setPort i x).dir = s.dir := rfl
@[simp] theorem State.setPort_scrubs (s : State) (i : Nat) (x : Port) : (s.setPort i x).scrubs = s.scrubs := rfl
@[simp] theorem State.setPort_dirLag (s : State) (i : Nat) (x : Port) : (s.setPort i x).dirLag = s.dirLag := rfl
@[simp] theorem State.setPort_ctxs (s : State) (i : Nat) (x : Port) : (s.setPort i x).ctxs = s.ctxs := rfl
@[simp] theorem State.setPort_frames (s : State) (i : Nat) (x : Port) : (s.setPort i x).frames = s.frames := rfl
@[simp] theorem State.setPort_fns (s : State) (i : Nat) (x : Port) : (s.setPort i x).fns = s.fns := rfl
@[simp] theorem State.setPort_queues (s : State) (i : Nat) (x : Port) : (s.setPort i x).queues = s.queues := rfl
@[simp] theorem State.setPort_ops (s : State) (i : Nat) (x : Port) : (s.setPort i x).ops = s.ops := rfl
@[simp] theorem State.setPort_nextOp (s : State) (i : Nat) (x : Port) : (s.setPort i x).nextOp = s.nextOp := rfl
@[simp] theorem State.setPort_heldOps (s : State) (i : Nat) (x : Port) : (s.setPort i x).heldOps = s.heldOps := rfl
@[simp] theorem State.setPort_cells (s : State) (i : Nat) (x : Port) : (s.setPort i x).cells = s.cells := rfl
@[simp] theorem State.setPort_mes (s : State) (i : Nat) (x : Port) : (s.setPort i x).mes = s.mes := rfl
@[simp] theorem State.setPort_tes (s : State) (i : Nat) (x : Port) : (s.setPort i x).tes = s.tes := rfl
@[simp] theorem State.setPort_dies (s : State) (i : Nat) (x : Port) : (s.setPort i x).dies = s.dies := rfl
@[simp] theorem State.setPort_hbms (s : State) (i : Nat) (x : Port) : (s.setPort i x).hbms = s.hbms := rfl
@[simp] theorem State.setPort_parts (s : State) (i : Nat) (x : Port) : (s.setPort i x).parts = s.parts := rfl
@[simp] theorem State.setPort_reduces (s : State) (i : Nat) (x : Port) : (s.setPort i x).reduces = s.reduces := rfl
@[simp] theorem State.setPort_redDone (s : State) (i : Nat) (x : Port) : (s.setPort i x).redDone = s.redDone := rfl
@[simp] theorem State.setPort_inbox (s : State) (i : Nat) (x : Port) : (s.setPort i x).inbox = s.inbox := rfl
@[simp] theorem State.setPort_mail (s : State) (i : Nat) (x : Port) : (s.setPort i x).mail = s.mail := rfl
@[simp] theorem State.setPort_outbox (s : State) (i : Nat) (x : Port) : (s.setPort i x).outbox = s.outbox := rfl
@[simp] theorem State.setPort_nextMsg (s : State) (i : Nat) (x : Port) : (s.setPort i x).nextMsg = s.nextMsg := rfl
@[simp] theorem State.setPort_jobs (s : State) (i : Nat) (x : Port) : (s.setPort i x).jobs = s.jobs := rfl
@[simp] theorem State.setPort_beat (s : State) (i : Nat) (x : Port) : (s.setPort i x).beat = s.beat := rfl
@[simp] theorem State.setPort_log (s : State) (i : Nat) (x : Port) : (s.setPort i x).log = s.log := rfl
@[simp] theorem State.setPort_logNext (s : State) (i : Nat) (x : Port) : (s.setPort i x).logNext = s.logNext := rfl
@[simp] theorem State.setPort_power (s : State) (i : Nat) (x : Port) : (s.setPort i x).power = s.power := rfl
@[simp] theorem State.setPort_store (s : State) (i : Nat) (x : Port) : (s.setPort i x).store = s.store := rfl
@[simp] theorem State.setPort_boot (s : State) (i : Nat) (x : Port) : (s.setPort i x).boot = s.boot := rfl
@[simp] theorem State.setPort_links (s : State) (i : Nat) (x : Port) : (s.setPort i x).links = s.links := rfl
@[simp] theorem State.setPort_extension (s : State) (i : Nat) (x : Port) : (s.setPort i x).extension = s.extension := rfl
@[simp] theorem State.setPort_regs (s : State) (i : Nat) (x : Port) : (s.setPort i x).regs = s.regs := rfl
@[simp] theorem State.setPort_snapshots (s : State) (i : Nat) (x : Port) : (s.setPort i x).snapshots = s.snapshots := rfl
@[simp] theorem State.setPort_mgmtEvent (s : State) (i : Nat) (x : Port) : (s.setPort i x).mgmtEvent = s.mgmtEvent := rfl
@[simp] theorem State.setPort_mgmtCoalesce (s : State) (i : Nat) (x : Port) : (s.setPort i x).mgmtCoalesce = s.mgmtCoalesce := rfl
@[simp] theorem State.setPort_rdData (s : State) (i : Nat) (x : Port) : (s.setPort i x).rdData = s.rdData := rfl
@[simp] theorem State.setPort_smbData (s : State) (i : Nat) (x : Port) : (s.setPort i x).smbData = s.smbData := rfl
@[simp] theorem State.setPort_scanData (s : State) (i : Nat) (x : Port) : (s.setPort i x).scanData = s.scanData := rfl
@[simp] theorem State.setPort_lastCpl (s : State) (i : Nat) (x : Port) : (s.setPort i x).lastCpl = s.lastCpl := rfl
@[simp] theorem State.setPort_fresh (s : State) (i : Nat) (x : Port) : (s.setPort i x).fresh = s.fresh := rfl

@[simp] theorem State.setFrame_pending (s : State) (i : Nat) (x : FrameState) : (s.setFrame i x).pending = s.pending := rfl
@[simp] theorem State.setFrame_parked (s : State) (i : Nat) (x : FrameState) : (s.setFrame i x).parked = s.parked := rfl
@[simp] theorem State.setFrame_mem (s : State) (i : Nat) (x : FrameState) : (s.setFrame i x).mem = s.mem := rfl
@[simp] theorem State.setFrame_poison (s : State) (i : Nat) (x : FrameState) : (s.setFrame i x).poison = s.poison := rfl
@[simp] theorem State.setFrame_dir (s : State) (i : Nat) (x : FrameState) : (s.setFrame i x).dir = s.dir := rfl
@[simp] theorem State.setFrame_scrubs (s : State) (i : Nat) (x : FrameState) : (s.setFrame i x).scrubs = s.scrubs := rfl
@[simp] theorem State.setFrame_dirLag (s : State) (i : Nat) (x : FrameState) : (s.setFrame i x).dirLag = s.dirLag := rfl
@[simp] theorem State.setFrame_ctxs (s : State) (i : Nat) (x : FrameState) : (s.setFrame i x).ctxs = s.ctxs := rfl
@[simp] theorem State.setFrame_fns (s : State) (i : Nat) (x : FrameState) : (s.setFrame i x).fns = s.fns := rfl
@[simp] theorem State.setFrame_queues (s : State) (i : Nat) (x : FrameState) : (s.setFrame i x).queues = s.queues := rfl
@[simp] theorem State.setFrame_ops (s : State) (i : Nat) (x : FrameState) : (s.setFrame i x).ops = s.ops := rfl
@[simp] theorem State.setFrame_nextOp (s : State) (i : Nat) (x : FrameState) : (s.setFrame i x).nextOp = s.nextOp := rfl
@[simp] theorem State.setFrame_heldOps (s : State) (i : Nat) (x : FrameState) : (s.setFrame i x).heldOps = s.heldOps := rfl
@[simp] theorem State.setFrame_cells (s : State) (i : Nat) (x : FrameState) : (s.setFrame i x).cells = s.cells := rfl
@[simp] theorem State.setFrame_mes (s : State) (i : Nat) (x : FrameState) : (s.setFrame i x).mes = s.mes := rfl
@[simp] theorem State.setFrame_tes (s : State) (i : Nat) (x : FrameState) : (s.setFrame i x).tes = s.tes := rfl
@[simp] theorem State.setFrame_dies (s : State) (i : Nat) (x : FrameState) : (s.setFrame i x).dies = s.dies := rfl
@[simp] theorem State.setFrame_hbms (s : State) (i : Nat) (x : FrameState) : (s.setFrame i x).hbms = s.hbms := rfl
@[simp] theorem State.setFrame_parts (s : State) (i : Nat) (x : FrameState) : (s.setFrame i x).parts = s.parts := rfl
@[simp] theorem State.setFrame_ports (s : State) (i : Nat) (x : FrameState) : (s.setFrame i x).ports = s.ports := rfl
@[simp] theorem State.setFrame_reduces (s : State) (i : Nat) (x : FrameState) : (s.setFrame i x).reduces = s.reduces := rfl
@[simp] theorem State.setFrame_redDone (s : State) (i : Nat) (x : FrameState) : (s.setFrame i x).redDone = s.redDone := rfl
@[simp] theorem State.setFrame_inbox (s : State) (i : Nat) (x : FrameState) : (s.setFrame i x).inbox = s.inbox := rfl
@[simp] theorem State.setFrame_mail (s : State) (i : Nat) (x : FrameState) : (s.setFrame i x).mail = s.mail := rfl
@[simp] theorem State.setFrame_outbox (s : State) (i : Nat) (x : FrameState) : (s.setFrame i x).outbox = s.outbox := rfl
@[simp] theorem State.setFrame_nextMsg (s : State) (i : Nat) (x : FrameState) : (s.setFrame i x).nextMsg = s.nextMsg := rfl
@[simp] theorem State.setFrame_jobs (s : State) (i : Nat) (x : FrameState) : (s.setFrame i x).jobs = s.jobs := rfl
@[simp] theorem State.setFrame_beat (s : State) (i : Nat) (x : FrameState) : (s.setFrame i x).beat = s.beat := rfl
@[simp] theorem State.setFrame_log (s : State) (i : Nat) (x : FrameState) : (s.setFrame i x).log = s.log := rfl
@[simp] theorem State.setFrame_logNext (s : State) (i : Nat) (x : FrameState) : (s.setFrame i x).logNext = s.logNext := rfl
@[simp] theorem State.setFrame_power (s : State) (i : Nat) (x : FrameState) : (s.setFrame i x).power = s.power := rfl
@[simp] theorem State.setFrame_store (s : State) (i : Nat) (x : FrameState) : (s.setFrame i x).store = s.store := rfl
@[simp] theorem State.setFrame_boot (s : State) (i : Nat) (x : FrameState) : (s.setFrame i x).boot = s.boot := rfl
@[simp] theorem State.setFrame_links (s : State) (i : Nat) (x : FrameState) : (s.setFrame i x).links = s.links := rfl
@[simp] theorem State.setFrame_extension (s : State) (i : Nat) (x : FrameState) : (s.setFrame i x).extension = s.extension := rfl
@[simp] theorem State.setFrame_regs (s : State) (i : Nat) (x : FrameState) : (s.setFrame i x).regs = s.regs := rfl
@[simp] theorem State.setFrame_snapshots (s : State) (i : Nat) (x : FrameState) : (s.setFrame i x).snapshots = s.snapshots := rfl
@[simp] theorem State.setFrame_mgmtEvent (s : State) (i : Nat) (x : FrameState) : (s.setFrame i x).mgmtEvent = s.mgmtEvent := rfl
@[simp] theorem State.setFrame_mgmtCoalesce (s : State) (i : Nat) (x : FrameState) : (s.setFrame i x).mgmtCoalesce = s.mgmtCoalesce := rfl
@[simp] theorem State.setFrame_rdData (s : State) (i : Nat) (x : FrameState) : (s.setFrame i x).rdData = s.rdData := rfl
@[simp] theorem State.setFrame_smbData (s : State) (i : Nat) (x : FrameState) : (s.setFrame i x).smbData = s.smbData := rfl
@[simp] theorem State.setFrame_scanData (s : State) (i : Nat) (x : FrameState) : (s.setFrame i x).scanData = s.scanData := rfl
@[simp] theorem State.setFrame_lastCpl (s : State) (i : Nat) (x : FrameState) : (s.setFrame i x).lastCpl = s.lastCpl := rfl
@[simp] theorem State.setFrame_fresh (s : State) (i : Nat) (x : FrameState) : (s.setFrame i x).fresh = s.fresh := rfl

@[simp] theorem State.setJob_pending (s : State) (i : Nat) (x : MasterJob) : (s.setJob i x).pending = s.pending := rfl
@[simp] theorem State.setJob_parked (s : State) (i : Nat) (x : MasterJob) : (s.setJob i x).parked = s.parked := rfl
@[simp] theorem State.setJob_mem (s : State) (i : Nat) (x : MasterJob) : (s.setJob i x).mem = s.mem := rfl
@[simp] theorem State.setJob_poison (s : State) (i : Nat) (x : MasterJob) : (s.setJob i x).poison = s.poison := rfl
@[simp] theorem State.setJob_dir (s : State) (i : Nat) (x : MasterJob) : (s.setJob i x).dir = s.dir := rfl
@[simp] theorem State.setJob_scrubs (s : State) (i : Nat) (x : MasterJob) : (s.setJob i x).scrubs = s.scrubs := rfl
@[simp] theorem State.setJob_dirLag (s : State) (i : Nat) (x : MasterJob) : (s.setJob i x).dirLag = s.dirLag := rfl
@[simp] theorem State.setJob_ctxs (s : State) (i : Nat) (x : MasterJob) : (s.setJob i x).ctxs = s.ctxs := rfl
@[simp] theorem State.setJob_frames (s : State) (i : Nat) (x : MasterJob) : (s.setJob i x).frames = s.frames := rfl
@[simp] theorem State.setJob_fns (s : State) (i : Nat) (x : MasterJob) : (s.setJob i x).fns = s.fns := rfl
@[simp] theorem State.setJob_queues (s : State) (i : Nat) (x : MasterJob) : (s.setJob i x).queues = s.queues := rfl
@[simp] theorem State.setJob_ops (s : State) (i : Nat) (x : MasterJob) : (s.setJob i x).ops = s.ops := rfl
@[simp] theorem State.setJob_nextOp (s : State) (i : Nat) (x : MasterJob) : (s.setJob i x).nextOp = s.nextOp := rfl
@[simp] theorem State.setJob_heldOps (s : State) (i : Nat) (x : MasterJob) : (s.setJob i x).heldOps = s.heldOps := rfl
@[simp] theorem State.setJob_cells (s : State) (i : Nat) (x : MasterJob) : (s.setJob i x).cells = s.cells := rfl
@[simp] theorem State.setJob_mes (s : State) (i : Nat) (x : MasterJob) : (s.setJob i x).mes = s.mes := rfl
@[simp] theorem State.setJob_tes (s : State) (i : Nat) (x : MasterJob) : (s.setJob i x).tes = s.tes := rfl
@[simp] theorem State.setJob_dies (s : State) (i : Nat) (x : MasterJob) : (s.setJob i x).dies = s.dies := rfl
@[simp] theorem State.setJob_hbms (s : State) (i : Nat) (x : MasterJob) : (s.setJob i x).hbms = s.hbms := rfl
@[simp] theorem State.setJob_parts (s : State) (i : Nat) (x : MasterJob) : (s.setJob i x).parts = s.parts := rfl
@[simp] theorem State.setJob_ports (s : State) (i : Nat) (x : MasterJob) : (s.setJob i x).ports = s.ports := rfl
@[simp] theorem State.setJob_reduces (s : State) (i : Nat) (x : MasterJob) : (s.setJob i x).reduces = s.reduces := rfl
@[simp] theorem State.setJob_redDone (s : State) (i : Nat) (x : MasterJob) : (s.setJob i x).redDone = s.redDone := rfl
@[simp] theorem State.setJob_inbox (s : State) (i : Nat) (x : MasterJob) : (s.setJob i x).inbox = s.inbox := rfl
@[simp] theorem State.setJob_mail (s : State) (i : Nat) (x : MasterJob) : (s.setJob i x).mail = s.mail := rfl
@[simp] theorem State.setJob_outbox (s : State) (i : Nat) (x : MasterJob) : (s.setJob i x).outbox = s.outbox := rfl
@[simp] theorem State.setJob_nextMsg (s : State) (i : Nat) (x : MasterJob) : (s.setJob i x).nextMsg = s.nextMsg := rfl
@[simp] theorem State.setJob_beat (s : State) (i : Nat) (x : MasterJob) : (s.setJob i x).beat = s.beat := rfl
@[simp] theorem State.setJob_log (s : State) (i : Nat) (x : MasterJob) : (s.setJob i x).log = s.log := rfl
@[simp] theorem State.setJob_logNext (s : State) (i : Nat) (x : MasterJob) : (s.setJob i x).logNext = s.logNext := rfl
@[simp] theorem State.setJob_power (s : State) (i : Nat) (x : MasterJob) : (s.setJob i x).power = s.power := rfl
@[simp] theorem State.setJob_store (s : State) (i : Nat) (x : MasterJob) : (s.setJob i x).store = s.store := rfl
@[simp] theorem State.setJob_boot (s : State) (i : Nat) (x : MasterJob) : (s.setJob i x).boot = s.boot := rfl
@[simp] theorem State.setJob_links (s : State) (i : Nat) (x : MasterJob) : (s.setJob i x).links = s.links := rfl
@[simp] theorem State.setJob_extension (s : State) (i : Nat) (x : MasterJob) : (s.setJob i x).extension = s.extension := rfl
@[simp] theorem State.setJob_regs (s : State) (i : Nat) (x : MasterJob) : (s.setJob i x).regs = s.regs := rfl
@[simp] theorem State.setJob_snapshots (s : State) (i : Nat) (x : MasterJob) : (s.setJob i x).snapshots = s.snapshots := rfl
@[simp] theorem State.setJob_mgmtEvent (s : State) (i : Nat) (x : MasterJob) : (s.setJob i x).mgmtEvent = s.mgmtEvent := rfl
@[simp] theorem State.setJob_mgmtCoalesce (s : State) (i : Nat) (x : MasterJob) : (s.setJob i x).mgmtCoalesce = s.mgmtCoalesce := rfl
@[simp] theorem State.setJob_rdData (s : State) (i : Nat) (x : MasterJob) : (s.setJob i x).rdData = s.rdData := rfl
@[simp] theorem State.setJob_smbData (s : State) (i : Nat) (x : MasterJob) : (s.setJob i x).smbData = s.smbData := rfl
@[simp] theorem State.setJob_scanData (s : State) (i : Nat) (x : MasterJob) : (s.setJob i x).scanData = s.scanData := rfl
@[simp] theorem State.setJob_lastCpl (s : State) (i : Nat) (x : MasterJob) : (s.setJob i x).lastCpl = s.lastCpl := rfl
@[simp] theorem State.setJob_fresh (s : State) (i : Nat) (x : MasterJob) : (s.setJob i x).fresh = s.fresh := rfl

@[simp] theorem State.setLink_pending (s : State) (i : Nat) (x : LinkSlot) : (s.setLink i x).pending = s.pending := rfl
@[simp] theorem State.setLink_parked (s : State) (i : Nat) (x : LinkSlot) : (s.setLink i x).parked = s.parked := rfl
@[simp] theorem State.setLink_mem (s : State) (i : Nat) (x : LinkSlot) : (s.setLink i x).mem = s.mem := rfl
@[simp] theorem State.setLink_poison (s : State) (i : Nat) (x : LinkSlot) : (s.setLink i x).poison = s.poison := rfl
@[simp] theorem State.setLink_dir (s : State) (i : Nat) (x : LinkSlot) : (s.setLink i x).dir = s.dir := rfl
@[simp] theorem State.setLink_scrubs (s : State) (i : Nat) (x : LinkSlot) : (s.setLink i x).scrubs = s.scrubs := rfl
@[simp] theorem State.setLink_dirLag (s : State) (i : Nat) (x : LinkSlot) : (s.setLink i x).dirLag = s.dirLag := rfl
@[simp] theorem State.setLink_ctxs (s : State) (i : Nat) (x : LinkSlot) : (s.setLink i x).ctxs = s.ctxs := rfl
@[simp] theorem State.setLink_frames (s : State) (i : Nat) (x : LinkSlot) : (s.setLink i x).frames = s.frames := rfl
@[simp] theorem State.setLink_fns (s : State) (i : Nat) (x : LinkSlot) : (s.setLink i x).fns = s.fns := rfl
@[simp] theorem State.setLink_queues (s : State) (i : Nat) (x : LinkSlot) : (s.setLink i x).queues = s.queues := rfl
@[simp] theorem State.setLink_ops (s : State) (i : Nat) (x : LinkSlot) : (s.setLink i x).ops = s.ops := rfl
@[simp] theorem State.setLink_nextOp (s : State) (i : Nat) (x : LinkSlot) : (s.setLink i x).nextOp = s.nextOp := rfl
@[simp] theorem State.setLink_heldOps (s : State) (i : Nat) (x : LinkSlot) : (s.setLink i x).heldOps = s.heldOps := rfl
@[simp] theorem State.setLink_cells (s : State) (i : Nat) (x : LinkSlot) : (s.setLink i x).cells = s.cells := rfl
@[simp] theorem State.setLink_mes (s : State) (i : Nat) (x : LinkSlot) : (s.setLink i x).mes = s.mes := rfl
@[simp] theorem State.setLink_tes (s : State) (i : Nat) (x : LinkSlot) : (s.setLink i x).tes = s.tes := rfl
@[simp] theorem State.setLink_dies (s : State) (i : Nat) (x : LinkSlot) : (s.setLink i x).dies = s.dies := rfl
@[simp] theorem State.setLink_hbms (s : State) (i : Nat) (x : LinkSlot) : (s.setLink i x).hbms = s.hbms := rfl
@[simp] theorem State.setLink_parts (s : State) (i : Nat) (x : LinkSlot) : (s.setLink i x).parts = s.parts := rfl
@[simp] theorem State.setLink_ports (s : State) (i : Nat) (x : LinkSlot) : (s.setLink i x).ports = s.ports := rfl
@[simp] theorem State.setLink_reduces (s : State) (i : Nat) (x : LinkSlot) : (s.setLink i x).reduces = s.reduces := rfl
@[simp] theorem State.setLink_redDone (s : State) (i : Nat) (x : LinkSlot) : (s.setLink i x).redDone = s.redDone := rfl
@[simp] theorem State.setLink_inbox (s : State) (i : Nat) (x : LinkSlot) : (s.setLink i x).inbox = s.inbox := rfl
@[simp] theorem State.setLink_mail (s : State) (i : Nat) (x : LinkSlot) : (s.setLink i x).mail = s.mail := rfl
@[simp] theorem State.setLink_outbox (s : State) (i : Nat) (x : LinkSlot) : (s.setLink i x).outbox = s.outbox := rfl
@[simp] theorem State.setLink_nextMsg (s : State) (i : Nat) (x : LinkSlot) : (s.setLink i x).nextMsg = s.nextMsg := rfl
@[simp] theorem State.setLink_jobs (s : State) (i : Nat) (x : LinkSlot) : (s.setLink i x).jobs = s.jobs := rfl
@[simp] theorem State.setLink_beat (s : State) (i : Nat) (x : LinkSlot) : (s.setLink i x).beat = s.beat := rfl
@[simp] theorem State.setLink_log (s : State) (i : Nat) (x : LinkSlot) : (s.setLink i x).log = s.log := rfl
@[simp] theorem State.setLink_logNext (s : State) (i : Nat) (x : LinkSlot) : (s.setLink i x).logNext = s.logNext := rfl
@[simp] theorem State.setLink_power (s : State) (i : Nat) (x : LinkSlot) : (s.setLink i x).power = s.power := rfl
@[simp] theorem State.setLink_store (s : State) (i : Nat) (x : LinkSlot) : (s.setLink i x).store = s.store := rfl
@[simp] theorem State.setLink_boot (s : State) (i : Nat) (x : LinkSlot) : (s.setLink i x).boot = s.boot := rfl
@[simp] theorem State.setLink_extension (s : State) (i : Nat) (x : LinkSlot) : (s.setLink i x).extension = s.extension := rfl
@[simp] theorem State.setLink_regs (s : State) (i : Nat) (x : LinkSlot) : (s.setLink i x).regs = s.regs := rfl
@[simp] theorem State.setLink_snapshots (s : State) (i : Nat) (x : LinkSlot) : (s.setLink i x).snapshots = s.snapshots := rfl
@[simp] theorem State.setLink_mgmtEvent (s : State) (i : Nat) (x : LinkSlot) : (s.setLink i x).mgmtEvent = s.mgmtEvent := rfl
@[simp] theorem State.setLink_mgmtCoalesce (s : State) (i : Nat) (x : LinkSlot) : (s.setLink i x).mgmtCoalesce = s.mgmtCoalesce := rfl
@[simp] theorem State.setLink_rdData (s : State) (i : Nat) (x : LinkSlot) : (s.setLink i x).rdData = s.rdData := rfl
@[simp] theorem State.setLink_smbData (s : State) (i : Nat) (x : LinkSlot) : (s.setLink i x).smbData = s.smbData := rfl
@[simp] theorem State.setLink_scanData (s : State) (i : Nat) (x : LinkSlot) : (s.setLink i x).scanData = s.scanData := rfl
@[simp] theorem State.setLink_lastCpl (s : State) (i : Nat) (x : LinkSlot) : (s.setLink i x).lastCpl = s.lastCpl := rfl
@[simp] theorem State.setLink_fresh (s : State) (i : Nat) (x : LinkSlot) : (s.setLink i x).fresh = s.fresh := rfl

@[simp] theorem State.setCtx_pending (s : State) (i : Nat) (x : BitVec 1024) : (s.setCtx i x).pending = s.pending := rfl
@[simp] theorem State.setCtx_parked (s : State) (i : Nat) (x : BitVec 1024) : (s.setCtx i x).parked = s.parked := rfl
@[simp] theorem State.setCtx_mem (s : State) (i : Nat) (x : BitVec 1024) : (s.setCtx i x).mem = s.mem := rfl
@[simp] theorem State.setCtx_poison (s : State) (i : Nat) (x : BitVec 1024) : (s.setCtx i x).poison = s.poison := rfl
@[simp] theorem State.setCtx_dir (s : State) (i : Nat) (x : BitVec 1024) : (s.setCtx i x).dir = s.dir := rfl
@[simp] theorem State.setCtx_scrubs (s : State) (i : Nat) (x : BitVec 1024) : (s.setCtx i x).scrubs = s.scrubs := rfl
@[simp] theorem State.setCtx_dirLag (s : State) (i : Nat) (x : BitVec 1024) : (s.setCtx i x).dirLag = s.dirLag := rfl
@[simp] theorem State.setCtx_frames (s : State) (i : Nat) (x : BitVec 1024) : (s.setCtx i x).frames = s.frames := rfl
@[simp] theorem State.setCtx_fns (s : State) (i : Nat) (x : BitVec 1024) : (s.setCtx i x).fns = s.fns := rfl
@[simp] theorem State.setCtx_queues (s : State) (i : Nat) (x : BitVec 1024) : (s.setCtx i x).queues = s.queues := rfl
@[simp] theorem State.setCtx_ops (s : State) (i : Nat) (x : BitVec 1024) : (s.setCtx i x).ops = s.ops := rfl
@[simp] theorem State.setCtx_nextOp (s : State) (i : Nat) (x : BitVec 1024) : (s.setCtx i x).nextOp = s.nextOp := rfl
@[simp] theorem State.setCtx_heldOps (s : State) (i : Nat) (x : BitVec 1024) : (s.setCtx i x).heldOps = s.heldOps := rfl
@[simp] theorem State.setCtx_cells (s : State) (i : Nat) (x : BitVec 1024) : (s.setCtx i x).cells = s.cells := rfl
@[simp] theorem State.setCtx_mes (s : State) (i : Nat) (x : BitVec 1024) : (s.setCtx i x).mes = s.mes := rfl
@[simp] theorem State.setCtx_tes (s : State) (i : Nat) (x : BitVec 1024) : (s.setCtx i x).tes = s.tes := rfl
@[simp] theorem State.setCtx_dies (s : State) (i : Nat) (x : BitVec 1024) : (s.setCtx i x).dies = s.dies := rfl
@[simp] theorem State.setCtx_hbms (s : State) (i : Nat) (x : BitVec 1024) : (s.setCtx i x).hbms = s.hbms := rfl
@[simp] theorem State.setCtx_parts (s : State) (i : Nat) (x : BitVec 1024) : (s.setCtx i x).parts = s.parts := rfl
@[simp] theorem State.setCtx_ports (s : State) (i : Nat) (x : BitVec 1024) : (s.setCtx i x).ports = s.ports := rfl
@[simp] theorem State.setCtx_reduces (s : State) (i : Nat) (x : BitVec 1024) : (s.setCtx i x).reduces = s.reduces := rfl
@[simp] theorem State.setCtx_redDone (s : State) (i : Nat) (x : BitVec 1024) : (s.setCtx i x).redDone = s.redDone := rfl
@[simp] theorem State.setCtx_inbox (s : State) (i : Nat) (x : BitVec 1024) : (s.setCtx i x).inbox = s.inbox := rfl
@[simp] theorem State.setCtx_mail (s : State) (i : Nat) (x : BitVec 1024) : (s.setCtx i x).mail = s.mail := rfl
@[simp] theorem State.setCtx_outbox (s : State) (i : Nat) (x : BitVec 1024) : (s.setCtx i x).outbox = s.outbox := rfl
@[simp] theorem State.setCtx_nextMsg (s : State) (i : Nat) (x : BitVec 1024) : (s.setCtx i x).nextMsg = s.nextMsg := rfl
@[simp] theorem State.setCtx_jobs (s : State) (i : Nat) (x : BitVec 1024) : (s.setCtx i x).jobs = s.jobs := rfl
@[simp] theorem State.setCtx_beat (s : State) (i : Nat) (x : BitVec 1024) : (s.setCtx i x).beat = s.beat := rfl
@[simp] theorem State.setCtx_log (s : State) (i : Nat) (x : BitVec 1024) : (s.setCtx i x).log = s.log := rfl
@[simp] theorem State.setCtx_logNext (s : State) (i : Nat) (x : BitVec 1024) : (s.setCtx i x).logNext = s.logNext := rfl
@[simp] theorem State.setCtx_power (s : State) (i : Nat) (x : BitVec 1024) : (s.setCtx i x).power = s.power := rfl
@[simp] theorem State.setCtx_store (s : State) (i : Nat) (x : BitVec 1024) : (s.setCtx i x).store = s.store := rfl
@[simp] theorem State.setCtx_boot (s : State) (i : Nat) (x : BitVec 1024) : (s.setCtx i x).boot = s.boot := rfl
@[simp] theorem State.setCtx_links (s : State) (i : Nat) (x : BitVec 1024) : (s.setCtx i x).links = s.links := rfl
@[simp] theorem State.setCtx_extension (s : State) (i : Nat) (x : BitVec 1024) : (s.setCtx i x).extension = s.extension := rfl
@[simp] theorem State.setCtx_regs (s : State) (i : Nat) (x : BitVec 1024) : (s.setCtx i x).regs = s.regs := rfl
@[simp] theorem State.setCtx_snapshots (s : State) (i : Nat) (x : BitVec 1024) : (s.setCtx i x).snapshots = s.snapshots := rfl
@[simp] theorem State.setCtx_mgmtEvent (s : State) (i : Nat) (x : BitVec 1024) : (s.setCtx i x).mgmtEvent = s.mgmtEvent := rfl
@[simp] theorem State.setCtx_mgmtCoalesce (s : State) (i : Nat) (x : BitVec 1024) : (s.setCtx i x).mgmtCoalesce = s.mgmtCoalesce := rfl
@[simp] theorem State.setCtx_rdData (s : State) (i : Nat) (x : BitVec 1024) : (s.setCtx i x).rdData = s.rdData := rfl
@[simp] theorem State.setCtx_smbData (s : State) (i : Nat) (x : BitVec 1024) : (s.setCtx i x).smbData = s.smbData := rfl
@[simp] theorem State.setCtx_scanData (s : State) (i : Nat) (x : BitVec 1024) : (s.setCtx i x).scanData = s.scanData := rfl
@[simp] theorem State.setCtx_lastCpl (s : State) (i : Nat) (x : BitVec 1024) : (s.setCtx i x).lastCpl = s.lastCpl := rfl
@[simp] theorem State.setCtx_fresh (s : State) (i : Nat) (x : BitVec 1024) : (s.setCtx i x).fresh = s.fresh := rfl

@[simp] theorem State.setPage_pending (s : State) (p : Nat) (x : BitVec 64) : (s.setPage p x).pending = s.pending := rfl
@[simp] theorem State.setPage_parked (s : State) (p : Nat) (x : BitVec 64) : (s.setPage p x).parked = s.parked := rfl
@[simp] theorem State.setPage_mem (s : State) (p : Nat) (x : BitVec 64) : (s.setPage p x).mem = s.mem := rfl
@[simp] theorem State.setPage_poison (s : State) (p : Nat) (x : BitVec 64) : (s.setPage p x).poison = s.poison := rfl
@[simp] theorem State.setPage_scrubs (s : State) (p : Nat) (x : BitVec 64) : (s.setPage p x).scrubs = s.scrubs := rfl
@[simp] theorem State.setPage_dirLag (s : State) (p : Nat) (x : BitVec 64) : (s.setPage p x).dirLag = s.dirLag := rfl
@[simp] theorem State.setPage_ctxs (s : State) (p : Nat) (x : BitVec 64) : (s.setPage p x).ctxs = s.ctxs := rfl
@[simp] theorem State.setPage_frames (s : State) (p : Nat) (x : BitVec 64) : (s.setPage p x).frames = s.frames := rfl
@[simp] theorem State.setPage_fns (s : State) (p : Nat) (x : BitVec 64) : (s.setPage p x).fns = s.fns := rfl
@[simp] theorem State.setPage_queues (s : State) (p : Nat) (x : BitVec 64) : (s.setPage p x).queues = s.queues := rfl
@[simp] theorem State.setPage_ops (s : State) (p : Nat) (x : BitVec 64) : (s.setPage p x).ops = s.ops := rfl
@[simp] theorem State.setPage_nextOp (s : State) (p : Nat) (x : BitVec 64) : (s.setPage p x).nextOp = s.nextOp := rfl
@[simp] theorem State.setPage_heldOps (s : State) (p : Nat) (x : BitVec 64) : (s.setPage p x).heldOps = s.heldOps := rfl
@[simp] theorem State.setPage_cells (s : State) (p : Nat) (x : BitVec 64) : (s.setPage p x).cells = s.cells := rfl
@[simp] theorem State.setPage_mes (s : State) (p : Nat) (x : BitVec 64) : (s.setPage p x).mes = s.mes := rfl
@[simp] theorem State.setPage_tes (s : State) (p : Nat) (x : BitVec 64) : (s.setPage p x).tes = s.tes := rfl
@[simp] theorem State.setPage_dies (s : State) (p : Nat) (x : BitVec 64) : (s.setPage p x).dies = s.dies := rfl
@[simp] theorem State.setPage_hbms (s : State) (p : Nat) (x : BitVec 64) : (s.setPage p x).hbms = s.hbms := rfl
@[simp] theorem State.setPage_parts (s : State) (p : Nat) (x : BitVec 64) : (s.setPage p x).parts = s.parts := rfl
@[simp] theorem State.setPage_ports (s : State) (p : Nat) (x : BitVec 64) : (s.setPage p x).ports = s.ports := rfl
@[simp] theorem State.setPage_reduces (s : State) (p : Nat) (x : BitVec 64) : (s.setPage p x).reduces = s.reduces := rfl
@[simp] theorem State.setPage_redDone (s : State) (p : Nat) (x : BitVec 64) : (s.setPage p x).redDone = s.redDone := rfl
@[simp] theorem State.setPage_inbox (s : State) (p : Nat) (x : BitVec 64) : (s.setPage p x).inbox = s.inbox := rfl
@[simp] theorem State.setPage_mail (s : State) (p : Nat) (x : BitVec 64) : (s.setPage p x).mail = s.mail := rfl
@[simp] theorem State.setPage_outbox (s : State) (p : Nat) (x : BitVec 64) : (s.setPage p x).outbox = s.outbox := rfl
@[simp] theorem State.setPage_nextMsg (s : State) (p : Nat) (x : BitVec 64) : (s.setPage p x).nextMsg = s.nextMsg := rfl
@[simp] theorem State.setPage_jobs (s : State) (p : Nat) (x : BitVec 64) : (s.setPage p x).jobs = s.jobs := rfl
@[simp] theorem State.setPage_beat (s : State) (p : Nat) (x : BitVec 64) : (s.setPage p x).beat = s.beat := rfl
@[simp] theorem State.setPage_log (s : State) (p : Nat) (x : BitVec 64) : (s.setPage p x).log = s.log := rfl
@[simp] theorem State.setPage_logNext (s : State) (p : Nat) (x : BitVec 64) : (s.setPage p x).logNext = s.logNext := rfl
@[simp] theorem State.setPage_power (s : State) (p : Nat) (x : BitVec 64) : (s.setPage p x).power = s.power := rfl
@[simp] theorem State.setPage_store (s : State) (p : Nat) (x : BitVec 64) : (s.setPage p x).store = s.store := rfl
@[simp] theorem State.setPage_boot (s : State) (p : Nat) (x : BitVec 64) : (s.setPage p x).boot = s.boot := rfl
@[simp] theorem State.setPage_links (s : State) (p : Nat) (x : BitVec 64) : (s.setPage p x).links = s.links := rfl
@[simp] theorem State.setPage_extension (s : State) (p : Nat) (x : BitVec 64) : (s.setPage p x).extension = s.extension := rfl
@[simp] theorem State.setPage_regs (s : State) (p : Nat) (x : BitVec 64) : (s.setPage p x).regs = s.regs := rfl
@[simp] theorem State.setPage_snapshots (s : State) (p : Nat) (x : BitVec 64) : (s.setPage p x).snapshots = s.snapshots := rfl
@[simp] theorem State.setPage_mgmtEvent (s : State) (p : Nat) (x : BitVec 64) : (s.setPage p x).mgmtEvent = s.mgmtEvent := rfl
@[simp] theorem State.setPage_mgmtCoalesce (s : State) (p : Nat) (x : BitVec 64) : (s.setPage p x).mgmtCoalesce = s.mgmtCoalesce := rfl
@[simp] theorem State.setPage_rdData (s : State) (p : Nat) (x : BitVec 64) : (s.setPage p x).rdData = s.rdData := rfl
@[simp] theorem State.setPage_smbData (s : State) (p : Nat) (x : BitVec 64) : (s.setPage p x).smbData = s.smbData := rfl
@[simp] theorem State.setPage_scanData (s : State) (p : Nat) (x : BitVec 64) : (s.setPage p x).scanData = s.scanData := rfl
@[simp] theorem State.setPage_lastCpl (s : State) (p : Nat) (x : BitVec 64) : (s.setPage p x).lastCpl = s.lastCpl := rfl
@[simp] theorem State.setPage_fresh (s : State) (p : Nat) (x : BitVec 64) : (s.setPage p x).fresh = s.fresh := rfl

@[simp] theorem State.setReg_pending (s : State) (win off v : Nat) : (s.setReg win off v).pending = s.pending := rfl
@[simp] theorem State.setReg_parked (s : State) (win off v : Nat) : (s.setReg win off v).parked = s.parked := rfl
@[simp] theorem State.setReg_mem (s : State) (win off v : Nat) : (s.setReg win off v).mem = s.mem := rfl
@[simp] theorem State.setReg_poison (s : State) (win off v : Nat) : (s.setReg win off v).poison = s.poison := rfl
@[simp] theorem State.setReg_dir (s : State) (win off v : Nat) : (s.setReg win off v).dir = s.dir := rfl
@[simp] theorem State.setReg_scrubs (s : State) (win off v : Nat) : (s.setReg win off v).scrubs = s.scrubs := rfl
@[simp] theorem State.setReg_dirLag (s : State) (win off v : Nat) : (s.setReg win off v).dirLag = s.dirLag := rfl
@[simp] theorem State.setReg_ctxs (s : State) (win off v : Nat) : (s.setReg win off v).ctxs = s.ctxs := rfl
@[simp] theorem State.setReg_frames (s : State) (win off v : Nat) : (s.setReg win off v).frames = s.frames := rfl
@[simp] theorem State.setReg_fns (s : State) (win off v : Nat) : (s.setReg win off v).fns = s.fns := rfl
@[simp] theorem State.setReg_queues (s : State) (win off v : Nat) : (s.setReg win off v).queues = s.queues := rfl
@[simp] theorem State.setReg_ops (s : State) (win off v : Nat) : (s.setReg win off v).ops = s.ops := rfl
@[simp] theorem State.setReg_nextOp (s : State) (win off v : Nat) : (s.setReg win off v).nextOp = s.nextOp := rfl
@[simp] theorem State.setReg_heldOps (s : State) (win off v : Nat) : (s.setReg win off v).heldOps = s.heldOps := rfl
@[simp] theorem State.setReg_cells (s : State) (win off v : Nat) : (s.setReg win off v).cells = s.cells := rfl
@[simp] theorem State.setReg_mes (s : State) (win off v : Nat) : (s.setReg win off v).mes = s.mes := rfl
@[simp] theorem State.setReg_tes (s : State) (win off v : Nat) : (s.setReg win off v).tes = s.tes := rfl
@[simp] theorem State.setReg_dies (s : State) (win off v : Nat) : (s.setReg win off v).dies = s.dies := rfl
@[simp] theorem State.setReg_hbms (s : State) (win off v : Nat) : (s.setReg win off v).hbms = s.hbms := rfl
@[simp] theorem State.setReg_parts (s : State) (win off v : Nat) : (s.setReg win off v).parts = s.parts := rfl
@[simp] theorem State.setReg_ports (s : State) (win off v : Nat) : (s.setReg win off v).ports = s.ports := rfl
@[simp] theorem State.setReg_reduces (s : State) (win off v : Nat) : (s.setReg win off v).reduces = s.reduces := rfl
@[simp] theorem State.setReg_redDone (s : State) (win off v : Nat) : (s.setReg win off v).redDone = s.redDone := rfl
@[simp] theorem State.setReg_inbox (s : State) (win off v : Nat) : (s.setReg win off v).inbox = s.inbox := rfl
@[simp] theorem State.setReg_mail (s : State) (win off v : Nat) : (s.setReg win off v).mail = s.mail := rfl
@[simp] theorem State.setReg_outbox (s : State) (win off v : Nat) : (s.setReg win off v).outbox = s.outbox := rfl
@[simp] theorem State.setReg_nextMsg (s : State) (win off v : Nat) : (s.setReg win off v).nextMsg = s.nextMsg := rfl
@[simp] theorem State.setReg_jobs (s : State) (win off v : Nat) : (s.setReg win off v).jobs = s.jobs := rfl
@[simp] theorem State.setReg_beat (s : State) (win off v : Nat) : (s.setReg win off v).beat = s.beat := rfl
@[simp] theorem State.setReg_log (s : State) (win off v : Nat) : (s.setReg win off v).log = s.log := rfl
@[simp] theorem State.setReg_logNext (s : State) (win off v : Nat) : (s.setReg win off v).logNext = s.logNext := rfl
@[simp] theorem State.setReg_power (s : State) (win off v : Nat) : (s.setReg win off v).power = s.power := rfl
@[simp] theorem State.setReg_store (s : State) (win off v : Nat) : (s.setReg win off v).store = s.store := rfl
@[simp] theorem State.setReg_boot (s : State) (win off v : Nat) : (s.setReg win off v).boot = s.boot := rfl
@[simp] theorem State.setReg_links (s : State) (win off v : Nat) : (s.setReg win off v).links = s.links := rfl
@[simp] theorem State.setReg_extension (s : State) (win off v : Nat) : (s.setReg win off v).extension = s.extension := rfl
@[simp] theorem State.setReg_snapshots (s : State) (win off v : Nat) : (s.setReg win off v).snapshots = s.snapshots := rfl
@[simp] theorem State.setReg_mgmtEvent (s : State) (win off v : Nat) : (s.setReg win off v).mgmtEvent = s.mgmtEvent := rfl
@[simp] theorem State.setReg_mgmtCoalesce (s : State) (win off v : Nat) : (s.setReg win off v).mgmtCoalesce = s.mgmtCoalesce := rfl
@[simp] theorem State.setReg_rdData (s : State) (win off v : Nat) : (s.setReg win off v).rdData = s.rdData := rfl
@[simp] theorem State.setReg_smbData (s : State) (win off v : Nat) : (s.setReg win off v).smbData = s.smbData := rfl
@[simp] theorem State.setReg_scanData (s : State) (win off v : Nat) : (s.setReg win off v).scanData = s.scanData := rfl
@[simp] theorem State.setReg_lastCpl (s : State) (win off v : Nat) : (s.setReg win off v).lastCpl = s.lastCpl := rfl
@[simp] theorem State.setReg_fresh (s : State) (win off v : Nat) : (s.setReg win off v).fresh = s.fresh := rfl

@[simp] theorem State.write_pending (s : State) (a : Nat) (bs : List Byte) : (s.write a bs).pending = s.pending := rfl
@[simp] theorem State.write_parked (s : State) (a : Nat) (bs : List Byte) : (s.write a bs).parked = s.parked := rfl
@[simp] theorem State.write_dir (s : State) (a : Nat) (bs : List Byte) : (s.write a bs).dir = s.dir := rfl
@[simp] theorem State.write_scrubs (s : State) (a : Nat) (bs : List Byte) : (s.write a bs).scrubs = s.scrubs := rfl
@[simp] theorem State.write_dirLag (s : State) (a : Nat) (bs : List Byte) : (s.write a bs).dirLag = s.dirLag := rfl
@[simp] theorem State.write_ctxs (s : State) (a : Nat) (bs : List Byte) : (s.write a bs).ctxs = s.ctxs := rfl
@[simp] theorem State.write_frames (s : State) (a : Nat) (bs : List Byte) : (s.write a bs).frames = s.frames := rfl
@[simp] theorem State.write_fns (s : State) (a : Nat) (bs : List Byte) : (s.write a bs).fns = s.fns := rfl
@[simp] theorem State.write_queues (s : State) (a : Nat) (bs : List Byte) : (s.write a bs).queues = s.queues := rfl
@[simp] theorem State.write_ops (s : State) (a : Nat) (bs : List Byte) : (s.write a bs).ops = s.ops := rfl
@[simp] theorem State.write_nextOp (s : State) (a : Nat) (bs : List Byte) : (s.write a bs).nextOp = s.nextOp := rfl
@[simp] theorem State.write_heldOps (s : State) (a : Nat) (bs : List Byte) : (s.write a bs).heldOps = s.heldOps := rfl
@[simp] theorem State.write_cells (s : State) (a : Nat) (bs : List Byte) : (s.write a bs).cells = s.cells := rfl
@[simp] theorem State.write_mes (s : State) (a : Nat) (bs : List Byte) : (s.write a bs).mes = s.mes := rfl
@[simp] theorem State.write_tes (s : State) (a : Nat) (bs : List Byte) : (s.write a bs).tes = s.tes := rfl
@[simp] theorem State.write_dies (s : State) (a : Nat) (bs : List Byte) : (s.write a bs).dies = s.dies := rfl
@[simp] theorem State.write_hbms (s : State) (a : Nat) (bs : List Byte) : (s.write a bs).hbms = s.hbms := rfl
@[simp] theorem State.write_parts (s : State) (a : Nat) (bs : List Byte) : (s.write a bs).parts = s.parts := rfl
@[simp] theorem State.write_ports (s : State) (a : Nat) (bs : List Byte) : (s.write a bs).ports = s.ports := rfl
@[simp] theorem State.write_reduces (s : State) (a : Nat) (bs : List Byte) : (s.write a bs).reduces = s.reduces := rfl
@[simp] theorem State.write_redDone (s : State) (a : Nat) (bs : List Byte) : (s.write a bs).redDone = s.redDone := rfl
@[simp] theorem State.write_inbox (s : State) (a : Nat) (bs : List Byte) : (s.write a bs).inbox = s.inbox := rfl
@[simp] theorem State.write_mail (s : State) (a : Nat) (bs : List Byte) : (s.write a bs).mail = s.mail := rfl
@[simp] theorem State.write_outbox (s : State) (a : Nat) (bs : List Byte) : (s.write a bs).outbox = s.outbox := rfl
@[simp] theorem State.write_nextMsg (s : State) (a : Nat) (bs : List Byte) : (s.write a bs).nextMsg = s.nextMsg := rfl
@[simp] theorem State.write_jobs (s : State) (a : Nat) (bs : List Byte) : (s.write a bs).jobs = s.jobs := rfl
@[simp] theorem State.write_beat (s : State) (a : Nat) (bs : List Byte) : (s.write a bs).beat = s.beat := rfl
@[simp] theorem State.write_log (s : State) (a : Nat) (bs : List Byte) : (s.write a bs).log = s.log := rfl
@[simp] theorem State.write_logNext (s : State) (a : Nat) (bs : List Byte) : (s.write a bs).logNext = s.logNext := rfl
@[simp] theorem State.write_power (s : State) (a : Nat) (bs : List Byte) : (s.write a bs).power = s.power := rfl
@[simp] theorem State.write_store (s : State) (a : Nat) (bs : List Byte) : (s.write a bs).store = s.store := rfl
@[simp] theorem State.write_boot (s : State) (a : Nat) (bs : List Byte) : (s.write a bs).boot = s.boot := rfl
@[simp] theorem State.write_links (s : State) (a : Nat) (bs : List Byte) : (s.write a bs).links = s.links := rfl
@[simp] theorem State.write_extension (s : State) (a : Nat) (bs : List Byte) : (s.write a bs).extension = s.extension := rfl
@[simp] theorem State.write_regs (s : State) (a : Nat) (bs : List Byte) : (s.write a bs).regs = s.regs := rfl
@[simp] theorem State.write_snapshots (s : State) (a : Nat) (bs : List Byte) : (s.write a bs).snapshots = s.snapshots := rfl
@[simp] theorem State.write_mgmtEvent (s : State) (a : Nat) (bs : List Byte) : (s.write a bs).mgmtEvent = s.mgmtEvent := rfl
@[simp] theorem State.write_mgmtCoalesce (s : State) (a : Nat) (bs : List Byte) : (s.write a bs).mgmtCoalesce = s.mgmtCoalesce := rfl
@[simp] theorem State.write_rdData (s : State) (a : Nat) (bs : List Byte) : (s.write a bs).rdData = s.rdData := rfl
@[simp] theorem State.write_smbData (s : State) (a : Nat) (bs : List Byte) : (s.write a bs).smbData = s.smbData := rfl
@[simp] theorem State.write_scanData (s : State) (a : Nat) (bs : List Byte) : (s.write a bs).scanData = s.scanData := rfl
@[simp] theorem State.write_lastCpl (s : State) (a : Nat) (bs : List Byte) : (s.write a bs).lastCpl = s.lastCpl := rfl
@[simp] theorem State.write_fresh (s : State) (a : Nat) (bs : List Byte) : (s.write a bs).fresh = s.fresh := rfl

@[simp] theorem State.addOp_pending (s : State) (o : Op) : (s.addOp o).pending = s.pending := rfl
@[simp] theorem State.addOp_parked (s : State) (o : Op) : (s.addOp o).parked = s.parked := rfl
@[simp] theorem State.addOp_mem (s : State) (o : Op) : (s.addOp o).mem = s.mem := rfl
@[simp] theorem State.addOp_poison (s : State) (o : Op) : (s.addOp o).poison = s.poison := rfl
@[simp] theorem State.addOp_dir (s : State) (o : Op) : (s.addOp o).dir = s.dir := rfl
@[simp] theorem State.addOp_scrubs (s : State) (o : Op) : (s.addOp o).scrubs = s.scrubs := rfl
@[simp] theorem State.addOp_dirLag (s : State) (o : Op) : (s.addOp o).dirLag = s.dirLag := rfl
@[simp] theorem State.addOp_ctxs (s : State) (o : Op) : (s.addOp o).ctxs = s.ctxs := rfl
@[simp] theorem State.addOp_frames (s : State) (o : Op) : (s.addOp o).frames = s.frames := rfl
@[simp] theorem State.addOp_fns (s : State) (o : Op) : (s.addOp o).fns = s.fns := rfl
@[simp] theorem State.addOp_queues (s : State) (o : Op) : (s.addOp o).queues = s.queues := rfl
@[simp] theorem State.addOp_heldOps (s : State) (o : Op) : (s.addOp o).heldOps = s.heldOps := rfl
@[simp] theorem State.addOp_cells (s : State) (o : Op) : (s.addOp o).cells = s.cells := rfl
@[simp] theorem State.addOp_mes (s : State) (o : Op) : (s.addOp o).mes = s.mes := rfl
@[simp] theorem State.addOp_tes (s : State) (o : Op) : (s.addOp o).tes = s.tes := rfl
@[simp] theorem State.addOp_dies (s : State) (o : Op) : (s.addOp o).dies = s.dies := rfl
@[simp] theorem State.addOp_hbms (s : State) (o : Op) : (s.addOp o).hbms = s.hbms := rfl
@[simp] theorem State.addOp_parts (s : State) (o : Op) : (s.addOp o).parts = s.parts := rfl
@[simp] theorem State.addOp_ports (s : State) (o : Op) : (s.addOp o).ports = s.ports := rfl
@[simp] theorem State.addOp_reduces (s : State) (o : Op) : (s.addOp o).reduces = s.reduces := rfl
@[simp] theorem State.addOp_redDone (s : State) (o : Op) : (s.addOp o).redDone = s.redDone := rfl
@[simp] theorem State.addOp_inbox (s : State) (o : Op) : (s.addOp o).inbox = s.inbox := rfl
@[simp] theorem State.addOp_mail (s : State) (o : Op) : (s.addOp o).mail = s.mail := rfl
@[simp] theorem State.addOp_outbox (s : State) (o : Op) : (s.addOp o).outbox = s.outbox := rfl
@[simp] theorem State.addOp_nextMsg (s : State) (o : Op) : (s.addOp o).nextMsg = s.nextMsg := rfl
@[simp] theorem State.addOp_jobs (s : State) (o : Op) : (s.addOp o).jobs = s.jobs := rfl
@[simp] theorem State.addOp_beat (s : State) (o : Op) : (s.addOp o).beat = s.beat := rfl
@[simp] theorem State.addOp_log (s : State) (o : Op) : (s.addOp o).log = s.log := rfl
@[simp] theorem State.addOp_logNext (s : State) (o : Op) : (s.addOp o).logNext = s.logNext := rfl
@[simp] theorem State.addOp_power (s : State) (o : Op) : (s.addOp o).power = s.power := rfl
@[simp] theorem State.addOp_store (s : State) (o : Op) : (s.addOp o).store = s.store := rfl
@[simp] theorem State.addOp_boot (s : State) (o : Op) : (s.addOp o).boot = s.boot := rfl
@[simp] theorem State.addOp_links (s : State) (o : Op) : (s.addOp o).links = s.links := rfl
@[simp] theorem State.addOp_extension (s : State) (o : Op) : (s.addOp o).extension = s.extension := rfl
@[simp] theorem State.addOp_regs (s : State) (o : Op) : (s.addOp o).regs = s.regs := rfl
@[simp] theorem State.addOp_snapshots (s : State) (o : Op) : (s.addOp o).snapshots = s.snapshots := rfl
@[simp] theorem State.addOp_mgmtEvent (s : State) (o : Op) : (s.addOp o).mgmtEvent = s.mgmtEvent := rfl
@[simp] theorem State.addOp_mgmtCoalesce (s : State) (o : Op) : (s.addOp o).mgmtCoalesce = s.mgmtCoalesce := rfl
@[simp] theorem State.addOp_rdData (s : State) (o : Op) : (s.addOp o).rdData = s.rdData := rfl
@[simp] theorem State.addOp_smbData (s : State) (o : Op) : (s.addOp o).smbData = s.smbData := rfl
@[simp] theorem State.addOp_scanData (s : State) (o : Op) : (s.addOp o).scanData = s.scanData := rfl
@[simp] theorem State.addOp_lastCpl (s : State) (o : Op) : (s.addOp o).lastCpl = s.lastCpl := rfl
@[simp] theorem State.addOp_fresh (s : State) (o : Op) : (s.addOp o).fresh = s.fresh := rfl

@[simp] theorem State.modOp_pending (s : State) (r : OpRef) (g : Op → Op) : (s.modOp r g).pending = s.pending := rfl
@[simp] theorem State.modOp_parked (s : State) (r : OpRef) (g : Op → Op) : (s.modOp r g).parked = s.parked := rfl
@[simp] theorem State.modOp_mem (s : State) (r : OpRef) (g : Op → Op) : (s.modOp r g).mem = s.mem := rfl
@[simp] theorem State.modOp_poison (s : State) (r : OpRef) (g : Op → Op) : (s.modOp r g).poison = s.poison := rfl
@[simp] theorem State.modOp_dir (s : State) (r : OpRef) (g : Op → Op) : (s.modOp r g).dir = s.dir := rfl
@[simp] theorem State.modOp_scrubs (s : State) (r : OpRef) (g : Op → Op) : (s.modOp r g).scrubs = s.scrubs := rfl
@[simp] theorem State.modOp_dirLag (s : State) (r : OpRef) (g : Op → Op) : (s.modOp r g).dirLag = s.dirLag := rfl
@[simp] theorem State.modOp_ctxs (s : State) (r : OpRef) (g : Op → Op) : (s.modOp r g).ctxs = s.ctxs := rfl
@[simp] theorem State.modOp_frames (s : State) (r : OpRef) (g : Op → Op) : (s.modOp r g).frames = s.frames := rfl
@[simp] theorem State.modOp_fns (s : State) (r : OpRef) (g : Op → Op) : (s.modOp r g).fns = s.fns := rfl
@[simp] theorem State.modOp_queues (s : State) (r : OpRef) (g : Op → Op) : (s.modOp r g).queues = s.queues := rfl
@[simp] theorem State.modOp_nextOp (s : State) (r : OpRef) (g : Op → Op) : (s.modOp r g).nextOp = s.nextOp := rfl
@[simp] theorem State.modOp_heldOps (s : State) (r : OpRef) (g : Op → Op) : (s.modOp r g).heldOps = s.heldOps := rfl
@[simp] theorem State.modOp_cells (s : State) (r : OpRef) (g : Op → Op) : (s.modOp r g).cells = s.cells := rfl
@[simp] theorem State.modOp_mes (s : State) (r : OpRef) (g : Op → Op) : (s.modOp r g).mes = s.mes := rfl
@[simp] theorem State.modOp_tes (s : State) (r : OpRef) (g : Op → Op) : (s.modOp r g).tes = s.tes := rfl
@[simp] theorem State.modOp_dies (s : State) (r : OpRef) (g : Op → Op) : (s.modOp r g).dies = s.dies := rfl
@[simp] theorem State.modOp_hbms (s : State) (r : OpRef) (g : Op → Op) : (s.modOp r g).hbms = s.hbms := rfl
@[simp] theorem State.modOp_parts (s : State) (r : OpRef) (g : Op → Op) : (s.modOp r g).parts = s.parts := rfl
@[simp] theorem State.modOp_ports (s : State) (r : OpRef) (g : Op → Op) : (s.modOp r g).ports = s.ports := rfl
@[simp] theorem State.modOp_reduces (s : State) (r : OpRef) (g : Op → Op) : (s.modOp r g).reduces = s.reduces := rfl
@[simp] theorem State.modOp_redDone (s : State) (r : OpRef) (g : Op → Op) : (s.modOp r g).redDone = s.redDone := rfl
@[simp] theorem State.modOp_inbox (s : State) (r : OpRef) (g : Op → Op) : (s.modOp r g).inbox = s.inbox := rfl
@[simp] theorem State.modOp_mail (s : State) (r : OpRef) (g : Op → Op) : (s.modOp r g).mail = s.mail := rfl
@[simp] theorem State.modOp_outbox (s : State) (r : OpRef) (g : Op → Op) : (s.modOp r g).outbox = s.outbox := rfl
@[simp] theorem State.modOp_nextMsg (s : State) (r : OpRef) (g : Op → Op) : (s.modOp r g).nextMsg = s.nextMsg := rfl
@[simp] theorem State.modOp_jobs (s : State) (r : OpRef) (g : Op → Op) : (s.modOp r g).jobs = s.jobs := rfl
@[simp] theorem State.modOp_beat (s : State) (r : OpRef) (g : Op → Op) : (s.modOp r g).beat = s.beat := rfl
@[simp] theorem State.modOp_log (s : State) (r : OpRef) (g : Op → Op) : (s.modOp r g).log = s.log := rfl
@[simp] theorem State.modOp_logNext (s : State) (r : OpRef) (g : Op → Op) : (s.modOp r g).logNext = s.logNext := rfl
@[simp] theorem State.modOp_power (s : State) (r : OpRef) (g : Op → Op) : (s.modOp r g).power = s.power := rfl
@[simp] theorem State.modOp_store (s : State) (r : OpRef) (g : Op → Op) : (s.modOp r g).store = s.store := rfl
@[simp] theorem State.modOp_boot (s : State) (r : OpRef) (g : Op → Op) : (s.modOp r g).boot = s.boot := rfl
@[simp] theorem State.modOp_links (s : State) (r : OpRef) (g : Op → Op) : (s.modOp r g).links = s.links := rfl
@[simp] theorem State.modOp_extension (s : State) (r : OpRef) (g : Op → Op) : (s.modOp r g).extension = s.extension := rfl
@[simp] theorem State.modOp_regs (s : State) (r : OpRef) (g : Op → Op) : (s.modOp r g).regs = s.regs := rfl
@[simp] theorem State.modOp_snapshots (s : State) (r : OpRef) (g : Op → Op) : (s.modOp r g).snapshots = s.snapshots := rfl
@[simp] theorem State.modOp_mgmtEvent (s : State) (r : OpRef) (g : Op → Op) : (s.modOp r g).mgmtEvent = s.mgmtEvent := rfl
@[simp] theorem State.modOp_mgmtCoalesce (s : State) (r : OpRef) (g : Op → Op) : (s.modOp r g).mgmtCoalesce = s.mgmtCoalesce := rfl
@[simp] theorem State.modOp_rdData (s : State) (r : OpRef) (g : Op → Op) : (s.modOp r g).rdData = s.rdData := rfl
@[simp] theorem State.modOp_smbData (s : State) (r : OpRef) (g : Op → Op) : (s.modOp r g).smbData = s.smbData := rfl
@[simp] theorem State.modOp_scanData (s : State) (r : OpRef) (g : Op → Op) : (s.modOp r g).scanData = s.scanData := rfl
@[simp] theorem State.modOp_lastCpl (s : State) (r : OpRef) (g : Op → Op) : (s.modOp r g).lastCpl = s.lastCpl := rfl
@[simp] theorem State.modOp_fresh (s : State) (r : OpRef) (g : Op → Op) : (s.modOp r g).fresh = s.fresh := rfl

@[simp] theorem State.dropOp_pending (s : State) (r : OpRef) : (s.dropOp r).pending = s.pending := rfl
@[simp] theorem State.dropOp_parked (s : State) (r : OpRef) : (s.dropOp r).parked = s.parked := rfl
@[simp] theorem State.dropOp_mem (s : State) (r : OpRef) : (s.dropOp r).mem = s.mem := rfl
@[simp] theorem State.dropOp_poison (s : State) (r : OpRef) : (s.dropOp r).poison = s.poison := rfl
@[simp] theorem State.dropOp_dir (s : State) (r : OpRef) : (s.dropOp r).dir = s.dir := rfl
@[simp] theorem State.dropOp_scrubs (s : State) (r : OpRef) : (s.dropOp r).scrubs = s.scrubs := rfl
@[simp] theorem State.dropOp_dirLag (s : State) (r : OpRef) : (s.dropOp r).dirLag = s.dirLag := rfl
@[simp] theorem State.dropOp_ctxs (s : State) (r : OpRef) : (s.dropOp r).ctxs = s.ctxs := rfl
@[simp] theorem State.dropOp_frames (s : State) (r : OpRef) : (s.dropOp r).frames = s.frames := rfl
@[simp] theorem State.dropOp_fns (s : State) (r : OpRef) : (s.dropOp r).fns = s.fns := rfl
@[simp] theorem State.dropOp_queues (s : State) (r : OpRef) : (s.dropOp r).queues = s.queues := rfl
@[simp] theorem State.dropOp_nextOp (s : State) (r : OpRef) : (s.dropOp r).nextOp = s.nextOp := rfl
@[simp] theorem State.dropOp_heldOps (s : State) (r : OpRef) : (s.dropOp r).heldOps = s.heldOps := rfl
@[simp] theorem State.dropOp_cells (s : State) (r : OpRef) : (s.dropOp r).cells = s.cells := rfl
@[simp] theorem State.dropOp_mes (s : State) (r : OpRef) : (s.dropOp r).mes = s.mes := rfl
@[simp] theorem State.dropOp_tes (s : State) (r : OpRef) : (s.dropOp r).tes = s.tes := rfl
@[simp] theorem State.dropOp_dies (s : State) (r : OpRef) : (s.dropOp r).dies = s.dies := rfl
@[simp] theorem State.dropOp_hbms (s : State) (r : OpRef) : (s.dropOp r).hbms = s.hbms := rfl
@[simp] theorem State.dropOp_parts (s : State) (r : OpRef) : (s.dropOp r).parts = s.parts := rfl
@[simp] theorem State.dropOp_ports (s : State) (r : OpRef) : (s.dropOp r).ports = s.ports := rfl
@[simp] theorem State.dropOp_reduces (s : State) (r : OpRef) : (s.dropOp r).reduces = s.reduces := rfl
@[simp] theorem State.dropOp_redDone (s : State) (r : OpRef) : (s.dropOp r).redDone = s.redDone := rfl
@[simp] theorem State.dropOp_inbox (s : State) (r : OpRef) : (s.dropOp r).inbox = s.inbox := rfl
@[simp] theorem State.dropOp_mail (s : State) (r : OpRef) : (s.dropOp r).mail = s.mail := rfl
@[simp] theorem State.dropOp_outbox (s : State) (r : OpRef) : (s.dropOp r).outbox = s.outbox := rfl
@[simp] theorem State.dropOp_nextMsg (s : State) (r : OpRef) : (s.dropOp r).nextMsg = s.nextMsg := rfl
@[simp] theorem State.dropOp_jobs (s : State) (r : OpRef) : (s.dropOp r).jobs = s.jobs := rfl
@[simp] theorem State.dropOp_beat (s : State) (r : OpRef) : (s.dropOp r).beat = s.beat := rfl
@[simp] theorem State.dropOp_log (s : State) (r : OpRef) : (s.dropOp r).log = s.log := rfl
@[simp] theorem State.dropOp_logNext (s : State) (r : OpRef) : (s.dropOp r).logNext = s.logNext := rfl
@[simp] theorem State.dropOp_power (s : State) (r : OpRef) : (s.dropOp r).power = s.power := rfl
@[simp] theorem State.dropOp_store (s : State) (r : OpRef) : (s.dropOp r).store = s.store := rfl
@[simp] theorem State.dropOp_boot (s : State) (r : OpRef) : (s.dropOp r).boot = s.boot := rfl
@[simp] theorem State.dropOp_links (s : State) (r : OpRef) : (s.dropOp r).links = s.links := rfl
@[simp] theorem State.dropOp_extension (s : State) (r : OpRef) : (s.dropOp r).extension = s.extension := rfl
@[simp] theorem State.dropOp_regs (s : State) (r : OpRef) : (s.dropOp r).regs = s.regs := rfl
@[simp] theorem State.dropOp_snapshots (s : State) (r : OpRef) : (s.dropOp r).snapshots = s.snapshots := rfl
@[simp] theorem State.dropOp_mgmtEvent (s : State) (r : OpRef) : (s.dropOp r).mgmtEvent = s.mgmtEvent := rfl
@[simp] theorem State.dropOp_mgmtCoalesce (s : State) (r : OpRef) : (s.dropOp r).mgmtCoalesce = s.mgmtCoalesce := rfl
@[simp] theorem State.dropOp_rdData (s : State) (r : OpRef) : (s.dropOp r).rdData = s.rdData := rfl
@[simp] theorem State.dropOp_smbData (s : State) (r : OpRef) : (s.dropOp r).smbData = s.smbData := rfl
@[simp] theorem State.dropOp_scanData (s : State) (r : OpRef) : (s.dropOp r).scanData = s.scanData := rfl
@[simp] theorem State.dropOp_lastCpl (s : State) (r : OpRef) : (s.dropOp r).lastCpl = s.lastCpl := rfl
@[simp] theorem State.dropOp_fresh (s : State) (r : OpRef) : (s.dropOp r).fresh = s.fresh := rfl

@[simp] theorem State.releaseHolds_pending (s : State) (o : Op) : (s.releaseHolds o).pending = s.pending := rfl
@[simp] theorem State.releaseHolds_parked (s : State) (o : Op) : (s.releaseHolds o).parked = s.parked := rfl
@[simp] theorem State.releaseHolds_mem (s : State) (o : Op) : (s.releaseHolds o).mem = s.mem := rfl
@[simp] theorem State.releaseHolds_poison (s : State) (o : Op) : (s.releaseHolds o).poison = s.poison := rfl
@[simp] theorem State.releaseHolds_scrubs (s : State) (o : Op) : (s.releaseHolds o).scrubs = s.scrubs := rfl
@[simp] theorem State.releaseHolds_dirLag (s : State) (o : Op) : (s.releaseHolds o).dirLag = s.dirLag := rfl
@[simp] theorem State.releaseHolds_frames (s : State) (o : Op) : (s.releaseHolds o).frames = s.frames := rfl
@[simp] theorem State.releaseHolds_fns (s : State) (o : Op) : (s.releaseHolds o).fns = s.fns := rfl
@[simp] theorem State.releaseHolds_queues (s : State) (o : Op) : (s.releaseHolds o).queues = s.queues := rfl
@[simp] theorem State.releaseHolds_ops (s : State) (o : Op) : (s.releaseHolds o).ops = s.ops := rfl
@[simp] theorem State.releaseHolds_nextOp (s : State) (o : Op) : (s.releaseHolds o).nextOp = s.nextOp := rfl
@[simp] theorem State.releaseHolds_heldOps (s : State) (o : Op) : (s.releaseHolds o).heldOps = s.heldOps := rfl
@[simp] theorem State.releaseHolds_cells (s : State) (o : Op) : (s.releaseHolds o).cells = s.cells := rfl
@[simp] theorem State.releaseHolds_mes (s : State) (o : Op) : (s.releaseHolds o).mes = s.mes := rfl
@[simp] theorem State.releaseHolds_tes (s : State) (o : Op) : (s.releaseHolds o).tes = s.tes := rfl
@[simp] theorem State.releaseHolds_dies (s : State) (o : Op) : (s.releaseHolds o).dies = s.dies := rfl
@[simp] theorem State.releaseHolds_hbms (s : State) (o : Op) : (s.releaseHolds o).hbms = s.hbms := rfl
@[simp] theorem State.releaseHolds_parts (s : State) (o : Op) : (s.releaseHolds o).parts = s.parts := rfl
@[simp] theorem State.releaseHolds_ports (s : State) (o : Op) : (s.releaseHolds o).ports = s.ports := rfl
@[simp] theorem State.releaseHolds_reduces (s : State) (o : Op) : (s.releaseHolds o).reduces = s.reduces := rfl
@[simp] theorem State.releaseHolds_redDone (s : State) (o : Op) : (s.releaseHolds o).redDone = s.redDone := rfl
@[simp] theorem State.releaseHolds_inbox (s : State) (o : Op) : (s.releaseHolds o).inbox = s.inbox := rfl
@[simp] theorem State.releaseHolds_mail (s : State) (o : Op) : (s.releaseHolds o).mail = s.mail := rfl
@[simp] theorem State.releaseHolds_outbox (s : State) (o : Op) : (s.releaseHolds o).outbox = s.outbox := rfl
@[simp] theorem State.releaseHolds_nextMsg (s : State) (o : Op) : (s.releaseHolds o).nextMsg = s.nextMsg := rfl
@[simp] theorem State.releaseHolds_jobs (s : State) (o : Op) : (s.releaseHolds o).jobs = s.jobs := rfl
@[simp] theorem State.releaseHolds_beat (s : State) (o : Op) : (s.releaseHolds o).beat = s.beat := rfl
@[simp] theorem State.releaseHolds_log (s : State) (o : Op) : (s.releaseHolds o).log = s.log := rfl
@[simp] theorem State.releaseHolds_logNext (s : State) (o : Op) : (s.releaseHolds o).logNext = s.logNext := rfl
@[simp] theorem State.releaseHolds_power (s : State) (o : Op) : (s.releaseHolds o).power = s.power := rfl
@[simp] theorem State.releaseHolds_store (s : State) (o : Op) : (s.releaseHolds o).store = s.store := rfl
@[simp] theorem State.releaseHolds_boot (s : State) (o : Op) : (s.releaseHolds o).boot = s.boot := rfl
@[simp] theorem State.releaseHolds_links (s : State) (o : Op) : (s.releaseHolds o).links = s.links := rfl
@[simp] theorem State.releaseHolds_extension (s : State) (o : Op) : (s.releaseHolds o).extension = s.extension := rfl
@[simp] theorem State.releaseHolds_regs (s : State) (o : Op) : (s.releaseHolds o).regs = s.regs := rfl
@[simp] theorem State.releaseHolds_snapshots (s : State) (o : Op) : (s.releaseHolds o).snapshots = s.snapshots := rfl
@[simp] theorem State.releaseHolds_mgmtEvent (s : State) (o : Op) : (s.releaseHolds o).mgmtEvent = s.mgmtEvent := rfl
@[simp] theorem State.releaseHolds_mgmtCoalesce (s : State) (o : Op) : (s.releaseHolds o).mgmtCoalesce = s.mgmtCoalesce := rfl
@[simp] theorem State.releaseHolds_rdData (s : State) (o : Op) : (s.releaseHolds o).rdData = s.rdData := rfl
@[simp] theorem State.releaseHolds_smbData (s : State) (o : Op) : (s.releaseHolds o).smbData = s.smbData := rfl
@[simp] theorem State.releaseHolds_scanData (s : State) (o : Op) : (s.releaseHolds o).scanData = s.scanData := rfl
@[simp] theorem State.releaseHolds_lastCpl (s : State) (o : Op) : (s.releaseHolds o).lastCpl = s.lastCpl := rfl
@[simp] theorem State.releaseHolds_fresh (s : State) (o : Op) : (s.releaseHolds o).fresh = s.fresh := rfl

@[simp] theorem State.draw_pending (s : State) : s.draw.2.pending = s.pending := rfl
@[simp] theorem State.draw_parked (s : State) : s.draw.2.parked = s.parked := rfl
@[simp] theorem State.draw_mem (s : State) : s.draw.2.mem = s.mem := rfl
@[simp] theorem State.draw_poison (s : State) : s.draw.2.poison = s.poison := rfl
@[simp] theorem State.draw_dir (s : State) : s.draw.2.dir = s.dir := rfl
@[simp] theorem State.draw_scrubs (s : State) : s.draw.2.scrubs = s.scrubs := rfl
@[simp] theorem State.draw_dirLag (s : State) : s.draw.2.dirLag = s.dirLag := rfl
@[simp] theorem State.draw_ctxs (s : State) : s.draw.2.ctxs = s.ctxs := rfl
@[simp] theorem State.draw_frames (s : State) : s.draw.2.frames = s.frames := rfl
@[simp] theorem State.draw_fns (s : State) : s.draw.2.fns = s.fns := rfl
@[simp] theorem State.draw_queues (s : State) : s.draw.2.queues = s.queues := rfl
@[simp] theorem State.draw_ops (s : State) : s.draw.2.ops = s.ops := rfl
@[simp] theorem State.draw_nextOp (s : State) : s.draw.2.nextOp = s.nextOp := rfl
@[simp] theorem State.draw_heldOps (s : State) : s.draw.2.heldOps = s.heldOps := rfl
@[simp] theorem State.draw_cells (s : State) : s.draw.2.cells = s.cells := rfl
@[simp] theorem State.draw_mes (s : State) : s.draw.2.mes = s.mes := rfl
@[simp] theorem State.draw_tes (s : State) : s.draw.2.tes = s.tes := rfl
@[simp] theorem State.draw_dies (s : State) : s.draw.2.dies = s.dies := rfl
@[simp] theorem State.draw_hbms (s : State) : s.draw.2.hbms = s.hbms := rfl
@[simp] theorem State.draw_parts (s : State) : s.draw.2.parts = s.parts := rfl
@[simp] theorem State.draw_ports (s : State) : s.draw.2.ports = s.ports := rfl
@[simp] theorem State.draw_reduces (s : State) : s.draw.2.reduces = s.reduces := rfl
@[simp] theorem State.draw_redDone (s : State) : s.draw.2.redDone = s.redDone := rfl
@[simp] theorem State.draw_inbox (s : State) : s.draw.2.inbox = s.inbox := rfl
@[simp] theorem State.draw_mail (s : State) : s.draw.2.mail = s.mail := rfl
@[simp] theorem State.draw_outbox (s : State) : s.draw.2.outbox = s.outbox := rfl
@[simp] theorem State.draw_nextMsg (s : State) : s.draw.2.nextMsg = s.nextMsg := rfl
@[simp] theorem State.draw_jobs (s : State) : s.draw.2.jobs = s.jobs := rfl
@[simp] theorem State.draw_beat (s : State) : s.draw.2.beat = s.beat := rfl
@[simp] theorem State.draw_log (s : State) : s.draw.2.log = s.log := rfl
@[simp] theorem State.draw_logNext (s : State) : s.draw.2.logNext = s.logNext := rfl
@[simp] theorem State.draw_power (s : State) : s.draw.2.power = s.power := rfl
@[simp] theorem State.draw_store (s : State) : s.draw.2.store = s.store := rfl
@[simp] theorem State.draw_boot (s : State) : s.draw.2.boot = s.boot := rfl
@[simp] theorem State.draw_links (s : State) : s.draw.2.links = s.links := rfl
@[simp] theorem State.draw_extension (s : State) : s.draw.2.extension = s.extension := rfl
@[simp] theorem State.draw_regs (s : State) : s.draw.2.regs = s.regs := rfl
@[simp] theorem State.draw_snapshots (s : State) : s.draw.2.snapshots = s.snapshots := rfl
@[simp] theorem State.draw_mgmtEvent (s : State) : s.draw.2.mgmtEvent = s.mgmtEvent := rfl
@[simp] theorem State.draw_mgmtCoalesce (s : State) : s.draw.2.mgmtCoalesce = s.mgmtCoalesce := rfl
@[simp] theorem State.draw_rdData (s : State) : s.draw.2.rdData = s.rdData := rfl
@[simp] theorem State.draw_smbData (s : State) : s.draw.2.smbData = s.smbData := rfl
@[simp] theorem State.draw_scanData (s : State) : s.draw.2.scanData = s.scanData := rfl
@[simp] theorem State.draw_lastCpl (s : State) : s.draw.2.lastCpl = s.lastCpl := rfl
@[simp] theorem State.draw_fst (s : State) : s.draw.1 = Config.freeValue s.fresh := rfl
@[simp] theorem State.draw_fresh (s : State) : s.draw.2.fresh = s.fresh + 1 := rfl
@[simp] theorem State.addOp_ops (s : State) (o : Op) : (s.addOp o).ops = s.ops ++ [o] := rfl
@[simp] theorem State.addOp_nextOp (s : State) (o : Op) : (s.addOp o).nextOp = s.nextOp + 1 := rfl
@[simp] theorem State.write_mem (s : State) (a : Nat) (bs : List Byte) : (s.write a bs).mem = memWrite s.mem a bs := rfl

end Sys2Proof.Machine
end

