-- ==== Sys2Proof/Laws/Memory.lean ====
section
/-! SUPPORT. Sparse maps and memory: a read after a write, and the canonical form that every write keeps; the accessors of the state's parts. -/

namespace Sys2Proof.SMap

variable {α : Type}

theorem get_insert (d : α) (m : SMap α) (k : Nat) (v : α) (j : Nat) : get d (insert m k v) j = if k = j then v else get d m j := by
  induction m with
  | nil => rfl
  | cons p m ih =>
    obtain ⟨a, b⟩ := p
    simp only [insert]
    split
    · rfl
    · split
      · rename_i h; subst h; simp only [get]; split <;> rfl
      · rename_i h1 h2
        simp only [get, ih]
        split
        · rename_i h3; subst h3; rw [if_neg h2]
        · rfl

theorem get_erase (d : α) (m : SMap α) (k : Nat) (j : Nat) : get d (erase m k) j = if k = j then d else get d m j := by
  induction m with
  | nil => simp only [erase, List.filter_nil, get, ite_self]
  | cons p m ih =>
    obtain ⟨a, b⟩ := p
    simp only [erase] at ih ⊢
    by_cases ha : a = k
    · subst ha
      simp only [List.filter_cons, ne_eq, not_true_eq_false, decide_false, Bool.false_eq_true, if_false, ih, get]
      split <;> rfl
    · simp only [List.filter_cons, ne_eq, ha, not_false_eq_true, decide_true, if_true, get, ih]
      split
      · rename_i h; subst h; rw [if_neg (Ne.symm ha)]
      · rfl

/-- A read after a write: the value written at its key, what was there before at every other. -/
theorem get_put [DecidableEq α] (d : α) (m : SMap α) (k : Nat) (v : α) (j : Nat) : get d (put d m k v) j = if k = j then v else get d m j := by
  unfold put
  split
  · rename_i h; rw [get_erase, h]
  · exact get_insert d m k v j

@[simp] theorem get_put_same [DecidableEq α] (d : α) (m : SMap α) (k : Nat) (v : α) : get d (put d m k v) k = v := by
  rw [get_put, if_pos rfl]

theorem get_put_ne [DecidableEq α] (d : α) (m : SMap α) (k j : Nat) (v : α) (h : k ≠ j) : get d (put d m k v) j = get d m j := by
  rw [get_put, if_neg h]

theorem mem_insert (m : SMap α) (k : Nat) (v : α) (p : Nat × α) : p ∈ insert m k v → p = (k, v) ∨ p ∈ m := by
  induction m with
  | nil => simp [insert]
  | cons q m ih =>
    simp only [insert]
    split
    · simp
    · split
      · intro h; rcases List.mem_cons.mp h with h | h
        · exact .inl h
        · exact .inr (List.mem_cons_of_mem _ h)
      · intro h; rcases List.mem_cons.mp h with h | h
        · exact .inr (h ▸ List.mem_cons_self ..)
        · exact (ih h).imp id (List.mem_cons_of_mem _)

theorem pairwise_insert (m : SMap α) (k : Nat) (v : α) (h : m.Pairwise (fun a b => a.1 < b.1)) :
    (insert m k v).Pairwise (fun a b => a.1 < b.1) := by
  induction m with
  | nil => simp [insert]
  | cons q m ih =>
    obtain ⟨h1, h2⟩ := List.pairwise_cons.mp h
    simp only [insert]
    split
    · rename_i hk
      refine List.pairwise_cons.mpr ⟨fun p hp => ?_, h⟩
      rcases List.mem_cons.mp hp with hp | hp
      · subst hp; exact hk
      · exact Nat.lt_trans hk (h1 p hp)
    · split
      · rename_i hk; subst hk; exact List.pairwise_cons.mpr ⟨h1, h2⟩
      · rename_i hk1 hk2
        refine List.pairwise_cons.mpr ⟨fun p hp => ?_, ih h2⟩
        rcases mem_insert m k v p hp with hp | hp
        · subst hp; show q.1 < k; omega
        · exact h1 p hp

/-- A write keeps the canonical form. -/
theorem wf_put [DecidableEq α] (d : α) (m : SMap α) (k : Nat) (v : α) (h : wf d m = true) : wf d (put d m k v) = true := by
  simp only [wf, Bool.and_eq_true, decide_eq_true_eq, List.all_eq_true, ne_eq, decide_not, Bool.not_eq_true', decide_eq_false_iff_not] at h ⊢
  obtain ⟨h1, h2⟩ := h
  unfold put
  split
  · exact ⟨h1.filter _, fun p hp => h2 p (List.mem_filter.mp hp).1⟩
  · rename_i hv
    refine ⟨pairwise_insert m k v h1, fun p hp => ?_⟩
    rcases mem_insert m k v p hp with hp | hp
    · subst hp; exact hv
    · exact h2 p hp

end Sys2Proof.SMap

namespace Sys2Proof.Machine

/-! ## Memory -/

theorem memByte_put (m : List Host.Cell) (a b : Nat) (v : Byte) : memByte (memPut m a v) b = if a = b then v else memByte m b :=
  SMap.get_put 0 m a v b

theorem memWf_put (m : List Host.Cell) (a : Nat) (v : Byte) (h : memWf m = true) : memWf (memPut m a v) = true := SMap.wf_put 0 m a v h

/-- A write of several bytes keeps the canonical form. -/
theorem memWf_write (m : List Host.Cell) (a : Nat) (bs : List Byte) (h : memWf m = true) : memWf (memWrite m a bs) = true := by
  induction bs generalizing m a with
  | nil => exact h
  | cons b bs ih => exact ih _ _ (memWf_put m a b h)

/-- A write leaves every byte outside it. -/
theorem memByte_write_out (m : List Host.Cell) (a : Nat) (bs : List Byte) (b : Nat) (h : b < a ∨ a + bs.length ≤ b) :
    memByte (memWrite m a bs) b = memByte m b := by
  induction bs generalizing m a with
  | nil => rfl
  | cons v bs ih =>
    simp only [List.length_cons] at h
    rw [memWrite, ih _ _ (by omega), memByte_put, if_neg (by omega)]

/-- A byte within a write is the byte written. -/
theorem memByte_write_in (m : List Host.Cell) (a : Nat) (bs : List Byte) (i : Nat) (h : i < bs.length) :
    memByte (memWrite m a bs) (a + i) = bs[i] := by
  induction bs generalizing m a i with
  | nil => exact absurd h (Nat.not_lt_zero _)
  | cons v bs ih =>
    cases i with
    | zero => rw [memWrite, memByte_write_out _ _ _ _ (by omega)]; simp [memByte_put]
    | succ i =>
      have := ih (memPut m a v) (a + 1) i (by simpa using h)
      rw [memWrite, show a + (i + 1) = a + 1 + i by omega, this]; rfl

theorem State.write_out (s : State) (a : Nat) (bs : List Byte) (b : Nat) (h : b < a ∨ a + bs.length ≤ b) :
    memByte (s.write a bs).mem b = memByte s.mem b := memByte_write_out s.mem a bs b h

theorem State.write_wf (s : State) (a : Nat) (bs : List Byte) (h : memWf s.mem = true) : memWf (s.write a bs).mem = true :=
  memWf_write s.mem a bs h

/-- Several runs keep the form. -/
theorem State.writeAll_wf (s : State) (runs : List (Nat × List Byte)) (h : memWf s.mem = true) : memWf (s.writeAll runs).mem = true := by
  unfold State.writeAll
  induction runs generalizing s with
  | nil => exact h
  | cons r rs ih => exact ih _ (s.write_wf r.1 r.2 h)

/-- Several runs leave every byte outside all of them. -/
theorem State.writeAll_out (s : State) (runs : List (Nat × List Byte)) (b : Nat) (h : ∀ r ∈ runs, b < r.1 ∨ r.1 + r.2.length ≤ b) :
    memByte (s.writeAll runs).mem b = memByte s.mem b := by
  unfold State.writeAll
  induction runs generalizing s with
  | nil => rfl
  | cons r rs ih =>
    rw [List.foldl_cons, ih _ (fun x hx => h x (List.mem_cons_of_mem _ hx)), s.write_out r.1 r.2 b (h r (List.mem_cons_self ..))]

/-! ## The parts of the state -/

@[simp] theorem State.fn_setFn (s : State) (f : FnId) (x : Fn) : (s.setFn f x).fn f = x := by simp [State.fn, State.setFn]

theorem State.fn_setFn_ne (s : State) (f g : FnId) (x : Fn) (h : f ≠ g) : (s.setFn f x).fn g = s.fn g := by
  have h' : f.val ≠ g.val := fun e => h (Fin.ext e)
  simp only [State.fn, State.setFn, Fin.getElem_fin]
  exact Vector.getElem_set_ne _ _ h'

@[simp] theorem State.cell_setCell (s : State) (c : CoreId) (x : Cell) : (s.setCell c x).cell c = x := by simp [State.cell, State.setCell]

theorem State.cell_setCell_ne (s : State) (c k : CoreId) (x : Cell) (h : c ≠ k) : (s.setCell c x).cell k = s.cell k := by
  have h' : c.val ≠ k.val := fun e => h (Fin.ext e)
  simp only [State.cell, State.setCell, Fin.getElem_fin]
  exact Vector.getElem_set_ne _ _ h'

@[simp] theorem State.queue_setQueue (s : State) (i : Nat) (x : Queue) : (s.setQueue i x).queue i = x := SMap.get_put_same ..
theorem State.queue_setQueue_ne (s : State) (i j : Nat) (x : Queue) (h : i ≠ j) : (s.setQueue i x).queue j = s.queue j := SMap.get_put_ne _ _ _ _ _ h
@[simp] theorem State.me_setMe (s : State) (i : Nat) (x : Me) : (s.setMe i x).me i = x := SMap.get_put_same ..
theorem State.me_setMe_ne (s : State) (i j : Nat) (x : Me) (h : i ≠ j) : (s.setMe i x).me j = s.me j := SMap.get_put_ne _ _ _ _ _ h
@[simp] theorem State.te_setTe (s : State) (i : Nat) (x : Te) : (s.setTe i x).te i = x := SMap.get_put_same ..
theorem State.te_setTe_ne (s : State) (i j : Nat) (x : Te) (h : i ≠ j) : (s.setTe i x).te j = s.te j := SMap.get_put_ne _ _ _ _ _ h
@[simp] theorem State.die_setDie (s : State) (i : Nat) (x : Die) : (s.setDie i x).die i = x := SMap.get_put_same ..
theorem State.die_setDie_ne (s : State) (i j : Nat) (x : Die) (h : i ≠ j) : (s.setDie i x).die j = s.die j := SMap.get_put_ne _ _ _ _ _ h
@[simp] theorem State.stack_setStack (s : State) (i : Nat) (x : Stack) : (s.setStack i x).stack i = x := SMap.get_put_same ..
theorem State.stack_setStack_ne (s : State) (i j : Nat) (x : Stack) (h : i ≠ j) : (s.setStack i x).stack j = s.stack j := SMap.get_put_ne _ _ _ _ _ h
@[simp] theorem State.part_setPart (s : State) (i : Nat) (x : Part) : (s.setPart i x).part i = x := SMap.get_put_same ..
theorem State.part_setPart_ne (s : State) (i j : Nat) (x : Part) (h : i ≠ j) : (s.setPart i x).part j = s.part j := SMap.get_put_ne _ _ _ _ _ h
@[simp] theorem State.port_setPort (s : State) (i : Nat) (x : Port) : (s.setPort i x).port i = x := SMap.get_put_same ..
theorem State.port_setPort_ne (s : State) (i j : Nat) (x : Port) (h : i ≠ j) : (s.setPort i x).port j = s.port j := SMap.get_put_ne _ _ _ _ _ h
@[simp] theorem State.frame_setFrame (s : State) (i : Nat) (x : FrameState) : (s.setFrame i x).frame i = x := SMap.get_put_same ..
theorem State.frame_setFrame_ne (s : State) (i j : Nat) (x : FrameState) (h : i ≠ j) : (s.setFrame i x).frame j = s.frame j := SMap.get_put_ne _ _ _ _ _ h
@[simp] theorem State.job_setJob (s : State) (i : Nat) (x : MasterJob) : (s.setJob i x).job i = x := SMap.get_put_same ..
theorem State.job_setJob_ne (s : State) (i j : Nat) (x : MasterJob) (h : i ≠ j) : (s.setJob i x).job j = s.job j := SMap.get_put_ne _ _ _ _ _ h
@[simp] theorem State.link_setLink (s : State) (i : Nat) (x : LinkSlot) : (s.setLink i x).link i = x := SMap.get_put_same ..
theorem State.link_setLink_ne (s : State) (i j : Nat) (x : LinkSlot) (h : i ≠ j) : (s.setLink i x).link j = s.link j := SMap.get_put_ne _ _ _ _ _ h
@[simp] theorem State.ctx_setCtx (s : State) (i : Nat) (x : BitVec 1024) : (s.setCtx i x).ctx i = x := SMap.get_put_same ..
theorem State.ctx_setCtx_ne (s : State) (i j : Nat) (x : BitVec 1024) (h : i ≠ j) : (s.setCtx i x).ctx j = s.ctx j := SMap.get_put_ne _ _ _ _ _ h

@[simp] theorem State.reg_setReg (s : State) (win off v : Nat) : (s.setReg win off v).reg win off = v % 2 ^ 32 := by
  simp [State.reg, State.setReg]

theorem State.reg_setReg_ne (s : State) (win off v win' off' : Nat) (h : regKey win off ≠ regKey win' off') :
    (s.setReg win off v).reg win' off' = s.reg win' off' := by
  simp only [State.reg, State.setReg, SMap.get_put_ne _ _ _ _ _ h]

end Sys2Proof.Machine
end

