-- ==== Sys2Proof/Laws/Notices.lean ====
section
/-! SUPPORT. What counting, page events, page errors, the trouble log and the writing of records may touch, said once: memory (their
messages and lines), the registers, the log, the queues and the model's free-value index, and nothing else; memory keeps its form. -/

namespace Sys2Proof.Laws

open Sys2Proof.Machine

/-- The first state with what notices touch taken from the second. -/
def mix (s t : State) : State :=
  { s with mem := t.mem, poison := t.poison, regs := t.regs, fresh := t.fresh, log := t.log, logNext := t.logNext, queues := t.queues }

/-- The second state differs from the first only in what notices touch, and keeps memory in its form. -/
structure Notices (s t : State) : Prop where
  rest : t = mix s t
  form : memWf s.mem = true → memWf t.mem = true

namespace Notices

theorem refl (s : State) : Notices s s := ⟨rfl, id⟩

theorem mix_mix (s t u : State) : mix (mix s t) u = mix s u := rfl

theorem trans {s t u : State} (h1 : Notices s t) (h2 : Notices t u) : Notices s u :=
  have e : mix t u = mix (mix s t) u := congrArg (fun x => mix x u) h1.rest
  ⟨(h2.rest.trans e).trans (mix_mix s t u), fun h => h2.form (h1.form h)⟩

theorem foldl {α : Type} (f : State → α → State) (xs : List α) (s : State) (h : ∀ s x, Notices s (f s x)) : Notices s (xs.foldl f s) := by
  induction xs generalizing s with
  | nil => exact refl s
  | cons x xs ih => exact (h s x).trans (ih _)

/-! ## What does not change -/

theorem fns {s t : State} (h : Notices s t) : t.fns = s.fns := by rw [h.rest]; rfl
theorem ops {s t : State} (h : Notices s t) : t.ops = s.ops := by rw [h.rest]; rfl
theorem nextOp {s t : State} (h : Notices s t) : t.nextOp = s.nextOp := by rw [h.rest]; rfl
theorem pending {s t : State} (h : Notices s t) : t.pending = s.pending := by rw [h.rest]; rfl
theorem dir {s t : State} (h : Notices s t) : t.dir = s.dir := by rw [h.rest]; rfl
theorem ctxs {s t : State} (h : Notices s t) : t.ctxs = s.ctxs := by rw [h.rest]; rfl
theorem frames {s t : State} (h : Notices s t) : t.frames = s.frames := by rw [h.rest]; rfl
theorem cells {s t : State} (h : Notices s t) : t.cells = s.cells := by rw [h.rest]; rfl
theorem mes {s t : State} (h : Notices s t) : t.mes = s.mes := by rw [h.rest]; rfl
theorem beat {s t : State} (h : Notices s t) : t.beat = s.beat := by rw [h.rest]; rfl
theorem boot {s t : State} (h : Notices s t) : t.boot = s.boot := by rw [h.rest]; rfl
theorem ports {s t : State} (h : Notices s t) : t.ports = s.ports := by rw [h.rest]; rfl
theorem parts {s t : State} (h : Notices s t) : t.parts = s.parts := by rw [h.rest]; rfl
theorem jobs {s t : State} (h : Notices s t) : t.jobs = s.jobs := by rw [h.rest]; rfl

/-! ## The operations -/

theorem write (s : State) (a : Nat) (bs : List Byte) : Notices s (s.write a bs) := ⟨rfl, s.write_wf a bs⟩
theorem setReg (s : State) (win off v : Nat) : Notices s (s.setReg win off v) := ⟨rfl, id⟩
theorem setQueue (s : State) (q : Nat) (x : Queue) : Notices s (s.setQueue q x) := ⟨rfl, id⟩
theorem draw (s : State) : Notices s s.draw.2 := ⟨rfl, id⟩
theorem addReg (s : State) (win off n : Nat) : Notices s (s.addReg win off n) := setReg ..
theorem count (s : State) (off n : Nat) : Notices s (s.count off n) := addReg ..
theorem wait (s : State) (off : Nat) : Notices s (s.wait off) := (draw s).trans (count ..)

theorem message (s : State) (addr : Nat) (data : Word) : Notices s (s.message addr data) := by
  unfold State.message; split
  · exact refl s
  · exact write ..

theorem eventTo (s : State) (win page bit : Nat) : Notices s (s.eventTo win page bit) := by
  unfold State.eventTo; split
  · split <;> exact message ..
  · exact refl s

/-- A page event sets its bit and may send messages. -/
theorem raise (s : State) (page bit : Nat) : Notices s (s.raise page bit) := by
  unfold State.raise; simp only; split
  · exact refl s
  · split
    · exact ((setReg ..).trans (eventTo ..)).trans (eventTo ..)
    · exact (setReg ..).trans (eventTo ..)

theorem raiseLog (s : State) (win bit : Nat) : Notices s (s.raiseLog win bit) := by
  unfold State.raiseLog; simp only; split
  · exact refl s
  · exact (setReg ..).trans (eventTo ..)

theorem raiseFn (s : State) (f : FnId) (bit : Nat) : Notices s (s.raiseFn f bit) := raise ..

theorem errorIn (s : State) (win page code fn : Nat) (mgmt : Bool) : Notices s (s.errorIn win page code fn mgmt) := by
  unfold State.errorIn; extract_lets t
  have h : Notices s t := addReg ..
  clear_value t; split
  · exact h
  · exact ((h.trans (setReg ..)).trans (setReg ..)).trans (setReg ..)

/-- A page error is recorded in one view or two. -/
theorem pageError (s : State) (page code : Nat) (fn : Option FnId) (mgmt : Bool) : Notices s (s.pageError page code fn mgmt) := by
  unfold State.pageError
  extract_lets t
  have h : Notices s t := errorIn s 0 page code _ mgmt
  clear_value t; split
  · split
    · exact h
    · exact h.trans (errorIn t _ _ _ _ _)
  · exact h

theorem setLog (s : State) (l : List LogEntry) : Notices s { s with log := l } := ⟨rfl, id⟩

theorem setLogNext (s : State) (l : List LogEntry) (n : SMap Nat) : Notices s { s with log := l, logNext := n } := ⟨rfl, id⟩

/-- An event of the trouble log is coalesced, placed or lost. -/
theorem logEvent (s : State) (code : Nat) (fn : Option FnId) (inst : Nat) (core : Option CoreId) (d0 d1 : Nat) :
    Notices s (s.logEvent code fn inst core d0 d1) := by
  unfold State.logEvent; split
  · exact refl s
  · extract_lets cls fnField urgent t general views last
    have h : Notices s t := by
      subst t; split
      · split
        · exact pageError s _ _ _ _
        · exact refl s
      · exact refl s
    have hl : Notices t last := (addReg t _ _ _).trans (raiseLog _ _ _)
    clear_value last general views t fnField; split
    · exact h.trans (setLog t _)
    · split
      · have hd : Notices t t.draw.2 := draw t
        generalize t.draw = d at hd
        split
        extract_lets bits e next v w
        have hv : Notices t v := hd.trans (setLogNext _ _ _)
        have hw : Notices v w := by
          subst w; split
          · exact (raiseLog v _ _).trans (foldl _ _ _ (fun s x => raiseLog s _ _))
          · exact refl v
        clear_value w v; split
        · exact ((h.trans hv).trans hw).trans (raiseLog w _ _)
        · exact (h.trans hv).trans hw
      · split
        · exact ((h.trans hl).trans (addReg last _ _ _)).trans (raiseLog _ _ _)
        · exact h.trans hl

theorem logPkg (s : State) (code inst d0 d1 : Nat) : Notices s (s.logPkg code inst d0 d1) := logEvent ..
theorem logFn (s : State) (code : Nat) (f : FnId) (inst d0 d1 : Nat) : Notices s (s.logFn code f inst d0 d1) := logEvent ..

theorem interrupt (s : State) (n : QueueId) : Notices s (s.interrupt n) := (setQueue ..).trans (message ..)

theorem countIrq (s : State) (n : QueueId) : Notices s (s.countIrq n) := by
  unfold State.countIrq; simp only; split
  · exact interrupt ..
  · exact setQueue ..

theorem putRecord (s : State) (n : QueueId) (r : Record) : Notices s (s.putRecord n r) := (write ..).trans (setQueue ..)

theorem blame (s : State) (q : Queue) : Notices s (s.blame q) := (draw s).trans (pageError ..)

/-- A record is written, or kept while the ring is full. -/
theorem postRecord (s : State) (n : QueueId) (r : Record) (irq : Bool) : Notices s (s.postRecord n r irq) := by
  unfold State.postRecord; simp only; split
  · exact ((setQueue ..).trans (wait ..)).trans (blame ..)
  · split
    · exact (putRecord ..).trans (countIrq ..)
    · exact putRecord ..

end Notices

/-! ## Outstanding operations -/

/-- Changing one operation keeps the numbers of all, where the change keeps its own. -/
theorem modOp_nums (s : State) (r : OpRef) (g : Op → Op) (h : ∀ o, (g o).num = o.num) : (s.modOp r g).ops.map (·.num) = s.ops.map (·.num) := by
  simp only [State.modOp, List.map_map]
  refine List.map_congr_left (fun o _ => ?_)
  simp only [Function.comp]
  split
  · exact h o
  · rfl

/-- Completion keeps memory in its form. -/
theorem complete_wf (s : State) (o : Op) (status cause count detail : Nat) (h : memWf s.mem = true) :
    memWf (s.complete o status cause count detail).mem = true :=
  (Notices.postRecord _ _ _ _).form ((Notices.draw _).form h)

/-- Completion gives no number anew. -/
theorem complete_nextOp (s : State) (o : Op) (status cause count detail : Nat) : (s.complete o status cause count detail).nextOp = s.nextOp :=
  (Notices.postRecord _ _ _ _).nextOp

end Sys2Proof.Laws
end

