-- ==== Sys2Proof/WellFormed.lean ====
section
/-! DEFINITION. Which commands are well-formed: the descriptor spells the command, and what the physical part supplies has
the shape the manual gives it. An ill-formed command is no command of the manual; exec is total on it all the same. -/

namespace Sys2Proof

open Sys2Proof.Machine

/-- A fabric frame: the payload is 0 to 96 units of 16 bytes (Table 11-2). -/
def Frame.WellFormed (f : Frame) : Bool := decide (f.payload.length ≤ 1536) && decide (f.payload.length % 16 = 0)

/-- What start-up meets: 24 stacks, rates the manual has, and 24 active tests (Table 19-4). -/
def BootEnv.WellFormed (e : BootEnv) : Bool :=
  decide (e.hbmRates.length = 24) && decide (e.hbmSpared.length = 24) && e.hbmSpared.all (fun n => decide (n < 128))
    && decide (e.vReq.length = 24)

/-- The descriptor of a queue's command has the CLASS, OP and selection of the command (Table 17-3). -/
def Instr.spelled (i : Instr) : Bool :=
  match carried i with
  | none => true
  | some (_, d, cls, op, sel) => decide (hdClass d = cls) && decide (hdOp d = op) && sel

/-- The operands the physical part supplies. -/
def Instr.operandsOk : Instr → Bool
  | .moveOperation _ _ bad => bad.all (fun b => decide (1 ≤ b.2) && decide (b.2 ≤ 3))
  | .data _ f => f.WellFormed
  | .redWindow _ f => f.WellFormed
  | .redPartial _ f _ => f.WellFormed
  | .redResult _ f => f.WellFormed
  | .redResend _ f => f.WellFormed
  | .droppedFrame _ f _ => f.WellFormed
  | .go e => e.WellFormed
  | .registerWrite _ _ bytes _ => decide (bytes ∈ [1, 2, 4, 8])
  | .pageReplacement p => decide (p < 2 ^ 28)
  | .pageLeavesOwner p => decide (p < 2 ^ 28)
  | .pageScrub p _ => decide (p < 2 ^ 28)
  | .keySweepPage p => decide (p < 2 ^ 28)
  | .sync _ _ a => decide (a < 2 ^ 64)
  | .calibrationRecordWrite _ _ payload _ => decide (payload.length < 2 ^ 16)
  | _ => true

/-- A well-formed command. -/
def Instr.WellFormed (i : Instr) : Bool := i.spelled && i.operandsOk

end Sys2Proof
end

