-- ==== Sys2Proof/Laws/PerInstr.lean ====
section
/-! SUPPORT. The family Spelling: a well-formed command of a queue carries a descriptor whose CLASS, OP and selection are the command's
(Table 17-3), one lemma for each command. -/

namespace Sys2Proof.Laws.Spelling

open Sys2Proof Sys2Proof.Machine

/-- What a well-formed command's descriptor spells; a command without a descriptor spells nothing. -/
def Statement (i : Instr) : Prop :=
  i.WellFormed = true → ∀ q d cls op sel, carried i = some (q, d, cls, op, sel) → hdClass d = cls ∧ hdOp d = op ∧ sel = true

theorem of (i : Instr) : Statement i := by
  intro h q d cls op sel hc
  simp only [Instr.WellFormed, Instr.spelled, hc, Bool.and_eq_true, decide_eq_true_eq] at h
  exact ⟨h.1.1.1, h.1.1.2, h.1.2⟩

theorem convert (q : QueueId) (d : Desc) (parity : Bool) : Statement (.convert q d parity) := of _
theorem add (q : QueueId) (d : Desc) (parity : Bool) : Statement (.add q d parity) := of _
theorem sub (q : QueueId) (d : Desc) (parity : Bool) : Statement (.sub q d parity) := of _
theorem mul (q : QueueId) (d : Desc) (parity : Bool) : Statement (.mul q d parity) := of _
theorem vectorMax (q : QueueId) (d : Desc) (parity : Bool) : Statement (.vectorMax q d parity) := of _
theorem vectorMin (q : QueueId) (d : Desc) (parity : Bool) : Statement (.vectorMin q d parity) := of _
theorem axpy (q : QueueId) (d : Desc) (parity : Bool) : Statement (.axpy q d parity) := of _
theorem exp (q : QueueId) (d : Desc) (parity : Bool) : Statement (.exp q d parity) := of _
theorem recip (q : QueueId) (d : Desc) (parity : Bool) : Statement (.recip q d parity) := of _
theorem rsqrt (q : QueueId) (d : Desc) (parity : Bool) : Statement (.rsqrt q d parity) := of _
theorem act (q : QueueId) (d : Desc) (parity : Bool) : Statement (.act q d parity) := of _
theorem rowOp (q : QueueId) (d : Desc) (parity : Bool) : Statement (.rowOp q d parity) := of _
theorem rowReduce (q : QueueId) (d : Desc) (parity : Bool) : Statement (.rowReduce q d parity) := of _
theorem rowNorm (q : QueueId) (d : Desc) (parity : Bool) : Statement (.rowNorm q d parity) := of _
theorem normStats (q : QueueId) (d : Desc) (parity : Bool) : Statement (.normStats q d parity) := of _
theorem adam (q : QueueId) (d : Desc) (parity : Bool) : Statement (.adam q d parity) := of _
theorem routeTopk (q : QueueId) (d : Desc) (parity : Bool) : Statement (.routeTopk q d parity) := of _
theorem matrixOperation (q : QueueId) (d : Desc) : Statement (.matrixOperation q d) := of _
theorem vectorEntry (core : CoreId) (me : Fin 2) (cycle dataCycle : Nat) (err : RunErr) : Statement (.vectorEntry core me cycle dataCycle err) := of _
theorem stationaryRowWrite (core : CoreId) (me : Fin 2) (bank : Fin 2) (row : Fin 512) (cycle : Nat) (parity : Bool) : Statement (.stationaryRowWrite core me bank row cycle parity) := of _
theorem close (core : CoreId) (me : Fin 2) (slot : Fin 32) (second : Bool) : Statement (.close core me slot second) := of _
theorem operationRetire (q : QueueId) (opId : BitVec 16) : Statement (.operationRetire q opId) := of _
theorem trussSum (q : QueueId) (d : Desc) : Statement (.trussSum q d) := of _
theorem trussMax (q : QueueId) (d : Desc) : Statement (.trussMax q d) := of _
theorem trussMin (q : QueueId) (d : Desc) : Statement (.trussMin q d) := of _
theorem maxIdx (q : QueueId) (d : Desc) : Statement (.maxIdx q d) := of _
theorem minIdx (q : QueueId) (d : Desc) : Statement (.minIdx q d) := of _
theorem trussLeafRead (q : QueueId) (opId : BitVec 16) (leaf : Fin 40) (err : RunErr) : Statement (.trussLeafRead q opId leaf err) := of _
theorem down (q : QueueId) (d : Desc) (err : RunErr) : Statement (.down q d err) := of _
theorem up (q : QueueId) (d : Desc) (err : RunErr) : Statement (.up q d err) := of _
theorem downT (q : QueueId) (d : Desc) (err : RunErr) : Statement (.downT q d err) := of _
theorem upT (q : QueueId) (d : Desc) (err : RunErr) : Statement (.upT q d err) := of _
theorem wgradA (q : QueueId) (d : Desc) (err : RunErr) : Statement (.wgradA q d err) := of _
theorem wgradB (q : QueueId) (d : Desc) (err : RunErr) : Statement (.wgradB q d err) := of _
theorem joinTimeout (q : QueueId) (opId : BitVec 16) : Statement (.joinTimeout q opId) := of _
theorem moveOperation (q : QueueId) (d : Desc) (bad : List (Nat × Nat)) : Statement (.moveOperation q d bad) := of _
theorem rowRepair (addr : BitVec 44) (failed : List (Fin 16)) : Statement (.rowRepair addr failed) := of _
theorem pageReplacement (page : Nat) : Statement (.pageReplacement page) := of _
theorem reduce (q : QueueId) (d : Desc) : Statement (.reduce q d) := of _
theorem shardGather (q : QueueId) (d : Desc) : Statement (.shardGather q d) := of _
theorem stageSend (q : QueueId) (d : Desc) : Statement (.stageSend q d) := of _
theorem scarf (q : QueueId) (d : Desc) : Statement (.scarf q d) := of _
theorem scarfRound (f : FnId) : Statement (.scarfRound f) := of _
theorem beatWait (q : QueueId) (d : Desc) : Statement (.beatWait q d) := of _
theorem loadPlan (q : QueueId) (d : Desc) : Statement (.loadPlan q d) := of _
theorem loadClass (q : QueueId) (d : Desc) : Statement (.loadClass q d) := of _
theorem setSeed (q : QueueId) (d : Desc) : Statement (.setSeed q d) := of _
theorem setMode (q : QueueId) (d : Desc) : Statement (.setMode q d) := of _
theorem setWatch (q : QueueId) (d : Desc) : Statement (.setWatch q d) := of _
theorem writeWatch (q : QueueId) (d : Desc) : Statement (.writeWatch q d) := of _
theorem readWatch (q : QueueId) (d : Desc) : Statement (.readWatch q d) := of _
theorem rollHistory (q : QueueId) (d : Desc) : Statement (.rollHistory q d) := of _
theorem loadHistory (q : QueueId) (d : Desc) : Statement (.loadHistory q d) := of _
theorem configurePartition (q : QueueId) (d : Desc) : Statement (.configurePartition q d) := of _
theorem setWindow (q : QueueId) (d : Desc) : Statement (.setWindow q d) := of _
theorem retireSlot (q : QueueId) (d : Desc) : Statement (.retireSlot q d) := of _
theorem slotDrained (f : FnId) (slot : Fin 8) : Statement (.slotDrained f slot) := of _
theorem claim (q : QueueId) (d : Desc) : Statement (.claim q d) := of _
theorem share (q : QueueId) (d : Desc) : Statement (.share q d) := of _
theorem unshare (q : QueueId) (d : Desc) : Statement (.unshare q d) := of _
theorem release (q : QueueId) (d : Desc) : Statement (.release q d) := of _
theorem readDirectory (q : QueueId) (d : Desc) : Statement (.readDirectory q d) := of _
theorem pageLeavesOwner (page : Nat) : Statement (.pageLeavesOwner page) := of _
theorem pageScrub (page : Nat) (clean : Bool) : Statement (.pageScrub page clean) := of _
theorem directoryChangeApply (die : DieId) : Statement (.directoryChangeApply die) := of _
theorem defineFrame (q : QueueId) (d : Desc) : Statement (.defineFrame q d) := of _
theorem frameDigest (frame : BitVec 8) : Statement (.frameDigest frame) := of _
theorem configureContext (q : QueueId) (d : Desc) : Statement (.configureContext q d) := of _
theorem activate (q : QueueId) (d : Desc) : Statement (.activate q d) := of _
theorem beginTraining (q : QueueId) (d : Desc) : Statement (.beginTraining q d) := of _
theorem endTraining (q : QueueId) (d : Desc) : Statement (.endTraining q d) := of _
theorem relocate (q : QueueId) (d : Desc) : Statement (.relocate q d) := of _
theorem promote (q : QueueId) (d : Desc) : Statement (.promote q d) := of _
theorem probeCheck (q : QueueId) (d : Desc) : Statement (.probeCheck q d) := of _
theorem releaseContext (q : QueueId) (d : Desc) : Statement (.releaseContext q d) := of _
theorem contextScrub (ctx : BitVec 16) (clean : Bool) : Statement (.contextScrub ctx clean) := of _
theorem readContext (q : QueueId) (d : Desc) : Statement (.readContext q d) := of _
theorem replaceFrame (q : QueueId) (d : Desc) : Statement (.replaceFrame q d) := of _
theorem layerSwap (frame : BitVec 8) : Statement (.layerSwap frame) := of _
theorem drainLimitExpiry (f : FnId) : Statement (.drainLimitExpiry f) := of _
theorem passBegin (q : QueueId) (d : Desc) : Statement (.passBegin q d) := of _
theorem passEnd (q : QueueId) (d : Desc) : Statement (.passEnd q d) := of _
theorem setSwapPolicy (q : QueueId) (d : Desc) : Statement (.setSwapPolicy q d) := of _
theorem measureFrame (q : QueueId) (d : Desc) : Statement (.measureFrame q d) := of _
theorem setJobMap (q : QueueId) (d : Desc) : Statement (.setJobMap q d) := of _
theorem jobReg (src : BitVec 16) (msg : BitVec 128) : Statement (.jobReg src msg) := of _
theorem setStageQueue (q : QueueId) (d : Desc) : Statement (.setStageQueue q d) := of _
theorem stageFree (q : QueueId) (d : Desc) : Statement (.stageFree q d) := of _
theorem saveCheckpoint (q : QueueId) (d : Desc) : Statement (.saveCheckpoint q d) := of _
theorem restoreCheckpoint (q : QueueId) (d : Desc) : Statement (.restoreCheckpoint q d) := of _
theorem setEpochPair (q : QueueId) (d : Desc) : Statement (.setEpochPair q d) := of _
theorem reportReady (q : QueueId) (d : Desc) : Statement (.reportReady q d) := of _
theorem createFunction (q : QueueId) (d : Desc) : Statement (.createFunction q d) := of _
theorem resize (q : QueueId) (d : Desc) : Statement (.resize q d) := of _
theorem resizeEffect (f : FnId) : Statement (.resizeEffect f) := of _
theorem resizeLapsed (f : FnId) : Statement (.resizeLapsed f) := of _
theorem freeze (q : QueueId) (d : Desc) : Statement (.freeze q d) := of _
theorem thaw (q : QueueId) (d : Desc) : Statement (.thaw q d) := of _
theorem restore (q : QueueId) (d : Desc) : Statement (.restore q d) := of _
theorem disable (q : QueueId) (d : Desc) : Statement (.disable q d) := of _
theorem drainBeatsExpiry (f : FnId) : Statement (.drainBeatsExpiry f) := of _
theorem functionScrubbing (f : FnId) : Statement (.functionScrubbing f) := of _
theorem functionOff (f : FnId) : Statement (.functionOff f) := of _
theorem readCounters (q : QueueId) (d : Desc) : Statement (.readCounters q d) := of _
theorem bindFrame (q : QueueId) (d : Desc) : Statement (.bindFrame q d) := of _
theorem unbind (q : QueueId) (d : Desc) : Statement (.unbind q d) := of _
theorem setMortiseRange (q : QueueId) (d : Desc) : Statement (.setMortiseRange q d) := of _
theorem setAperture (q : QueueId) (d : Desc) : Statement (.setAperture q d) := of _
theorem extension (q : QueueId) (d : Desc) : Statement (.extension q d) := of _
theorem setQueue (q : QueueId) (d : Desc) : Statement (.setQueue q d) := of _
theorem setCoalesce (q : QueueId) (d : Desc) : Statement (.setCoalesce q d) := of _
theorem setEventVector (q : QueueId) (d : Desc) : Statement (.setEventVector q d) := of _
theorem report (q : QueueId) (d : Desc) : Statement (.report q d) := of _
theorem channelOpen (q : QueueId) (d : Desc) : Statement (.channelOpen q d) := of _
theorem channelMessage (q : QueueId) (d : Desc) : Statement (.channelMessage q d) := of _
theorem memKey (f : FnId) (key : BitVec 512) : Statement (.memKey f key) := of _
theorem imageKey (f : FnId) (key : BitVec 256) : Statement (.imageKey f key) := of _
theorem linkKey (f : FnId) (job : Word) (activation : BitVec 64) (key : BitVec 256) : Statement (.linkKey f job activation key) := of _
theorem linkDrop (f : FnId) (job : Word) (slot : Fin 4) : Statement (.linkDrop f job slot) := of _
theorem confidential (f : FnId) : Statement (.confidential f) := of _
theorem closeSession (f : FnId) : Statement (.closeSession f) := of _
theorem sessionExpiry (f : FnId) : Statement (.sessionExpiry f) := of _
theorem getCertificates (q : QueueId) (d : Desc) : Statement (.getCertificates q d) := of _
theorem measureRegion (q : QueueId) (d : Desc) : Statement (.measureRegion q d) := of _
theorem unmeasure (q : QueueId) (d : Desc) : Statement (.unmeasure q d) := of _
theorem rotateKey (q : QueueId) (d : Desc) : Statement (.rotateKey q d) := of _
theorem keySweepPage (page : Nat) : Statement (.keySweepPage page) := of _
theorem setCap (q : QueueId) (d : Desc) : Statement (.setCap q d) := of _
theorem setPowerGroup (q : QueueId) (d : Desc) : Statement (.setPowerGroup q d) := of _
theorem pwrSlack (msg : BitVec 256) : Statement (.pwrSlack msg) := of _
theorem pwrShift (job : Word) (offset : BitVec 12) : Statement (.pwrShift job offset) := of _
theorem retrainStack (q : QueueId) (d : Desc) (rate : BitVec 2) (spared : Nat) : Statement (.retrainStack q d rate spared) := of _
theorem marginSweep (q : QueueId) (d : Desc) (width height : Byte) (rate : BitVec 2) (spared : Nat) : Statement (.marginSweep q d width height rate spared) := of _
theorem coreSelfTest (q : QueueId) (d : Desc) (pass : Bool) : Statement (.coreSelfTest q d pass) := of _
theorem tailWrite (q : QueueId) (tail : Word) : Statement (.tailWrite q tail) := of _
theorem cplHeadWrite (q : QueueId) (index : Word) : Statement (.cplHeadWrite q index) := of _
theorem coalesceTimer (q : QueueId) : Statement (.coalesceTimer q) := of _
theorem companionLineWrite (addr : BitVec 43) (data : BitVec 512) : Statement (.companionLineWrite addr data) := of _
theorem snoop (addr : BitVec 43) : Statement (.snoop addr) := of _
theorem flit (port : Fin 2) (ok : Bool) : Statement (.flit port ok) := of _
theorem darlekLinkLoss : Statement (.darlekLinkLoss) := of _
theorem beatEdge : Statement (.beatEdge) := of _
theorem releaseEvent (f : FnId) (idx : Nat) : Statement (.releaseEvent f idx) := of _
theorem collectiveEvent (f : FnId) (idx : Nat) : Statement (.collectiveEvent f idx) := of _
theorem moveEvent (f : FnId) (idx : Nat) : Statement (.moveEvent f idx) := of _
theorem commitEvent (f : FnId) (idx : Nat) : Statement (.commitEvent f idx) := of _
theorem powerRamp (f : FnId) (idx : Nat) : Statement (.powerRamp f idx) := of _
theorem shim (f : FnId) (idx : Nat) : Statement (.shim f idx) := of _
theorem resizeEvent (f : FnId) (idx : Nat) : Statement (.resizeEvent f idx) := of _
theorem deadline (f : FnId) (idx : Nat) : Statement (.deadline f idx) := of _
theorem coreMove (f : FnId) (idx : Nat) : Statement (.coreMove f idx) := of _
theorem plannedMoveComplete (core : CoreId) : Statement (.plannedMoveComplete core) := of _
theorem reduceTimeout (q : QueueId) (opId : BitVec 16) : Statement (.reduceTimeout q opId) := of _
theorem sync (port : PortId) (msg : BitVec 256) (arrival : Nat) : Statement (.sync port msg arrival) := of _
theorem syncSend (departure : Nat) : Statement (.syncSend departure) := of _
theorem epoch (port : PortId) (msg : BitVec 256) : Statement (.epoch port msg) := of _
theorem holdReq (msg : BitVec 256) : Statement (.holdReq msg) := of _
theorem holdGrant (port : PortId) (msg : BitVec 256) : Statement (.holdGrant port msg) := of _
theorem ready (msg : BitVec 256) : Statement (.ready msg) := of _
theorem vote (msg : BitVec 256) : Statement (.vote msg) := of _
theorem decisionEcho (src : BitVec 16) (job : Word) (step : BitVec 64) : Statement (.decisionEcho src job step) := of _
theorem echoTimeout (job : Word) : Statement (.echoTimeout job) := of _
theorem commit (port : PortId) (msg : BitVec 256) : Statement (.commit port msg) := of _
theorem abort (port : PortId) (msg : BitVec 256) : Statement (.abort port msg) := of _
theorem decideLost (f : FnId) : Statement (.decideLost f) := of _
theorem holdover : Statement (.holdover) := of _
theorem backupTakeover : Statement (.backupTakeover) := of _
theorem cadInPulse (offset : Int) : Statement (.cadInPulse offset) := of _
theorem cadInMissing : Statement (.cadInMissing) := of _
theorem delay (port : PortId) (sent received turnaround : Nat) : Statement (.delay port sent received turnaround) := of _
theorem delayRemeasure (port : PortId) (now : Nat) : Statement (.delayRemeasure port now) := of _
theorem lctrl (port : PortId) (payload : BitVec 256) : Statement (.lctrl port payload) := of _
theorem lctrlSend (port : PortId) : Statement (.lctrlSend port) := of _
theorem hello (port : PortId) (payload : BitVec 512) : Statement (.hello port payload) := of _
theorem helloSend (port : PortId) : Statement (.helloSend port) := of _
theorem portTraining (port : PortId) (low high : Bool) : Statement (.portTraining port low high) := of _
theorem portRetry (port : PortId) : Statement (.portRetry port) := of _
theorem fabricLinkLost (port : PortId) : Statement (.fabricLinkLost port) := of _
theorem data (port : PortId) (fr : Frame) : Statement (.data port fr) := of _
theorem redWindow (port : PortId) (fr : Frame) : Statement (.redWindow port fr) := of _
theorem redPartial (port : PortId) (fr : Frame) (adderFault : Bool) : Statement (.redPartial port fr adderFault) := of _
theorem redResult (port : PortId) (fr : Frame) : Statement (.redResult port fr) := of _
theorem redResend (port : PortId) (fr : Frame) : Statement (.redResend port fr) := of _
theorem managementOrderEffect (core : CoreId) (order : Order) : Statement (.managementOrderEffect core order) := of _
theorem cellMapChange : Statement (.cellMapChange) := of _
theorem coreScrub (core : CoreId) (clean : Bool) : Statement (.coreScrub core clean) := of _
theorem governorStep (core : CoreId) (demand : Fin 17) : Statement (.governorStep core demand) := of _
theorem dieSensorRead (die : Fin 10) (temp0 temp1 : Byte) : Statement (.dieSensorRead die temp0 temp1) := of _
theorem stackTemperatureRead (stack : StackId) (temp : Byte) : Statement (.stackTemperatureRead stack temp) := of _
theorem telemetryCalibration (power : BitVec 12) (reserved : BitVec 12) : Statement (.telemetryCalibration power reserved) := of _
theorem ageingMonitorRead (core : CoreId) (drift : Int) (leakage : BitVec 16) : Statement (.ageingMonitorRead core drift leakage) := of _
theorem marginPlan (die : DieId) : Statement (.marginPlan die) := of _
theorem activeTest (core : CoreId) (vReq : Option Nat) : Statement (.activeTest core vReq) := of _
theorem testDue (core : CoreId) (overdue : Nat) : Statement (.testDue core overdue) := of _
theorem pohRecord : Statement (.pohRecord) := of _
theorem calibrationRecordWrite (type scope : BitVec 16) (payload : List Byte) (readsBack : Bool) : Statement (.calibrationRecordWrite type scope payload readsBack) := of _
theorem storeCompaction : Statement (.storeCompaction) := of _
theorem avsRetry (rail : DieId) (acked : Bool) : Statement (.avsRetry rail acked) := of _
theorem powerOnReset (lanes0 lanes1 : Fin 3) (straps : BitVec 2) : Statement (.powerOnReset lanes0 lanes1 straps) := of _
theorem railLoss (rail : Fin 19) : Statement (.railLoss rail) := of _
theorem devRstN (lanes0 lanes1 : Fin 3) : Statement (.devRstN lanes0 lanes1) := of _
theorem refclkStop (clock : Fin 4) : Statement (.refclkStop clock) := of _
theorem refclkReturn (clock : Fin 4) : Statement (.refclkReturn clock) := of _
theorem go (env : BootEnv) : Statement (.go env) := of _
theorem warm (key : Byte) (lanes0 lanes1 : Fin 3) : Statement (.warm key lanes0 lanes1) := of _
theorem pkcFailure : Statement (.pkcFailure) := of _
theorem errClear (w : Window) (off : BitVec 26) : Statement (.errClear w off) := of _
theorem irqStatWrite (w : Window) (off : BitVec 26) (v : Word) : Statement (.irqStatWrite w off v) := of _
theorem lock (w : Window) (off : BitVec 26) (v : Word) : Statement (.lock w off v) := of _
theorem rcRead (w : Window) (off : BitVec 26) : Statement (.rcRead w off) := of _
theorem lowWordRead (w : Window) (off : BitVec 26) : Statement (.lowWordRead w off) := of _
theorem apply : Statement (.apply) := of _
theorem cmapOrder (v : Word) : Statement (.cmapOrder v) := of _
theorem chipIdWrite (v : Word) : Statement (.chipIdWrite v) := of _
theorem epochEdgeWrite (v : Word) : Statement (.epochEdgeWrite v) := of _
theorem beatCfgWrite (v : Word) : Statement (.beatCfgWrite v) := of _
theorem planCtrlStart (v : Word) : Statement (.planCtrlStart v) := of _
theorem marginCtrlStart (stack : StackId) (v : Word) (width height : Byte) : Statement (.marginCtrlStart stack v width height) := of _
theorem portRetrain (port : PortId) (v : Word) : Statement (.portRetrain port v) := of _
theorem govCfgWrite (v : Word) : Statement (.govCfgWrite v) := of _
theorem rdSeqWrite (w : Window) (v : Word) : Statement (.rdSeqWrite w v) := of _
theorem registerWrite (w : Window) (off : BitVec 26) (bytes : Nat) (v : BitVec 64) : Statement (.registerWrite w off bytes v) := of _
theorem getState : Statement (.getState) := of _
theorem getThermal : Statement (.getThermal) := of _
theorem getPower : Statement (.getPower) := of _
theorem getEvents : Statement (.getEvents) := of _
theorem mctpControl (command : Byte) (eid : Byte) : Statement (.mctpControl command eid) := of _
theorem bypass : Statement (.bypass) := of _
theorem idcode : Statement (.idcode) := of _
theorem samplePreload (boundary : BitVec 64) : Statement (.samplePreload boundary) := of _
theorem extest : Statement (.extest) := of _
theorem decisionMessage (src : BitVec 16) (job : Word) (step : BitVec 64) (isCommit : Bool) (cause : Byte) (aborts : Byte) (final : Bool) : Statement (.decisionMessage src job step isCommit cause aborts final) := of _
theorem darlekPortLoss (port : Fin 2) (lanes : Fin 3) : Statement (.darlekPortLoss port lanes) := of _
theorem droppedFrame (port : PortId) (fr : Frame) (crcOk : Bool) : Statement (.droppedFrame port fr crcOk) := of _
theorem partitionScrub (part : PartId) (clean : Bool) : Statement (.partitionScrub part clean) := of _

end Sys2Proof.Laws.Spelling
end

