-- ==== Sys2Proof/Tests/Slice0.lean ====
section
/-! SUPPORT. Witnesses for the statements' hypotheses at the bounds of their ranges, small tests of single steps, and the WellFormed smoke
test. -/

set_option Elab.async false

namespace Sys2Proof.Tests

open Sys2Proof Sys2Proof.Machine Sys2Proof.Safety

/-! ## A small device -/

/-- A number with values at bit places. -/
def place (xs : List (Nat × Nat)) : Nat := xs.foldl (fun a x => a + x.2 * 2 ^ x.1) 0

/-- A descriptor: CLASS, OP and further fields. -/
def desc (cls op : Nat) (xs : List (Nat × Nat)) : Desc := BitVec.ofNat 512 (place ([(0, cls), (4, op), (36, 7)] ++ xs))

/-- An enabled queue of 64 places: ring 0x1000, tail line 0x8000, head line 0x8040, completion ring 0x4000, completion head line 0x8080. -/
def queueRec (q f mgmt : Nat) : BitVec 512 := BitVec.ofNat 512 (place [(0, 0x1000), (43, 6), (48, 0x8000), (91, 0x8040), (134, 0x4000),
  (177, 6), (182, 0x8080), (225, 0x9000), (268, 0x55), (300, q), (310, f), (316, 1), (317, mgmt)])

/-- Two cores, contexts 0 to 15, queues 0 to 3, four HBM granules of stack 0, partitions 0 and 1, a companion quota. -/
def rec0 : BitVec 4096 := BitVec.ofNat 4096 (place [(32, 2), (96, 4 * 1024), (384, 16), (2048, 15), (3584, 3), (3648, 16)])

def fn0 : Fn := { Fn.reset with st := .running, record := rec0 }

def served (l : Nat) : Cell := { Cell.reset with st := .inService, owner := some 0, logical := l }

/-- READY, function 0 running on cores 0 and 1 with partitions 0 and 1, its queue 0 and the management queue 1023. -/
def up : State :=
  { State.reset with
    boot := { Boot.reset with st := 8 }, fns := State.reset.fns.set 0 fn0,
    cells := (State.reset.cells.set 0 (served 0)).set 1 (served 1),
    parts := [(0, { Part.reset with owner := some 0 }), (1, { Part.reset with owner := some 0 })],
    queues := [(0, { Queue.reset with record := queueRec 0 0 0, set := true }),
      (1023, { Queue.reset with record := queueRec 1023 0 1, set := true })] }

/-! ## Issue -/

/-- What Starts asks for, as a test. -/
def startsB (s : State) (q : QueueId) (d : Desc) : Bool :=
  s.dispatching q && !(s.queue q.val).stopped && s.room (s.queue q.val).mgmt (s.queue q.val).owner && decide (s.headerCause q d = 0)
    && s.ops.all (fun o => decide (o.num < s.nextOp))
    && s.ops.all (fun o => !decide (o.queue = q) || (decide (o.stage ≠ .dispatched) && decide (o.stage ≠ .held) && decide (hdClass o.desc ≠ 5)
      && decide (hdFence d ≠ 1)))

theorem starts_ok {s : State} {q : QueueId} {d : Desc} (h : startsB s q d = true) : Starts s q d := by
  simp only [startsB, Bool.and_eq_true, Bool.not_eq_true', List.all_eq_true, decide_eq_true_eq, Bool.or_eq_true, decide_eq_false_iff_not] at h
  obtain ⟨⟨⟨⟨⟨h1, h2⟩, h3⟩, h4⟩, h5⟩, h6⟩ := h
  refine ⟨h1, h2, h3, h4, h5, fun o ho hq => ?_⟩
  rcases h6 o ho with h | h
  · exact absurd hq h
  · exact ⟨h.1.1.1, h.1.1.2, h.1.2, h.2⟩

/-- The state in which an operation that issues at once has its effect. -/
def at_ (s : State) (q : QueueId) (d : Desc) : State := (s.addOp (opOf s q d)).markIssued (opOf s q d)

theorem issues_ok {s : State} {q : QueueId} {d : Desc} (h : startsB s q d = true) : Issues s q d (opOf s q d) (at_ s q d) :=
  .direct (starts_ok h)

/-- A control operation of a code issues at once. -/
abbrev Ctl (s : State) (q : QueueId) (d : Desc) (code : Nat) : Prop := Control s q d code (opOf s q d) (at_ s q d)

theorem ctl_ok {s : State} {q : QueueId} {d : Desc} {code : Nat}
    (h : (startsB s q d && decide (hdClass d = 6) && decide (hdOp d = code)) = true) : Ctl s q d code := by
  simp only [Bool.and_eq_true, decide_eq_true_eq] at h
  exact ⟨issues_ok h.1.1, h.1.2, h.2⟩

/-- The state a command leaves. -/
def nxt (i : Instr) (s : State) : State :=
  match exec i s with
  | .next t => t
  | _ => s

/-! ## Vector operations -/

/-- One row of 64 BF16 elements from 0x1000 and 0x2000 to the last row of the scratchpad. -/
def vec (op : Nat) : Desc := desc 1 op [(220, 1), (224, 1), (228, 1), (251, if op = 0x0D then 1 else 0), (256, 0x1000), (280, 0x2000),
  (304, 0x3000), (328, 0xBFFF80), (352, 0x5000), (392, 63), (406, 1), (422, 1), (438, 1), (454, 1)]

def onCoreB (b : State) (o : Op) (c : CoreId) : Bool :=
  decide (b.coreOf o = some c) && !(b.cell c).quarantining && !b.moving o.fn (hdCore o.desc)

theorem onCore_ok {b : State} {o : Op} {c : CoreId} (h : onCoreB b o c = true) : OnCore b o c := by
  simp only [onCoreB, Bool.and_eq_true, decide_eq_true_eq, Bool.not_eq_true'] at h
  exact ⟨h.1.1, h.1.2, h.2⟩

def vecB (s : State) (d : Desc) : Bool :=
  let o := opOf s 0 d
  let b := at_ s 0 d
  startsB s 0 d && onCoreB b o 0 && decide (hdClass o.desc = 1) && decide (b.vectorCause 0 o (veEntry b o) = 0)
    && !b.stageWait o.fn (veHolds o 0)

theorem vec_ok {s : State} {d : Desc} (h : vecB s d = true) :
    Issues s 0 d (opOf s 0 d) (at_ s 0 d) ∧ VectorReady (at_ s 0 d) (opOf s 0 d) 0 := by
  simp only [vecB, Bool.and_eq_true, decide_eq_true_eq, Bool.not_eq_true'] at h
  exact ⟨issues_ok h.1.1.1.1, { toOnCore := onCore_ok h.1.1.1.2, cls := h.1.1.2, checks := h.1.2, slots := h.2 }⟩

/-- VectorElements, VectorRecords: each operation of the vector engine issues and is ready. -/
theorem test_vector_ready : ∀ op ∈ [0x01, 0x02, 0x03, 0x04, 0x05, 0x06, 0x07, 0x08, 0x09, 0x0A, 0x0B, 0x0C, 0x0D, 0x0E, 0x0F, 0x10, 0x18],
    hdOp (vec op) = op ∧ Issues up 0 (vec op) (opOf up 0 (vec op)) (at_ up 0 (vec op))
      ∧ VectorReady (at_ up 0 (vec op)) (opOf up 0 (vec op)) 0 := by
  have h : ∀ op ∈ [0x01, 0x02, 0x03, 0x04, 0x05, 0x06, 0x07, 0x08, 0x09, 0x0A, 0x0B, 0x0C, 0x0D, 0x0E, 0x0F, 0x10, 0x18],
      hdOp (vec op) = op ∧ vecB up (vec op) = true := by decide +kernel
  exact fun op ho => ⟨(h op ho).1, vec_ok (h op ho).2⟩

/-! ## Matrix engines -/

/-- An operation of `rows` rows and one segment that loads bank `bank`, opens slot `tile` and closes it to 0x40000. -/
def mat (rows bank tile acc close : Nat) : Desc := desc 0 0 [(220, 1), (224, 1), (228, 1), (236, bank), (237, 1), (240, tile), (245, acc),
  (247, close), (248, rows - 1), (262, 511), (272, 0x100000), (296, 0), (312, 0x200000), (384, 0x40000), (408, 8)]

def matB (s : State) (d : Desc) : Bool :=
  let o := opOf s 0 d
  let b := at_ s 0 d
  startsB s 0 d && onCoreB b o 0 && decide (hdClass o.desc = 0) && decide (hdOp o.desc = 0)
    && decide (b.matrixCause 0 (mxInst o 0) o (mxEntry b o) = 0) && !(b.me (mxInst o 0)).staged && !b.initPending 0 o
    && decide (b.mxWindow? o.fn o.desc = none) && !b.stageWait o.fn (mxHolds 0 o.desc)
    && ((b.te 0).takes o.desc).all (fun j => !j.parity)

theorem mat_ok {s : State} {d : Desc} (h : matB s d = true) :
    Issues s 0 d (opOf s 0 d) (at_ s 0 d) ∧ MatrixReady (at_ s 0 d) (opOf s 0 d) 0 := by
  simp only [matB, Bool.and_eq_true, decide_eq_true_eq, Bool.not_eq_true'] at h
  obtain ⟨⟨⟨⟨⟨⟨⟨⟨⟨h1, h2⟩, h3⟩, h4⟩, h5⟩, h6⟩, h7⟩, h8⟩, h9⟩, h10⟩ := h
  exact ⟨issues_ok h1, { toOnCore := onCore_ok h2, cls := h3, op := h4, checks := h5, place := h6, init := h7, window := h8, slots := h9, whole := h10 }⟩

/-- One row on slot 31, staged. -/
def staged : State := nxt (.matrixOperation 0 (mat 1 1 31 0 1)) up

/-- Its block is in the bank, up to the row named. -/
def loaded (rows : Nat) : State :=
  staged.setMe 0 { staged.me 0 with staged1 := 1, rows1 := rows, lastWrite1 := rows }

/-- MatrixStages: an opening operation on a free slot, and one that goes on with a slot in use. -/
theorem test_matrix_ready :
    (Issues up 0 (mat 1 1 31 0 1) (opOf up 0 (mat 1 1 31 0 1)) (at_ up 0 (mat 1 1 31 0 1))
      ∧ MatrixReady (at_ up 0 (mat 1 1 31 0 1)) (opOf up 0 (mat 1 1 31 0 1)) 0)
    ∧ (let s := nxt (.vectorEntry 0 0 1000 0 .none) ((nxt (.matrixOperation 0 (mat 1 1 31 0 0)) up).setMe 0
          { (nxt (.matrixOperation 0 (mat 1 1 31 0 0)) up).me 0 with staged1 := 1, rows1 := 512, lastWrite1 := 512 })
       Issues s 0 (mat 1 0 31 2 1) (opOf s 0 (mat 1 0 31 2 1)) (at_ s 0 (mat 1 0 31 2 1))
      ∧ MatrixReady (at_ s 0 (mat 1 0 31 2 1)) (opOf s 0 (mat 1 0 31 2 1)) 0) :=
  ⟨mat_ok (by decide +kernel), mat_ok (by decide +kernel)⟩

/-- An operation that waits to open slot 31 is struck by a parity error: the earlier contents, ready to close, stay (R141). -/
theorem test_parity_keeps_earlier_contents :
    (let a := nxt (.vectorEntry 0 0 1000 0 .none) (loaded 512)
     let b := nxt (.matrixOperation 0 (mat 1 0 31 0 1)) a
     let t := nxt (.stationaryRowWrite 0 0 0 0 3000 true) b
     ((a.me 0).slot 31).st = .closing ∧ ((b.me 0).slot 31).openers.length = 1 ∧ ((t.me 0).slot 31).openers = []
      ∧ ((t.me 0).slot 31).st = .closing ∧ (t.me 0).ready = [31] ∧ t.ops.length = 1) := by decide +kernel

/-- VectorEntries: the vector of a loaded pass may enter, no earlier than its edge; the first and last rows of a block may be written, the
second not a cycle late. -/
theorem test_vector_enters :
    ((loaded 512).me 0).passes.length = 1 ∧ ((((loaded 512).me 0).passes.head?).bind (fun p => (loaded 512).op? p.op)).isSome = true
    ∧ ((loaded 512).me 0).passes.all (fun p => (loaded 512).mayEnter 0 0 p 513 513 && !(loaded 512).mayEnter 0 0 p 513 514) = true
    ∧ mxWidth (mat 1 1 31 0 1) = 512 ∧ (((loaded 512).me 0).slot 31).holdsBack (0, 0) = false ∧ ((loaded 512).te 0).joined = [] := by
  decide +kernel

theorem test_rows_written :
    (staged.me 0).mayWrite 1 0 0 = true ∧ ((loaded 1).me 0).mayWrite 1 1 1 = true ∧ ((loaded 1).me 0).mayWrite 1 1 2 = false
    ∧ ((loaded 511).me 0).mayWrite 1 511 511 = true ∧ (staged.me 0).mayWrite 0 0 0 = false := by
  decide +kernel

/-- A slot ready for its close. -/
def closing : State := nxt (.vectorEntry 0 0 1000 0 .none) (loaded 512)

/-- CloseWrites: the slot of the operation is first of those ready, without a mismatch, not watched and without epilogue. -/
theorem test_close_ready :
    (closing.me 0).ready = [31] ∧ (((closing.me 0).slot 31).closer.bind (fun r => closing.op? r)).map (fun o => (mxEpi o.desc, o.entry)) = some (0, none)
    ∧ ((closing.me 0).slot 31).mismatch = false ∧ ((closing.me 0).slot 31).openers = [] := by
  decide +kernel

/-! ## The truss -/

/-- Slot 31 holds one row on ME0 of both cores. -/
def leaves : State :=
  let x : Slot := { Slot.reset with st := .opened, projOpen := true, segs := 1, rows := 1, vals := zeroTile }
  { up with mes := [(0, { Me.reset with slots := [(31, x)] }), (2, { Me.reset with slots := [(31, x)] })] }

/-- A truss operation over leaves 0 and 2 with root 1. -/
def tru (kind : Nat) : Desc := desc 4 1 [(220, 1), (226, kind), (230, 31), (248, 5), (288, 1), (296, 0x40000), (320, 8), (364, 0x80000)]

def truB (s : State) (d : Desc) : Bool :=
  let o := opOf s 0 d
  let b := at_ s 0 d
  startsB s 0 d && decide (hdClass o.desc = 4) && decide (hdOp o.desc = 1) && b.leavesOk o && decide (b.trussCoreStatus o = 0)
    && !((trLeafList o.desc).map (· / 2) ++ [trRoot o.desc]).any (b.moving o.fn)
    && decide (b.trussCause (b.phys? o.fn (trRoot o.desc)) (trInsts b o) o (b.enabledEntry o.fn (trWatchEn o.desc) (trWatchId o.desc)) = 0)

theorem tru_ok {s : State} {d : Desc} (h : truB s d = true) :
    Issues s 0 d (opOf s 0 d) (at_ s 0 d) ∧ TrussReady (at_ s 0 d) (opOf s 0 d) := by
  simp only [truB, Bool.and_eq_true, decide_eq_true_eq, Bool.not_eq_true'] at h
  obtain ⟨⟨⟨⟨⟨⟨h1, h2⟩, h3⟩, h4⟩, h5⟩, h6⟩, h7⟩ := h
  exact ⟨issues_ok h1, { cls := h2, op := h3, cores := ⟨h4, h5⟩, still := h6, checks := h7 }⟩

/-- TrussOperations: each of the five kinds is ready. -/
theorem test_truss_ready : ∀ kind ∈ [0, 1, 2, 3, 4], trKind (tru kind) = kind
    ∧ Issues leaves 0 (tru kind) (opOf leaves 0 (tru kind)) (at_ leaves 0 (tru kind))
    ∧ TrussReady (at_ leaves 0 (tru kind)) (opOf leaves 0 (tru kind)) := by
  have h : ∀ kind ∈ [0, 1, 2, 3, 4], trKind (tru kind) = kind ∧ truB leaves (tru kind) = true := by decide +kernel
  exact fun k hk => ⟨(h k hk).1, tru_ok (h k hk).2⟩

/-- The operation stands registered on both leaves. -/
def registered : State := nxt (.trussSum 0 (tru 0)) leaves

/-- A leaf that may be read, the first and the last. -/
def leafB (s : State) (leaf : Nat) : Bool :=
  match s.ops.find? (fun o => o.named 0 7 && decide (o.stage = .inflight) && decide (hdClass o.desc = 4) && decide (hdOp o.desc = 1)) with
  | some o => match s.leafInst o.fn leaf with
    | some inst => decide (leaf ∈ trLeafList o.desc) && o.leaves.all (fun l => decide (l.1 ≠ leaf))
      && (trSlots o.desc).all (fun k => s.leafReady o.ref (inst, k) && !((s.me inst).slot k).mismatch)
      && (s.phys? o.fn (trRoot o.desc)).isSome
    | none => false
  | none => false

theorem test_leaf_ready : leafB registered 0 = true ∧ leafB (nxt (.trussLeafRead 0 7 0 .none) registered) 2 = true := by decide +kernel

/-! ## The tenon engine -/

/-- Frame 0 of one layer and 512 columns, with the context 15 of rank 8 for target 0 and a slice in page 0. -/
def framed (state : Nat) : State :=
  { up with
    fns := up.fns.set 0 { fn0 with frames := [0] },
    frames := [(0, { FrameState.reset with defined := true, record := BitVec.ofNat 512 (place [(8, 1), (16, 7)]), width := 512, ffWidth := 512 })],
    ctxs := [(15, BitVec.ofNat 1024 (place [(0, 15), (32, state), (38, 1), (48, 0x3F80), (64, 1), (82, 1), (100, 7)]))],
    dir := [(0, BitVec.ofNat 64 (place [(0, 1), (10, 0xFF)])), (1, BitVec.ofNat 64 (place [(0, 1), (10, 0xFF)]))],
    hbms := [(0, { Stack.reset with inService := true, rate := 3 })],
    mem := (memWrite [] (spKey 0 0x1000) (leBytes 8 15)) }

/-- One group of one row. -/
def ten (mode : Nat) : Desc := desc 2 0 [(220, mode), (224, 1), (228, 1), (240, 0), (308, 0x1000), (332, 0x2000), (356, 8), (372, 0xBFF000),
  (396, 32), (412, 9), (476, 0x40000)]

def tenB (s : State) (d : Desc) : Bool :=
  let o := opOf s 0 d
  let b := at_ s 0 d
  let gs := b.groups 0 o.desc
  startsB s 0 d && onCoreB b o 0 && decide (hdClass o.desc = 2) && decide (hdOp o.desc = 0)
    && decide (b.tenonCause 0 o gs = 0) && decide ((b.gatherGroups o gs).2 = 0) && !(tnSlices b o 0).any (b.gatherWaits o.fn)
    && !b.stageWait o.fn ((tnReadRanges (b.frame (tnFrame o.desc)) o.desc gs (tnGroups b o 0)).map (fun x => (spKey 0 x.1, x.2)))
    && !b.decideHold o.fn ((tnSlices b o 0).map (fun x => (x.addr, x.bytes)))

theorem ten_ok {s : State} {d : Desc} (h : tenB s d = true) :
    Issues s 0 d (opOf s 0 d) (at_ s 0 d) ∧ TenonReady (at_ s 0 d) (opOf s 0 d) 0 := by
  simp only [tenB, Bool.and_eq_true, decide_eq_true_eq, Bool.not_eq_true'] at h
  obtain ⟨⟨⟨⟨⟨⟨⟨⟨h1, h2⟩, h3⟩, h4⟩, h5⟩, h6⟩, h7⟩, h8⟩, h9⟩ := h
  exact ⟨issues_ok h1, { toOnCore := onCore_ok h2, cls := h3, op := h4, checks := h5, gather := h6, pages := h7, slots := h8, decided := h9 }⟩

/-- TenonResults, TenonJoins: each mode is ready on a context of the state it needs, live for 0 and 1, in training for the rest; its group
is one. -/
theorem test_tenon_ready : ∀ mode ∈ [0, 1, 2, 3, 4, 5], tnMode (ten mode) = mode
    ∧ (let s := framed (if mode < 2 then 2 else 3)
       Issues s 0 (ten mode) (opOf s 0 (ten mode)) (at_ s 0 (ten mode)) ∧ TenonReady (at_ s 0 (ten mode)) (opOf s 0 (ten mode)) 0
       ∧ (tnGroups (at_ s 0 (ten mode)) (opOf s 0 (ten mode)) 0).length = 1) := by
  have h : ∀ mode ∈ [0, 1, 2, 3, 4, 5], tnMode (ten mode) = mode ∧ tenB (framed (if mode < 2 then 2 else 3)) (ten mode) = true
      ∧ (tnGroups (at_ (framed (if mode < 2 then 2 else 3)) 0 (ten mode)) (opOf (framed (if mode < 2 then 2 else 3)) 0 (ten mode)) 0).length = 1 := by
    decide +kernel
  exact fun m hm => ⟨(h m hm).1, (ten_ok (h m hm).2.1).1, (ten_ok (h m hm).2.1).2, (h m hm).2.2⟩

/-- TenonJoins: DOWN refers to its context, whose count has room; an unjoined UP may time out. -/
theorem test_tenon_refs :
    (let s := framed 2
     cxRefs ((at_ s 0 (ten 0)).ctx 15) < 65535 ∧ ((tnGroups (at_ s 0 (ten 0)) (opOf s 0 (ten 0)) 0).map (·.ctx)).Nodup
     ∧ cxRefs ((nxt (.down 0 (ten 0) .none) s).ctx 15) = 1)
    ∧ (let t := nxt (.up 0 (ten 1) .none) (framed 2)
       (t.ops.find? (fun o => o.named 0 7 && decide (o.stage = .inflight) && decide (hdClass o.desc = 2))).isSome = true
       ∧ ((t.te 0).unjoined.map (·.op)) = [(0, 0)] ∧ t.ops.map (fun o => t.coreOf o) = [some 0]) := by decide +kernel

/-! ## Completion, moves and stacks -/

/-- An operation of queue 0 that runs. -/
def op0 (irq : Nat) : Op := { opOf up 0 (desc 6 4 [(18, irq)]) with holds := [] }

/-- CompletionRecord, CompletionFrame: a ring with room at its last place of the first pass, one with IRQ, one that is full. -/
theorem test_rings :
    (let s := up.setQueue 0 { up.queue 0 with cplIndex := 63 }
     (s.queue 0).cplFull = false ∧ (s.queue 0).waiting = [] ∧ flag (op0 0).desc 18 = false ∧ flag (op0 1).desc 18 = true
     ∧ (s.coalesceOf (s.queue 0)).1 ≤ (s.queue 0).irqPending + 1 ∧ fld (s.queue 0).record 267 225 ≠ 0)
    ∧ ((up.setQueue 0 { up.queue 0 with cplIndex := 64 }).queue 0).cplFull = true := by decide +kernel

/-- Retirement: a vector operation stands stored, and no page of the state is ready to be unshared. -/
theorem test_stored :
    (let s := nxt (.add 0 (vec 2) false) up
     (s.ops.find? (fun o => o.named 0 7 && decide (o.stage = .stored))).isSome = true
     ∧ s.ops.all (fun o => decide (hdClass o.desc ≠ 3) && !s.unshareReady o) = true
     ∧ (nxt (.operationRetire 0 7) s).ops = []) := by decide +kernel

/-- Pages 0 and 1 of stack 0 and a page of companion memory belong to function 0; the stack is in service. -/
def paged : State :=
  { up with
    dir := [(0, BitVec.ofNat 64 (place [(0, 1), (10, 0xFF)])), (1, BitVec.ofNat 64 (place [(0, 1), (10, 0xFF)]))],
    hbms := [(0, { Stack.reset with inService := true, rate := 3 })],
    mem := memWrite [] 0x80 [1, 2, 3] }

/-- A move of one row of 128 bytes: from page 0 to page 1, to both scratchpads, or zeros. -/
def mov (dstSp clear src : Nat) : Desc := desc 3 0 [(64, src), (108, if dstSp = 1 then 0xBFFF80 else 0x1FF80), (153, dstSp), (160, if dstSp = 1 then 3 else 0),
  (181, clear)]

def movB (s : State) (d : Desc) : Bool :=
  let o := opOf s 0 d
  let b := at_ s 0 d
  let dst := (mvDstDev o.desc).map (fun r => (b.writeAddr o.fn r.1, r.2))
  startsB s 0 d && decide (hdClass o.desc = 3) && decide (hdOp o.desc = 0) && decide (b.moveCause o = 0) && !b.mvNoCore o.fn o.desc
    && !((mvReads o.desc && decide (mvSrcSp o.desc = 1) && b.moving o.fn (mvSrcCore o.desc)) || (mvCores o.desc).any (b.moving o.fn))
    && decide (b.oldKeyPages (b.tieredPages o.fn dst) = [])
    && !(b.tieredPages o.fn ((mvSrcDev o.desc).map (fun r => (b.readAddr o.fn r.1, r.2)) ++ dst)).any b.pageBusy
    && !b.waveWait o && decide (b.windowWait? o.fn (mvSrcParts o.desc) = none) && !b.stageWait o.fn (b.mvSrcKeys o.fn o.desc)
    && !b.decideHold o.fn (mvSrcDev o.desc ++ mvDstDev o.desc)

theorem mov_ok {s : State} {d : Desc} (h : movB s d = true) :
    Issues s 0 d (opOf s 0 d) (at_ s 0 d) ∧ MoveReady (at_ s 0 d) (opOf s 0 d) := by
  simp only [movB, Bool.and_eq_true, decide_eq_true_eq, Bool.not_eq_true'] at h
  obtain ⟨⟨⟨⟨⟨⟨⟨⟨⟨⟨⟨h1, h2⟩, h3⟩, h4⟩, h5⟩, h6⟩, h7⟩, h8⟩, h9⟩, h10⟩, h11⟩, h12⟩ := h
  exact ⟨issues_ok h1, { cls := h2, op := h3, checks := h4, cores := h5, still := h6, keys := h7, pages := h8, wave := h9, window := h10, slots := h11,
                         decided := h12 }⟩

/-- Moves: each form is ready, without poison and with a poisoned burst in its source. -/
theorem test_move_ready :
    (∀ k ∈ [0, 1, 2, 3], let d := mov (k % 2) (k / 2) 0x80
      Issues paged 0 d (opOf paged 0 d) (at_ paged 0 d) ∧ MoveReady (at_ paged 0 d) (opOf paged 0 d) ∧ (at_ paged 0 d).poison = [] ∧ mvRows d = 1)
    ∧ (let s := { paged with poison := [3] }
       Issues s 0 (mov 0 0 0x80) (opOf s 0 (mov 0 0 0x80)) (at_ s 0 (mov 0 0 0x80)) ∧ MoveReady (at_ s 0 (mov 0 0 0x80)) (opOf s 0 (mov 0 0 0x80))
       ∧ region ((at_ s 0 (mov 0 0 0x80)).readAddr 0 0x80) = .hbm 0 ∧ (at_ s 0 (mov 0 0 0x80)).readAddr 0 0x80 ≤ 3 * 64
       ∧ 3 * 64 < (at_ s 0 (mov 0 0 0x80)).readAddr 0 0x80 + mvRow (mov 0 0 0x80)) := by
  have h : ∀ k ∈ [0, 1, 2, 3], movB paged (mov (k % 2) (k / 2) 0x80) = true ∧ (at_ paged 0 (mov (k % 2) (k / 2) 0x80)).poison = []
      ∧ mvRows (mov (k % 2) (k / 2) 0x80) = 1 := by decide +kernel
  have h2 := mov_ok (s := { paged with poison := [3] }) (d := mov 0 0 0x80) (by decide +kernel)
  exact ⟨fun k hk => ⟨(mov_ok (h k hk).1).1, (mov_ok (h k hk).1).2, (h k hk).2⟩, h2.1, h2.2, by decide +kernel⟩

/-- RowRepair: rows without a spare, on pool 1 and on pool 2; a relocating page without references, with a free page. -/
theorem test_repair :
    region (2 ^ 36 - 2 ^ 34 - 1) = .hbm 0 ∧ (paged.stack 0).inService = true ∧ (paged.stack 0).bankUsed (bankOf (rowOf 0)) < 4
    ∧ (paged.stack 0).pool2Used < 512
    ∧ (let s := paged.setPage 0 (withFld (paged.page 0) 28 26 3)
       stackOfPage 0 = some 0 ∧ pgMove (s.page 0) = 3 ∧ pgRef (s.page 0) = 0 ∧ pgTier (s.page 0) = 1 ∧ s.ops = [] ∧ s.freePage 0 = some 2)
    ∧ (let s := paged.setStack 0 { paged.stack 0 with repairs := [(rowOf 0, 3)] }
       SMap.get 0 (s.stack 0).repairs (rowOf 0) = 3 ∧ pgTier (s.page (pageOf 0)) = 1 ∧ pgMove (s.page (pageOf 0)) ≠ 2 ∧ pageOf 0 ∉ s.scrubs) := by
  decide +kernel

def dStack (op : Nat) : Desc := desc 6 op [(128, 0)]

/-- StackState: the operations on a stack, idle, with a page referred to, and without claimed pages. -/
theorem test_stack_ops :
    Ctl paged 1023 (dStack 0x72) 0x72 ∧ Ctl up 1023 (dStack 0x73) 0x73
    ∧ (let s := paged.setPage 1 (withFld (paged.page 1) 25 18 1)
       Ctl s 1023 (dStack 0x72) 0x72 ∧ ∃ x ∈ (at_ s 1023 (dStack 0x72)).dir, x.1 / 2 ^ 20 = fld (dStack 0x72) 132 128 ∧ pgRef x.2 ≠ 0)
    ∧ (∀ x ∈ (at_ paged 1023 (dStack 0x72)).dir, x.1 / 2 ^ 20 = 0 → pgRef x.2 = 0)
    ∧ (∀ f, ((at_ up 1023 (dStack 0x73)).fn f).sec.confidential = true → ((at_ up 1023 (dStack 0x73)).fn f).granules 0 = 0) :=
  ⟨ctl_ok (by decide +kernel), ctl_ok (by decide +kernel), ⟨ctl_ok (by decide +kernel), by decide +kernel⟩, by decide +kernel, by decide +kernel⟩

/-- The states of Table 9-3 at their bounds, and a fall only at 2 °C below. -/
theorem test_stack_temperatures :
    ((nxt (.stackTemperatureRead 0 84) up).stack 0).refresh = 0 ∧ ((nxt (.stackTemperatureRead 0 85) up).stack 0).refresh = 1
    ∧ ((nxt (.stackTemperatureRead 0 95) up).stack 0).refresh = 2 ∧ ((nxt (.stackTemperatureRead 0 105) up).stack 0).refresh = 2
    ∧ (let s := nxt (.stackTemperatureRead 0 95) up
       ((nxt (.stackTemperatureRead 0 94) s).stack 0).refresh = 2 ∧ ((nxt (.stackTemperatureRead 0 93) s).stack 0).refresh = 1) := by
  decide +kernel

/-! ## The directory -/

/-- A run of `n` pages at a device address. -/
def run (op a n : Nat) (xs : List (Nat × Nat)) : Desc := desc 6 op ([(64, a), (128, n)] ++ xs)

/-- DirectoryRuns: each operation on runs its checks pass; a claim beyond the quota, and one over a page that is not free. -/
theorem test_runs :
    (Ctl paged 0 (run 0x23 0x20000 2 []) 0x23 ∧ (at_ paged 0 (run 0x23 0x20000 2 [])).runCause (opOf paged 0 (run 0x23 0x20000 2 [])) = 0
      ∧ (at_ paged 0 (run 0x23 0x20000 2 [])).quotaExcess 0 (run 0x23 0x20000 2 []) = 0
      ∧ ∀ p ∈ [2, 3], pgTier ((at_ paged 0 (run 0x23 0x20000 2 [])).page p) = 0)
    ∧ (Ctl paged 0 (run 0x24 0 2 [(160, 0)]) 0x24 ∧ (at_ paged 0 (run 0x24 0 2 [(160, 0)])).runCause (opOf paged 0 (run 0x24 0 2 [(160, 0)])) = 0
      ∧ ∀ p ∈ [0, 1], (at_ paged 0 (run 0x24 0 2 [])).ownedCause 0 true p = 0 ∧ pgMove ((at_ paged 0 (run 0x24 0 2 [])).page p) = 0)
    ∧ Ctl paged 0 (run 0x25 0 2 []) 0x25 ∧ Ctl paged 0 (run 0x26 0 2 []) 0x26
    ∧ (Ctl paged 0 (run 0x23 0x10000 2 []) 0x23 ∧ (at_ paged 0 (run 0x23 0x10000 2 [])).quotaExcess 0 (run 0x23 0x10000 2 []) = 0
      ∧ pgTier ((at_ paged 0 (run 0x23 0x10000 2 [])).page 1) ≠ 0)
    ∧ (Ctl paged 0 (run 0x23 0x100000000 1 []) 0x23
      ∧ (at_ paged 0 (run 0x23 0x100000000 1 [])).runCause (opOf paged 0 (run 0x23 0x100000000 1 [])) = 0
      ∧ (at_ paged 0 (run 0x23 0x100000000 1 [])).quotaExcess 0 (run 0x23 0x100000000 1 []) = 1) :=
  ⟨⟨ctl_ok (by decide +kernel), by decide +kernel⟩, ⟨ctl_ok (by decide +kernel), by decide +kernel⟩, ctl_ok (by decide +kernel), ctl_ok (by decide +kernel),
    ⟨ctl_ok (by decide +kernel), by decide +kernel⟩, ⟨ctl_ok (by decide +kernel), by decide +kernel⟩⟩

/-- PagesLeave: a released page without references, one being scrubbed, a die with a change left, a read of the directory. -/
theorem test_page_leaves :
    (let s := paged.setPage 0 (withFld (paged.page 0) 28 26 2)
     pgMove (s.page 0) = 2 ∧ pgRef (s.page 0) = 0 ∧ 0 ∉ s.scrubs ∧ 0 ∈ (nxt (.pageLeavesOwner 0) s).scrubs)
    ∧ (let t := nxt (.claim 0 (run 0x23 0x20000 1 [])) paged
       t.dirLag = [2] ∧ dieOfPage 2 = 0 ∧ t.ops.map (·.lag) = [[2]] ∧ t.ops.map (fun o => decide (hdOp o.desc = 0x25)) = [false]
       ∧ (nxt (.directoryChangeApply 0) t).ops = [])
    ∧ (let d := run 0x27 0 2 [(192, 0x20000000000)]
       Ctl paged 0 d 0x27 ∧ (at_ paged 0 d).runCause (opOf paged 0 d) = 0 ∧ (∀ p ∈ [0, 1], (at_ paged 0 d).ownedCause 0 false p = 0)
       ∧ (at_ paged 0 d).ctlWriteCause (opOf paged 0 d) 0x20000000000 16 = 0 ∧ (at_ paged 0 d).decideHold 0 [(0x20000000000, 16)] = false) :=
  ⟨by decide +kernel, by decide +kernel, ctl_ok (by decide +kernel), by decide +kernel⟩

/-! ## Seed, plans, classes and the watch table -/

/-- Records lie in partition 0 of function 0, at offset 0x1000, and for the management role at companion address 0x10000. -/
def here : Nat := 0x20000001000

def there : Nat := 0x80000010000

/-- The state with a record of n bytes at an address. -/
def withRec (s : State) (a n v : Nat) : State := { s with mem := memWrite s.mem a (leBytes n v) }

/-- A control operation with ADDR. -/
def dAt (op a : Nat) (xs : List (Nat × Nat)) : Desc := desc 6 op ([(64, a)] ++ xs)

/-- Bound to frame 0, which it serves, with rates and shares that a class is priced at. -/
def serving : State :=
  let s := framed 2
  { s with
    fns := s.fns.set 0 { fn0 with frames := [0], serving := some 0, record := BitVec.ofNat 4096 (rec0.toNat + place [(160, 100), (512, 100)]) },
    frames := [(0, { FrameState.reset with defined := true, record := BitVec.ofNat 512 (place [(8, 1), (16, 7), (128, 1000), (192, 1000), (224, 8), (256, 1)]), width := 512, ffWidth := 512 })] }

def cls (first step : Nat) : Nat := place [(0, 3), (8, 1), (16, 1), (46, 8), (64, first), (96, step)]

def plan1 (start : Nat) : Nat := place [(0, 1), (64, 99), (128, start)]

def event1 : Nat := place [(0, 10), (48, 1), (64, 5)]

/-- A state in an epoch, at beat 1,000. -/
def timed (s : State) : State := { s with beat := { s.beat with number := 1000, epochSet := true } }

/-- FunctionClasses: a seed, a mode, a class that fits and one that does not by its first and by its following deadline. -/
theorem test_classes :
    Ctl up 0 (desc 6 3 [(64, 9)]) 3 ∧ Ctl up 0 (desc 6 4 [(64, 1)]) 4
    ∧ (∀ k ∈ [(3, 3), (2, 3), (3, 2)], let s := withRec serving here 32 (cls k.1 k.2)
       Ctl s 0 (dAt 2 here []) 2 ∧ (at_ s 0 (dAt 2 here [])).recordCause (opOf s 0 (dAt 2 here [])) here 32 = 0
       ∧ (s.fn 0).serving = some 0 ∧ classBad (BitVec.ofNat 256 (cls k.1 k.2)) = false
       ∧ s.classPrices (s.fn 0) (BitVec.ofNat 256 (cls k.1 k.2)) (s.frame 0).record = (some 3, some 3)) := by
  refine ⟨ctl_ok (by decide +kernel), ctl_ok (by decide +kernel), ?_⟩
  have h : ∀ k ∈ [(3, 3), (2, 3), (3, 2)], (let s := withRec serving here 32 (cls k.1 k.2)
      (startsB s 0 (dAt 2 here []) && decide (hdClass (dAt 2 here []) = 6) && decide (hdOp (dAt 2 here []) = 2)) = true
      ∧ (at_ s 0 (dAt 2 here [])).recordCause (opOf s 0 (dAt 2 here [])) here 32 = 0
      ∧ (s.fn 0).serving = some 0 ∧ classBad (BitVec.ofNat 256 (cls k.1 k.2)) = false
      ∧ s.classPrices (s.fn 0) (BitVec.ofNat 256 (cls k.1 k.2)) (s.frame 0).record = (some 3, some 3)) := by decide +kernel
  exact fun k hk => ⟨ctl_ok (h k hk).1, (h k hk).2⟩

/-- Plans: a plan that passes, and one whose start is too near. -/
theorem test_plans :
    (let s := timed (withRec (withRec up here 64 (plan1 1100)) (here + 64) 32 event1)
     let b := at_ s 0 (dAt 1 here [])
     Ctl s 0 (dAt 1 here []) 1 ∧ b.recordCause (opOf s 0 (dAt 1 here [])) here 64 = 0 ∧ b.recordCause (opOf s 0 (dAt 1 here [])) here 96 = 0
     ∧ b.planFails 0 (BitVec.ofNat 512 (plan1 1100)) [BitVec.ofNat 256 event1] = [] ∧ (b.planSpace 0 96).isSome = true)
    ∧ (let s := timed (withRec (withRec up here 64 (plan1 1001)) (here + 64) 32 event1)
       let b := at_ s 0 (dAt 1 here [])
       Ctl s 0 (dAt 1 here []) 1 ∧ b.planFails 0 (BitVec.ofNat 512 (plan1 1001)) [BitVec.ofNat 256 event1] ≠ []) :=
  ⟨⟨ctl_ok (by decide +kernel), by decide +kernel⟩, ctl_ok (by decide +kernel), by decide +kernel⟩

/-- A watch table of two entries at offset 0x2000 of partition 0. -/
def watched : State := { up with fns := up.fns.set 0 { fn0 with watch := some (0, 0x2000, 2) } }

/-- WatchTables: each operation on the last entry of the range, and a history load of a full history. -/
theorem test_watch :
    (let d := desc 6 0x10 [(64, 0), (70, 0x2000), (95, 2)]
     Ctl up 0 d 0x10 ∧ (at_ up 0 d).setWatchCause (opOf up 0 d) = 0)
    ∧ (let d := dAt 0x11 here [(128, 1)]
       Ctl watched 0 d 0x11 ∧ (at_ watched 0 d).imagesCause (opOf watched 0 d) = 0)
    ∧ (let d := desc 6 0x13 [(128, 0), (140, 1)]
       Ctl watched 0 d 0x13 ∧ (at_ watched 0 d).watchRangeBad (opOf watched 0 d) = false)
    ∧ (let d := dAt 0x14 here [(128, 1)]
       let s := withRec watched here 128 (16 * 2 ^ 284)
       Ctl s 0 d 0x14 ∧ (at_ s 0 d).imagesCause (opOf s 0 d) = 0 ∧ weHistN ((at_ s 0 d).watchImage (opOf s 0 d) 0) = 16)
    ∧ (let d := dAt 0x12 0xBFFF00 [(128, 0), (140, 1), (152, 1), (153, 1)]
       Ctl watched 0 d 0x12 ∧ (at_ watched 0 d).watchRangeBad (opOf watched 0 d) = false ∧ (at_ watched 0 d).coreOf (opOf watched 0 d) = some 0
       ∧ (at_ watched 0 d).heldBy 0 (some (opOf watched 0 d).ref) (spKey 0 0xBFFF00) 256 = false)
    ∧ (let d := dAt 0x12 0x20000004000 [(128, 0), (140, 1)]
       Ctl watched 0 d 0x12 ∧ (at_ watched 0 d).ctlWriteCause (opOf watched 0 d) 0x20000004000 256 = 0
       ∧ (at_ watched 0 d).decideHold 0 [(0x20000004000, 256)] = false) :=
  ⟨⟨ctl_ok (by decide +kernel), by decide +kernel⟩, ⟨ctl_ok (by decide +kernel), by decide +kernel⟩, ⟨ctl_ok (by decide +kernel), by decide +kernel⟩,
    ⟨ctl_ok (by decide +kernel), by decide +kernel⟩, ⟨ctl_ok (by decide +kernel), by decide +kernel⟩, ctl_ok (by decide +kernel), by decide +kernel⟩

/-- A roll in the last place of a full history (R188): the pointer comes round to 0, the count stays 16. -/
theorem test_roll : (let e := rollEntry (BitVec.ofNat 1024 (place [(224, 0x4000), (280, 15), (284, 16)]))
    (weHistPtr e, weHistN e, weAmaxRun e, fld e 639 624, weBootLeft e) = (0, 16, 0, 0x4000, 0)) := by decide +kernel

/-! ## Frames -/

/-- A record for frame 0 of one layer, owned by function 0, with its layer map in partition 0. -/
def frame1 : Nat := place [(8, 1), (288, 0x20000008000)]

/-- The layer map of frame 0 names page 1. -/
def layered : State :=
  let s := framed 2
  { s with mem := memWrite s.mem 0x20000008000 (leBytes 8 (place [(0, 0x10000), (44, 1)])),
           frames := [(0, { s.frame 0 with record := BitVec.ofNat 512 (frame1 + 7 * 2 ^ 16) })],
           fns := s.fns.set 0 { fn0 with frames := [0], apertures := [(0, { base := 0, units := 1, read := true, write := true, tiered := false, enable := true })] },
           dir := [(0, BitVec.ofNat 64 (place [(0, 1), (8, 1), (10, 0)])), (1, BitVec.ofNat 64 (place [(0, 1), (8, 1), (10, 0)]))] }

/-- FrameDefined: a record that passes, a frame the function owns, a digest that is pending. -/
theorem test_frame_defined :
    (let s := { withRec layered there 64 frame1 with frames := [] }
     Ctl s 1023 (dAt 0x30 there []) 0x30 ∧ (at_ s 1023 (dAt 0x30 there [])).recordCause (opOf s 1023 (dAt 0x30 there [])) there 64 = 0
     ∧ (at_ s 1023 (dAt 0x30 there [])).defineCause (BitVec.ofNat 512 frame1) = 0)
    ∧ Ctl layered 0 (desc 6 0x3E [(128, 0)]) 0x3E ∧ frOwner (layered.frame 0).record = 0 ∧ (layered.frame 0).defined = true
    ∧ ((nxt (.measureFrame 0 (desc 6 0x3E [(128, 0)])) layered).frame 0).digestState = 1 :=
  ⟨⟨ctl_ok (by decide +kernel), by decide +kernel⟩, ctl_ok (by decide +kernel), by decide +kernel⟩

def dRepl : Desc := dAt 0x3A 0x80000000000 [(128, 0), (160, 0x200)]

/-- A replacement stands, with its only layer to be swapped. -/
def replacing (old : Option (Nat × Nat)) : State :=
  let s := nxt (.replaceFrame 0 dRepl) layered
  { s with queues := s.queues.map (fun x => if x.1 = 0 then (0, { x.2 with sequence := old }) else x) }

/-- FrameReplaced: a replacement that starts, one whose layer is ready and is the last, one that waits for a drained sequence. -/
theorem test_replace :
    (Ctl layered 0 dRepl 0x3A ∧ (at_ layered 0 dRepl).replaceCause (opOf layered 0 dRepl) = 0)
    ∧ (let s := replacing none
       (s.frame 0).replace.map (fun r => (s.swapReady 0 (s.frame 0) r, r.swapped)) = some (true, 0) ∧ frLayers (s.frame 0).record ≤ 0 + 1
       ∧ s.layerRuns (s.frame 0).record 0 = [(0x10000, 1)] ∧ (s.frame 0).replace.bind (fun r => s.op? r.op) ≠ none)
    ∧ (let s := replacing (some (0, 7))
       (s.frame 0).replace.map (fun r => (s.swapReady 0 (s.frame 0) r, decide (r.startBeat + (s.fn 0).drainLimit ≤ (timed s).beatNow + 2 ^ 64),
         decide ((0 : FnId) ∉ r.cut))) = some (false, true, true)
       ∧ (frGen (s.frame 0).record + 65535) % 65536 = 7) := by
  refine ⟨⟨ctl_ok (by decide +kernel), by decide +kernel⟩, by decide +kernel, by decide +kernel⟩

/-- A replacement of two layers: the first swap is not the last. -/
theorem test_swap_first : (let s := replacing none
    let fr := { s.frame 0 with record := withFld (s.frame 0).record 15 8 2 }
    (s.setFrame 0 fr |>.frame 0).replace.map (fun r => decide (r.swapped + 1 < frLayers fr.record)) = some true) := by decide +kernel

def dPass (op first : Nat) : Desc := desc 6 op [(128, 0), (136 + op - 0x3B, first)]

/-- PassesRun: a first pass without and behind a barrier, a pass of the drained generation, the ends of passes, the swap policy. -/
theorem test_passes :
    (Ctl layered 0 (dPass 0x3B 1) 0x3B ∧ (layered.frame 0).replace = none ∧ (layered.queue 0).pass = none)
    ∧ (let s := replacing none
       Ctl s 0 (dPass 0x3B 1) 0x3B ∧ Ctl s 0 (dPass 0x3B 0) 0x3B ∧ (s.frame 0).replace.map (fun r => (r.swapped, decide ((0 : FnId) ∉ r.cut))) = some (0, true)
       ∧ (s.fn 0).swapCut = false)
    ∧ (let s := nxt (.passBegin 0 (dPass 0x3B 1)) layered
       Ctl s 0 (dPass 0x3C 1) 0x3C ∧ (s.queue 0).request = none ∧ (s.queue 0).pass = some (0, 7, 0))
    ∧ (let s := { layered with queues := layered.queues.map (fun x => if x.1 = 0 then (0, { x.2 with pass := some (0, 7, 0), request := some (3, 0, 0) }) else x),
                               fns := layered.fns.set 0 { fn0 with classes := [(3, 1)] } }
       Ctl s 0 (dPass 0x3C 1) 0x3C ∧ (s.queue 0).request = some (3, 0, 0) ∧ SMap.get 0 (s.fn 0).classes 3 ≠ 0)
    ∧ Ctl layered 0 (desc 6 0x3D [(160, 1)]) 0x3D ∧ Ctl layered 0 (desc 6 0x3D [(128, 1)]) 0x3D :=
  ⟨⟨ctl_ok (by decide +kernel), by decide +kernel⟩, ⟨ctl_ok (by decide +kernel), ctl_ok (by decide +kernel), by decide +kernel⟩,
    ⟨ctl_ok (by decide +kernel), by decide +kernel⟩, ⟨ctl_ok (by decide +kernel), by decide +kernel⟩, ctl_ok (by decide +kernel), ctl_ok (by decide +kernel)⟩

/-! ## Contexts -/

def dCtx (op c : Nat) (xs : List (Nat × Nat)) : Desc := desc 6 op ([(128, c)] ++ xs)

/-- ContextStates: each transition from each state it allows, on the last context of the function; one outside, one in another state. -/
theorem test_context_states :
    (Ctl (framed 1) 0 (dCtx 0x32 15 []) 0x32 ∧ ((framed 1).fn 0).hasCtx 15 = true ∧ cxState ((framed 1).ctx 15) = 1)
    ∧ (Ctl up 0 (dCtx 0x32 16 []) 0x32 ∧ (up.fn 0).hasCtx 16 = false) ∧ cxState ((framed 2).ctx 15) ≠ 1
    ∧ (let s := (framed 2).setCtx 15 (withFld (withFld ((framed 2).ctx 15) 239 196 0x8000) 299 256 0x10000)
       Ctl s 0 (dCtx 0x33 15 []) 0x33 ∧ cxSlice1 (s.ctx 15) ≠ 0 ∧ cxOptAddr (s.ctx 15) ≠ 0 ∧ cxState (s.ctx 15) = 2)
    ∧ (Ctl (framed 1) 0 (dCtx 0x33 15 []) 0x33 ∧ cxSlice1 ((framed 1).ctx 15) = 0)
    ∧ (Ctl (framed 3) 0 (dCtx 0x34 15 []) 0x34 ∧ (framed 3).mapped 0 = false)
    ∧ (Ctl (framed 4) 0 (dCtx 0x38 15 []) 0x38 ∧ cxState ((framed 4).ctx 15) = 4)
    ∧ (cxState ((framed 5).ctx 15) = 5 ∧ cxRefs ((framed 5).ctx 15) = 0 ∧ (nxt (.contextScrub 15 true) (framed 5)).ctx 15 = ctxReset) :=
  ⟨⟨ctl_ok (by decide +kernel), by decide +kernel⟩, ⟨ctl_ok (by decide +kernel), by decide +kernel⟩, by decide +kernel,
    ⟨ctl_ok (by decide +kernel), by decide +kernel⟩, ⟨ctl_ok (by decide +kernel), by decide +kernel⟩, ⟨ctl_ok (by decide +kernel), by decide +kernel⟩,
    ⟨ctl_ok (by decide +kernel), by decide +kernel⟩, by decide +kernel⟩

/-- An image for frame 0 with one target and one expert on mortise m. -/
def image (m : Nat) : Nat := place [(38, 1), (48, 0x3F80), (64, 1), (172, 256), (448, m), (454, 1), (476, 1)]

/-- Mortises 0 to 3 of frame 0 are the function's. -/
def ranged (m : Nat) : State :=
  let s := withRec (framed 2) here 128 (image m)
  { s with fns := s.fns.set 0 { fn0 with frames := [0], mortises := [(0, (0, 4))] } }

/-- ContextConfigured: an image that passes, on the last mortise of the range, and one beyond it. -/
theorem test_configure :
    (let d := dAt 0x31 here [(128, 14)]
     Ctl (ranged 3) 0 d 0x31 ∧ (at_ (ranged 3) 0 d).recordCause (opOf (ranged 3) 0 d) here 128 = 0 ∧ ((ranged 3).fn 0).hasCtx 14 = true
     ∧ cxState ((ranged 3).ctx 14) = 0 ∧ ((at_ (ranged 3) 0 d).configureCauses 0 14 (BitVec.ofNat 1024 (image 3))).all (fun x => !x.1) = true)
    ∧ (let d := dAt 0x31 here [(128, 14)]
       Ctl (ranged 4) 0 d 0x31
       ∧ (at_ (ranged 4) 0 d).claimsRefusal 0 0 14 [] (cxClaims (BitVec.ofNat 1024 (image 4))) ∈ [0x30, 0x31, 0x32, 0x33]) :=
  ⟨⟨ctl_ok (by decide +kernel), by decide +kernel⟩, ctl_ok (by decide +kernel), by decide +kernel⟩

/-- ContextChecks: a relocation, a promotion of the only layer, a probe of a stale generation that agrees and one that does not, a read. -/
theorem test_context_checks :
    (let d := dAt 0x35 0x10000 [(128, 15), (160, 512)]
     let s := framed 2
     let moved := withFld (withFld (s.ctx 15) 171 128 0x10000) 195 172 512
     Ctl s 0 d 0x35 ∧ ctxShapeBad (s.frame 0) moved = false ∧ (at_ s 0 d).ctxPlaced 0 (s.frame 0) moved = true)
    ∧ (let d := dCtx 0x36 15 []
       Ctl (framed 2) 0 d 0x36 ∧ ((at_ (framed 2) 0 d).layerSlices 15 0 0).all (fun z =>
         decide ((at_ (framed 2) 0 d).gatherCause 0 z = 0) && !(at_ (framed 2) 0 d).gatherWaits 0 z) = true)
    ∧ (let d := dCtx 0x37 15 [(144, 0xBFFFFC)]
       let s := (framed 2).setCtx 15 (withFld (withFld ((framed 2).ctx 15) 115 100 6) 434 428 1)
       Ctl s 0 d 0x37 ∧ cxFrameGen (s.ctx 15) ≠ frGen (s.frame 0).record ∧ (at_ s 0 d).coreOf (opOf s 0 d) = some 0
       ∧ probePass (s.frame 0).record 0 0 = true ∧ probePass (s.frame 0).record 0x3F80 0 = false)
    ∧ (let d := dAt 0x39 0x20000004000 [(128, 15)]
       Ctl (framed 2) 0 d 0x39 ∧ (at_ (framed 2) 0 d).ctlWriteCause (opOf (framed 2) 0 d) 0x20000004000 128 = 0
       ∧ (at_ (framed 2) 0 d).decideHold 0 [(0x20000004000, 128)] = false) :=
  ⟨⟨ctl_ok (by decide +kernel), by decide +kernel⟩, ⟨ctl_ok (by decide +kernel), by decide +kernel⟩, ⟨ctl_ok (by decide +kernel), by decide +kernel⟩,
    ctl_ok (by decide +kernel), by decide +kernel⟩

/-! ## Queues and the link -/

/-- An untiered aperture of one unit at the companion's start. -/
def wide : Aperture := { base := 0, units := 1, read := true, write := true, tiered := false, enable := true }


/-- QueueSet: a record that passes, with ENABLE and without; coalescing and event vector of the role and of the function. -/
theorem test_queue_set :
    (let s := { withRec up here 64 (queueRec 3 0 0).toNat with fns := up.fns.set 0 { fn0 with apertures := [(0, wide)] } }
     Ctl s 0 (dAt 0x5A here []) 0x5A ∧ (at_ s 0 (dAt 0x5A here [])).recordCause (opOf s 0 (dAt 0x5A here [])) here 64 = 0
     ∧ (at_ s 0 (dAt 0x5A here [])).setQueueCause (opOf s 0 (dAt 0x5A here [])) (queueRec 3 0 0) = 0
     ∧ (at_ s 0 (dAt 0x5A here [])).setQueueCause (opOf s 0 (dAt 0x5A here [])) (withFld (queueRec 3 0 0) 316 316 0) = 0)
    ∧ Ctl up 0 (desc 6 0x5B [(128, 255)]) 0x5B ∧ Ctl up 1023 (desc 6 0x5B [(128, 255)]) 0x5B
    ∧ Ctl up 0 (dAt 0x5C 0x9000 []) 0x5C ∧ Ctl up 1023 (dAt 0x5C 0x9000 []) 0x5C
    ∧ up.isMgmt (opOf up 0 (desc 6 0x5B [])) = false ∧ up.isMgmt (opOf up 1023 (desc 6 0x5B [])) = true :=
  ⟨⟨ctl_ok (by decide +kernel), by decide +kernel⟩, ctl_ok (by decide +kernel), ctl_ok (by decide +kernel), ctl_ok (by decide +kernel),
    ctl_ok (by decide +kernel), by decide +kernel⟩

/-- A descriptor that sets the seed stands at the ring's last place, with HEAD there. -/
def ringed : State :=
  let s := up.setQueue 0 { up.queue 0 with head := 63, tail := 63 }
  withRec s (compKey (0x1000 + 64 * 63)) 64 (desc 6 3 [(64, 9)]).toNat

/-- QueueWatched: a tail of one more, one more than the ring holds; a completion head that empties the ring for one waiting record; a timer. -/
theorem test_watchers :
    (let x := ringed.queue 0
     let m := ringed.write (compKey 0x8000) (leBytes 4 64)
     let u := m.setQueue 0 { x with tail := 64 }
     x.enabled = true ∧ x.stopped = false ∧ (64 : Word) = x.head + 1 ∧ u.dispatching 0 = true ∧ u.room x.mgmt x.owner = true
     ∧ u.headerCause 0 (BitVec.ofNat 512 (m.nat (compKey (0x1000 + 64 * 63)) 64)) = 0
     ∧ (nxt (.tailWrite 0 64) ringed).ops.length = 1)
    ∧ (2 ^ 6 < ((128 : Word) - (ringed.queue 0).head).toNat ∧ ((nxt (.tailWrite 0 128) ringed).queue 0).stopped = true)
    ∧ (let s := up.setQueue 0 { up.queue 0 with cplIndex := 64, waiting := [1] }
       ((nxt (.cplHeadWrite 0 64) s).queue 0).waiting = [] ∧ ((nxt (.cplHeadWrite 0 64) s).queue 0).cplIndex = 65 ∧ flag (1 : Record) 511 = false)
    ∧ ((nxt (.coalesceTimer 0) (up.setQueue 0 { up.queue 0 with timer := true, irqPending := 1 })).queue 0).irqPending = 0 := by
  decide +kernel

/-- DarlekLink: a line that no queue watches and no page of which is tiered, its ports up and down. -/
theorem test_link :
    pgTier (up.page (compKey 0xA000 / 65536)) ≠ 2
    ∧ up.queues.all (fun x => decide (fld x.2.record 90 48 / 64 * 64 ≠ 0xA000) && decide (fld x.2.record 224 182 / 64 * 64 ≠ 0xA000)) = true
    ∧ up.boot.dlk0 = 0 ∧ up.boot.dlk1 = 0 ∧ up.boot.fault = false
    ∧ ((nxt (.darlekPortLoss 1 2) up).boot.dlk0, (nxt (.darlekPortLoss 1 2) up).boot.dlk1) = (0, 3)
    ∧ (let s := { up with boot := { up.boot with dlk1 := 2 } }
       (nxt (.snoop 0) s).reg 0 0x60104C = 1 ∧ (nxt (.flit 1 false) s).reg 0 0x601044 = 1) := by
  decide +kernel


/-! ## Step commit -/

/-- Member 1 of job 5 and master of its two members, with READYs that have come. -/
def mastering (readies : List (BitVec 16)) : State :=
  let s := timed up
  { s with
    regs := SMap.put 0 up.regs (regKey 0 0x5C) 1, beat := { s.beat with master := 1, backup := 2 },
    jobs := [(5, { MasterJob.reset with members := 2, readies := readies })] }

/-- MasterDecides: the first READY and the last, a vote, a package below the master. -/
theorem test_master :
    (let m := up.beatMsg 5 1 5 0 9
     bmKind m = 5 ∧ bmArg1 m = 5 ∧ bmOrigin m = 9 ∧ bmNumber m = 1
     ∧ (∀ r ∈ [[], [(7 : BitVec 16)]], (mastering r).isMaster = true ∧ ((mastering r).job 5).members = 2 ∧ ((mastering r).job 5).ignores 1 = false
       ∧ (9 : BitVec 16) ∉ ((mastering r).job 5).readies ∧ (((mastering r).job 5).readies.length + 1 < 2 ↔ r = [])))
    ∧ bmKind (up.beatMsg 8 1 5 2 9) = 8 ∧ ((up.setPort 3 { Port.reset with st := 3 }).isMaster = false) := by decide +kernel

/-- A decision for the backup, sent at beat 100, with the beat at 1,000. -/
def decidedState : State := { mastering [] with
  jobs := [(5, { MasterJob.reset with members := 2, sentBeat := 100, decision := some { isCommit := true, step := 1, cause := 0, aborts := 0, final := false } })] }

/-- BackupHolds: the backup, an echo and its absence, a job's registration and removal. -/
theorem test_backup :
    ({ mastering [] with beat := { (mastering []).beat with master := 2, backup := 1 } } : State).isBackup = true
    ∧ decidedState.isMaster = true ∧ (decidedState.job 5).echoed = false ∧ ((decidedState.job 5).decision.map (·.step)) = some 1
    ∧ decidedState.beat.backup = 2 ∧ (decidedState.job 5).sentBeat + 2 * decidedState.beat.lead ≤ decidedState.beatNow
    ∧ field (5 + 1 * 2 ^ 32) 48 48 = 0 ∧ (decidedState.job 5).members ≠ 0 ∧ field (5 + 2 ^ 48) 48 48 = 1 := by decide +kernel

/-- Function 0 belongs to job 5, whose step 1 is open. -/
def inJob (st : StepState) : State :=
  { timed up with fns := up.fns.set 0 { fn0 with job := { JobState.reset with st := 1, map := 5 }, step := st } }

/-- DecisionsHeld: a COMMIT and an ABORT from the parent, and a decision for a function's open step. -/
theorem test_decisions :
    (let s := { up.setPort 3 { Port.reset with st := 3 } with beat := { up.beat with parent := some 3 } }
     (s.port 3).st = 3 ∧ bmKind (s.beatMsg 6 1 5 0 1) = 6 ∧ bmKind (s.beatMsg 7 1 5 0 1) = 7)
    ∧ (let s := inJob StepState.reset
       s.jobFns 5 = [0] ∧ (s.fn 0).step.decision = none ∧ (s.fn 0).step.commitBeat = none ∧ s.openStep 0 = 1) := by decide +kernel

/-- MemberReports: a report behind an earlier operation, after a failure, after a decision, and one that is sent; a pair; a lost decision. -/
theorem test_member :
    (let d := desc 6 0x46 []
     (∀ st ∈ [StepState.reset, { StepState.reset with fail := true }, { StepState.reset with decision := some ⟨true, 1, 0, 0, false⟩ }],
        let s := inJob st
        (startsB s 0 d && decide (hdClass d = 6) && decide (hdOp d = 0x46)) = true ∧ (at_ s 0 d).issuedBefore (opOf s 0 d) = false
        ∧ (at_ s 0 d).mapped 0 = true ∧ (at_ s 0 d).power.groupOn = false ∧ flag d 64 = false)
     ∧ startsB up 0 d = true ∧ (at_ up 0 d).mapped 0 = false
     ∧ (let s := nxt (.trussSum 0 (tru 0)) leaves
        startsB s 0 d = true ∧ (at_ s 0 d).issuedBefore (opOf s 0 d) = true))
    ∧ (let d := dAt 0x45 0x20000008000 [(128, 0x20000010000), (172, 256)]
       (startsB up 0 d && decide (hdClass d = 6) && decide (hdOp d = 0x45)) = true ∧ (at_ up 0 d).pairCause (opOf up 0 d) = 0)
    ∧ (let s := inJob { StepState.reset with commitBeat := some 0, ready := true }
       let t : State := { s with beat := { s.beat with number := 4096 } }
       (t.fn 0).step.commitBeat = some 0 ∧ 0 + 4096 ≤ t.beatNow ∧ (t.fn 0).job.st ≠ 3 ∧ ((nxt (.decideLost 0) t).fn 0).job.st = 3) := by decide +kernel

/-! ## Jobs -/

/-- A map of job 5 over a package alone, with a step of 8 beats. -/
def map1 : Nat := place [(0, 5), (112, 8)]

/-- A receiving stage queue 63 of 64 slots of 128 bytes at offset 0x10000 of partition 0, and a sending one. -/
def stage (end_ : Nat) : Nat := place [(0, 63), (7, end_), (8, 63), (32, 1), (64, 0x20000010000)]

/-- JobSet: a map that passes with and without an open step, one that leaves too little time, a stage queue, a slot that is freed. -/
theorem test_job_set :
    (let d := dAt 0x40 here []
     (∀ m ∈ [map1, map1 + 2 ^ 300], let s := withRec up here 64 m
       (startsB s 0 d && decide (hdClass d = 6) && decide (hdOp d = 0x40)) = true ∧ (at_ s 0 d).recordCause (opOf s 0 d) here 64 = 0
       ∧ ((at_ s 0 d).jobMapCause 0 (BitVec.ofNat 512 m) = 0 ↔ m = map1) ∧ (at_ s 0 d).stepOpen 0 = false)
     ∧ (let s := withRec (inJob { StepState.reset with sent := true }) here 64 map1
        startsB s 0 d = true ∧ (at_ s 0 d).jobMapCause 0 (BitVec.ofNat 512 map1) = 0 ∧ (at_ s 0 d).stepOpen 0 = true))
    ∧ (let d := dAt 0x41 here []
       ∀ e ∈ [0, 1], let s := withRec up here 32 (stage e)
        (startsB s 0 d && decide (hdClass d = 6) && decide (hdOp d = 0x41)) = true ∧ (at_ s 0 d).recordCause (opOf s 0 d) here 32 = 0
        ∧ (at_ s 0 d).stageQueueBad 0 (BitVec.ofNat 256 (stage e)) = false)
    ∧ (let s := nxt (.setStageQueue 0 (dAt 0x41 here [])) (withRec up here 32 (stage 0))
       let d := desc 6 0x42 [(128, 63), (160, 7)]
       let x : StageQ := { record := BitVec.ofNat 256 (stage 0), credits := 64, nextMb := 0, held := [7] }
       let t : State := { s with fns := s.fns.set 0 { s.fn 0 with job := { (s.fn 0).job with stages := [(63, some x)] } } }
       (startsB t 0 d && decide (hdClass d = 6) && decide (hdOp d = 0x42)) = true ∧ t.stageQ? 0 63 = some x ∧ sqEnd x.record = 0 ∧ sgFreeMb d ∈ x.held
       ∧ s.stageQ? 0 63 = some { x with held := [] }) := by decide +kernel

/-- A list of one region, 128 bytes of page 0, at the start of core 0's scratchpad. -/
def listed (s : State) : State := { s with mem := memWrite s.mem (spKey 0 0) (leBytes 16 (place [(64, 1), (96, 9)])) }

/-- A checkpoint record of that region, of step 3, at companion address 0. -/
def ckptRec : Nat := place [(0, 1), (64, 3), (208, 1), (1984, 3 + 2 ^ 32 + 0xC7A1 * 2 ^ 48), (2048 + 64, 128), (2048 + 112, 384)]

def saving (st : Nat) : State := (listed { paged with fns := paged.fns.set 0 { fn0 with
  apertures := [(0, wide)], job := { JobState.reset with st := st, map := if st = 0 then 0 else 5 }, step := { StepState.reset with sent := true } } })

/-- Checkpoints: a save with and without an open step, a restore that passes its checks. -/
theorem test_checkpoints :
    (∀ st ∈ [0, 1], let s := saving st
     let d := dAt 0x43 0x80000000000 []
     (startsB s 0 d && decide (hdClass d = 6) && decide (hdOp d = 0x43)) = true ∧ onCoreB (at_ s 0 d) (opOf s 0 d) 0 = true
     ∧ (at_ s 0 d).regionList (spKey 0 0) 1 = [(0, 128, 9)] ∧ (at_ s 0 d).saveCause (opOf s 0 d) [(0, 128, 9)] = 0
     ∧ ((at_ s 0 d).stepOpen 0 = true ↔ st = 1))
    ∧ (let s := { saving 0 with mem := memWrite (saving 0).mem 0x80000000000 (leBytes 512 ckptRec) }
       let d := dAt 0x44 0x80000000000 []
       (startsB s 0 d && decide (hdClass d = 6) && decide (hdOp d = 0x44)) = true ∧ onCoreB (at_ s 0 d) (opOf s 0 d) 0 = true
       ∧ (at_ s 0 d).restoreCause (opOf s 0 d) [(0, 128, 9)] = 0 ∧ (at_ s 0 d).decideHold 0 [(0, 128)] = false) := by decide +kernel

/-! ## Collectives and reduction frames -/

/-- Function 0 in job 5 of two packages along axis 0, this one at position 0; port 0 leads to the other. -/
def teamed : State :=
  let rec1 : BitVec 4096 := BitVec.ofNat 4096 (rec0.toNat + place [(1280, 10), (1288, 1)])
  { paged with
    fns := paged.fns.set 0 { fn0 with
      record := rec1, apertures := [(0, wide)],
      job := { JobState.reset with st := 1, map := BitVec.ofNat 512 (place [(0, 5), (32, 1)]), topo := 1,
                                   stages := [(63, some { record := BitVec.ofNat 256 (stage 1), credits := 64, nextMb := 3, held := [] })] },
      step := { StepState.reset with pairs := [(0x20000004000, 0x20000008000, 128)] } },
    ports := [(0, { Port.reset with st := 3, credits := List.replicate 19 1000 })],
    boot := { paged.boot with lenM1 := 1 } }

/-- A reduce of 64 BF16 elements of channel 0 at a step that sends or one that accumulates. -/
def red (thin : Nat) : Desc := desc 4 2 [(196, 1), (200, 1), (218, thin), (224, 63), (256, 7), (288, 0x20000001000), (356, 0x20000002000),
  (400, if thin = 0 then 0 else 0x20000004000), (444, 500)]

def gateB (b : State) (o : Op) (reads writes : List (Nat × Nat)) : Bool :=
  decide (b.oldKeyPages (b.tieredPages o.fn (writes.map (fun r => (b.writeAddr o.fn r.1, r.2)))) = [])
  && !(b.tieredPages o.fn (reads.map (fun r => (b.readAddr o.fn r.1, r.2)) ++ writes.map (fun r => (b.writeAddr o.fn r.1, r.2)))).any b.pageBusy
  && decide (b.windowWait? o.fn (reads.flatMap (fun r => if region r.1 = .llm then partsOf r.1 r.2 else [])) = none)
  && !b.stageWait o.fn reads && !b.decideHold o.fn (reads ++ writes)
  && reads.all (fun r => b.poison.all (fun p => !overlaps (b.readAddr o.fn r.1) r.2 (64 * p) 64))

theorem gate_ok {b : State} {o : Op} {reads writes : List (Nat × Nat)} (h : gateB b o reads writes = true) : GateOpen b o reads writes := by
  simp only [gateB, Bool.and_eq_true, decide_eq_true_eq, Bool.not_eq_true', List.all_eq_true] at h
  obtain ⟨⟨⟨⟨⟨h1, h2⟩, h3⟩, h4⟩, h5⟩, h6⟩ := h
  exact ⟨h1, h2, h3, h4, h5, h6⟩

/-- A first reduce stands on the channel. -/
def reducing : State := nxt (.reduce 0 (red 0)) teamed

/-- CollectivesIssue: reduces, the second of a channel and one that accumulates. -/
theorem test_reduce_issue :
    (let s := teamed
     startsB s 0 (red 1) = true ∧ (at_ s 0 (red 1)).reduceCause (opOf s 0 (red 1)) = 0 ∧ rdSends (red 1) = false
     ∧ gateB (at_ s 0 (red 1)) (opOf s 0 (red 1)) (rdReads (red 1)) (rdWrites (red 1)) = true ∧ (at_ s 0 (red 1)).channelReduces 0 0 = []
     ∧ ((at_ s 0 (red 1)).op? (opOf s 0 (red 1)).ref).isSome = true)
    ∧ (let s : State := { reducing with ops := reducing.ops.map (fun o => { o with desc := desc 4 2 [] }) }
       let d : Desc := withFld (red 0) 387 356 0x3000
       startsB s 0 d = true ∧ (at_ s 0 d).reduceCause (opOf s 0 d) = 0 ∧ gateB (at_ s 0 d) (opOf s 0 d) (rdReads d) (rdWrites d) = true
       ∧ (at_ s 0 d).channelReduces 0 0 ≠ [] ∧ ((at_ s 0 d).channelReduces 0 0).all (fun y => y.started && y.ended.isNone) = true) := by
  decide +kernel

/-- A gather of two shards of 128 bytes into partition 0. -/
def gather : Desc := desc 4 3 [(64, 0x20000001000), (108, 0x20000002000)]

/-- CollectivesIssue: a gather, a stage send, a scarf without pieces of a region of 128 bytes, and its last round. -/
theorem test_collectives :
    (let o := opOf teamed 0 gather
     let b := at_ teamed 0 gather
     startsB teamed 0 gather = true ∧ hdClass gather = 4 ∧ hdOp gather = 3 ∧ axesOf (sgAxes gather) ≠ [] ∧ b.shardCause o = 0 ∧ sgDstSp gather = 0
     ∧ gateB b o [(sgSrcAddr gather, sgBytes gather)] (b.gatherDst 0 gather) = true
     ∧ b.tieredPages 0 [(b.readAddr 0 (sgSrcAddr gather), sgBytes gather)] = []
     ∧ b.tieredPages 0 ((b.gatherDst 0 gather).map (fun r => (b.writeAddr 0 r.1, r.2))) = [])
    ∧ (let d := desc 4 4 [(64, 63), (70, 3), (102, 0x20000001000)]
       let o := opOf teamed 0 d
       let b := at_ teamed 0 d
       startsB teamed 0 d = true ∧ b.stageSendCause o = 0 ∧ (b.stageQ? 0 63).map (·.credits) = some 64 ∧ b.stageSource 0 d = some 0x20000001000
       ∧ b.stageWait 0 [(0x20000001000, ssBytes d)] = false ∧ gateB b o [(ssSrcAddr d, ssBytes d)] [] = true)
    ∧ (let d := desc 4 5 [(64, 0), (108, 1), (193, 1)]
       let s : State := { teamed with mem := memWrite teamed.mem (spKey 0 0) (leBytes 16 (place [(94, 1)])) }
       let o := opOf s 0 d
       let b := at_ s 0 d
       startsB s 0 d = true ∧ b.phys? 0 (sfPcore d) = some 0 ∧ b.scarfCause o (b.pieces 0 d) = 0 ∧ b.moving 0 (sfPcore d) = false
       ∧ gateB b o [(sfRegion d, sfBytes d)] [(sfRegion d, sfBytes d)] = true
       ∧ (∀ rounds ∈ [0, 1], let t := nxt (.scarf 0 (desc 4 5 [(64, 0), (108, 1), (185, rounds), (193, 1)])) s
          let j := { (t.fn 0).job with scarf := (t.fn 0).job.scarf.map (fun z => { z with written := [0] }) }
          let u : State := { t with fns := t.fns.set 0 { t.fn 0 with job := j } }
          (u.fn 0).job.scarf.map (fun z => (u.roundDone 0 z, z.done, decide (z.round = sfRoundsM1 z.desc), (u.op? z.op).map (·.cause)))
            = some (true, false, decide (rounds = 0), some 0)))
    ∧ (startsB (timed up) 0 (desc 5 0 [(64, 1000)]) = true ∧ (at_ (timed up) 0 (desc 5 0 [(64, 1000)])).atBeat (desc 5 0 [(64, 1000)]) = true
      ∧ startsB up 0 (desc 5 0 []) = true ∧ (up.fn 0).active = none) := by decide +kernel

/-- A reduction frame of collective 7 on channel 0: type, chunk word, FIRST, COUNT_M1 and WEXP of its sub-header, and a body. -/
def redFr (type sub : Nat) (body : List Byte) : Frame := mkFrame type true 0 0 0 1 (leBytes 16 (7 + sub) ++ body)

def arrivesB (s : State) (p : Nat) (fr : Frame) (type : Nat) (f : FnId) : Bool :=
  s.takes p fr type && decide (s.openFrame fr = some fr) && decide (s.channelOwner p (fhChannel fr.hdr) = some f)

/-- ReductionFrames: a window, a result, partials of the agreed window, of another and with a bad residue reach the collective; without one a
frame is kept or late; a resend finds its chunk; the timeout at its last beat and the one before. -/
theorem test_reduction_frames :
    (let part := redFr 5 0 (leBytes 8 1 ++ leBytes 1 (rho 1))
     arrivesB reducing 0 (redFr 4 0 []) 4 0 = true ∧ arrivesB reducing 0 (redFr 6 0 []) 6 0 = true ∧ arrivesB reducing 0 part 5 0 = true
     ∧ (reducing.channelReduces 0 0).map (fun x => (x.started, rdCollTag x.desc, x.chunks.length, x.chunks.map (fun y => decide (y.high = [])),
          reducing.linkFrom x 0 0)) = [(true, 7, 1, [true], some 1)]
     ∧ rsWexp (redHead part) = 0 ∧ residuesOk part 1 ((payloadNums part 0 8 1).map (toSigned 64)) = true
     ∧ (let bad := redFr 5 0 (leBytes 8 1 ++ leBytes 1 (rho 1 + 1))
        arrivesB reducing 0 bad 5 0 = true ∧ residuesOk bad 1 ((payloadNums bad 0 8 1).map (toSigned 64)) = false))
    ∧ (arrivesB teamed 0 (redFr 4 0 []) 4 0 = true ∧ teamed.channelReduces 0 0 = [] ∧ (0, 0, rsTag (redHead (redFr 4 0 []))) ∉ teamed.redDone)
    ∧ (let s : State := { teamed with ports := [(0, { teamed.port 0 with store := [(7, 0, [redFr 5 0 []])] })] }
       arrivesB s 0 (redFr 7 0 []) 7 0 = true
       ∧ (s.port 0).store.find? (fun e => decide (e.1 = rsTag (redHead (redFr 7 0 []))) && decide (e.2.1 = 0)) = some (7, 0, [redFr 5 0 []]))
    ∧ (reducing.reduces.length = 1 ∧ (reducing.reduces.map (fun x => (reducing.op? x.op).map (fun o => (o.named 0 7, reducing.hasDeadline o))))
        = [some (true, false)] ∧ rdTimeout (red 0) = 500) :=
  ⟨by decide +kernel, by decide +kernel, by decide +kernel, by decide +kernel⟩

/-! ## Functions -/

/-- A record of one core, queues 4 to 7 and partition 2. -/
def rec1 : Nat := place [(32, 1), (96, 4 + 4 * 1024), (3584, 4)]

def dFn (op f : Nat) (xs : List (Nat × Nat)) : Desc := desc 6 op ([(64, there), (128, f)] ++ xs)

/-- Function 0 with a resize that takes effect at beat 1,100, at a beat. -/
def resizing (now : Nat) : State :=
  let s := nxt (.resize 1023 (dFn 0x51 0 [(192, 1100)])) (timed (withRec up there 512 rec0.toNat))
  { s with beat := { s.beat with number := BitVec.ofNat 64 now } }

/-- FunctionsMade: a create that passes and one of a running function; a resize that stands, one too soon; its beat and the one before. -/
theorem test_functions_made :
    (∀ f ∈ [0, 1], let s := withRec up there 512 rec1
     let d := dFn 0x50 f []
     (startsB s 1023 d && decide (hdClass d = 6) && decide (hdOp d = 0x50)) = true ∧ (at_ s 1023 d).recordCause (opOf s 1023 d) there 512 = 0
     ∧ ((at_ s 1023 d).createCause (ctFn d) ((at_ s 1023 d).resourceRecord (opOf s 1023 d)) = 0 ↔ f = 1))
    ∧ (∀ e ∈ [1001, 1100], let s := timed (withRec up there 512 rec0.toNat)
       let d := dFn 0x51 0 [(192, e)]
       (startsB s 1023 d && decide (hdClass d = 6) && decide (hdOp d = 0x51)) = true ∧ (at_ s 1023 d).recordCause (opOf s 1023 d) there 512 = 0
       ∧ (at_ s 1023 d).resizeCause 0 rec0 = 0 ∧ (s.fn 0).active = none ∧ (s.fn 0).pendingPlan = none ∧ (s.fn 0).classes = []
       ∧ (at_ s 1023 d).quietUnplaced 0 { Fn.reset with record := rec0 } 0 = false ∧ (e < s.beatNow + s.beat.lead ↔ e = 1001))
    ∧ (∀ now ∈ [1099, 1100, 1101], let s := resizing now
       ((s.fn 0).resize.map (fun z => (s.op? z.op).isSome)) = some true ∧ (s.fn 0).active = none ∧ (s.fn 0).mapOp = none ∧ s.beatNow = now) :=
  ⟨by decide +kernel, by decide +kernel, by decide +kernel⟩

def dOff (abort n : Nat) : Desc := desc 6 0x55 [(128, 0), (134, abort), (160, n)]

/-- FunctionsDisabled: a drain, an abort, no drain beats; its end with an operation left; scrubbing and off. -/
theorem test_functions_disabled :
    (∀ k ∈ [(0, 5), (1, 5), (0, 0)], (startsB up 1023 (dOff k.1 k.2) && decide (hdClass (dOff k.1 k.2) = 6) && decide (hdOp (dOff k.1 k.2) = 0x55)) = true)
    ∧ ((up.fn 0).resize = none ∧ (up.fn 0).freeze = none ∧ (up.fn 0).mapOp = none)
    ∧ (let s := nxt (.disable 1023 (dOff 0 5)) up
       (s.fn 0).st = .draining ∧ s.opsOf 0 = [] ∧ ((nxt (.functionScrubbing 0) s).fn 0).st = .scrubbing
       ∧ (let t := nxt (.disable 1023 (dOff 0 5)) (nxt (.add 0 (vec 2) false) up)
          t.opsOf 0 ≠ [] ∧ (t.fn 0).drainEnd = t.beatNow + 5))
    ∧ (let s := nxt (.functionScrubbing 0) (nxt (.disable 1023 (dOff 0 5)) { up with cells := State.reset.cells })
       let t : State := { s with parts := [] }
       (t.fn 0).st = .scrubbing ∧ t.allReturned 0 = true ∧ ((t.fn 0).disableOp.map (fun r => (t.op? r).isSome)) = some true) :=
  ⟨by decide +kernel, by decide +kernel, by decide +kernel, by decide +kernel⟩

/-- An image with no section stands at the management address, of a function of one core. -/
def imageHead : Nat := place [(0, 1), (16, 1), (40, 1), (64, 256), (1984, 2), (2032, 0xF7E2)]

/-- Function 2 runs without resources, and waits for a cell map or for nothing. -/
def bare (mapOp : Option OpRef) : State := { up with fns := up.fns.set 2 { Fn.reset with st := .running, mapOp := mapOp } }

/-- FreezeAndRestore: a freeze that waits, one that does not, one of a function that is off; a thaw in time and too soon; a restore's checks. -/
theorem test_freeze :
    (∀ k ∈ [(2, none), (2, some (1, 9)), (3, none)], let d := dFn 0x52 k.1 []
     let b := at_ (bare k.2) 1023 d
     let o := opOf (bare k.2) 1023 d
     (startsB (bare k.2) 1023 d && decide (hdClass d = 6) && decide (hdOp d = 0x52)) = true ∧ (k.1 = 3 → b.freezeCause o (ctFn d) ≠ 0)
     ∧ (b.fn (ctFn d)).freeze = none ∧ (k.1 = 2 → ((b.startFreeze o 2).freezeWaits 2 = true ↔ k.2.isSome = true)))
    ∧ (let s := timed { up with fns := up.fns.set 0 { fn0 with st := .frozen } }
       ∀ beat ∈ [1001, 1100], let d := desc 6 0x53 [(128, 0), (192, beat)]
        (startsB s 1023 d && decide (hdClass d = 6) && decide (hdOp d = 0x53)) = true ∧ (s.fn 0).st = .frozen
        ∧ (beat < s.beatNow + s.beat.lead ↔ beat = 1001))
    ∧ (let s := withRec up there 256 imageHead
       let d := dFn 0x54 1 []
       (startsB s 1023 d && decide (hdClass d = 6) && decide (hdOp d = 0x54)) = true ∧ (at_ s 1023 d).recordCause (opOf s 1023 d) there 256 = 0
       ∧ (at_ s 1023 d).mgmtCause there (max 256 (ihLen imageHead)) = 0) :=
  ⟨by decide +kernel, by decide +kernel, by decide +kernel⟩

/-- FunctionSettings: a bound frame and one that no record defines, an unbind, a range at its bound and beyond it, an aperture, the extension. -/
theorem test_settings :
    (∀ k ∈ [(0, 0), (1, 0), (0, 1)], let d := desc 6 0x57 [(136, k.1), (144, k.2)]
     (startsB (framed 2) 1023 d && decide (hdClass d = 6) && decide (hdOp d = 0x57)) = true
     ∧ (((framed 2).frame k.1).defined = true ↔ k.1 = 0) ∧ ctFn d = 0 ∧ 0 ∈ ((framed 2).fn 0).frames ∧ flag d 144 = decide (k.2 = 1))
    ∧ (∀ n ∈ [62, 63], let d := desc 6 0x58 [(136, 0), (144, 2), (150, n)]
       (startsB (framed 2) 1023 d && decide (hdClass d = 6) && decide (hdOp d = 0x58)) = true ∧ (2 + n ≤ 64 ↔ n = 62)
       ∧ (framed 2).mortiseMeets 0 0 2 62 = false)
    ∧ (∀ k ∈ [(0x80000000000, 0), (0x20000000000, 0), (0x80000000000, 1)], let d := desc 6 0x59 [(64, k.1), (144, 1), (176, 3), (179, 1), (180, k.2)]
       (startsB up 1023 d && decide (hdClass d = 6) && decide (hdOp d = 0x59)) = true ∧ flag d 180 = decide (k.2 = 1)
       ∧ (k.2 = 0 → ((at_ up 1023 d).apertureCause 0 d = 0 ↔ k.1 = 0x80000000000))
       ∧ (k.2 = 1 → region (ctAddr d) = .companion ∧ aperturesBad (up.apertures.map (fun y => y.2.2)) (some (ctAddr d - 2 ^ 43)) = false)) :=
  ⟨by decide +kernel, by decide +kernel, by decide +kernel⟩

/-- Function 0 with a window of two slots, READY and draining. -/
def windowed : State :=
  { up with fns := up.fns.set 0 { fn0 with window := [{ WSlot.empty 1 with st := 2 }, { WSlot.empty 2 with st := 3 }] } }

/-- PartitionsSet: a partition of the function, one it uses, another's; a window, its slots, counters, and a partition being scrubbed. -/
theorem test_partitions :
    (∀ p ∈ [1, 2], let d := desc 6 0x20 [(128, p)]
     (startsB up 0 d && decide (hdClass d = 6) && decide (hdOp d = 0x20)) = true ∧ ((at_ up 0 d).hasPart 0 p = true ↔ p = 1) ∧ (at_ up 0 d).partBusy 0 p = false)
    ∧ (let d := dAt 0x21 here [(128, 2)]
       let s := withRec up here 16 2
       (startsB s 0 d && decide (hdClass d = 6) && decide (hdOp d = 0x21)) = true ∧ (at_ s 0 d).windowCause (opOf s 0 d) = 0)
    ∧ (∀ j ∈ [0, 1], let d := desc 6 0x22 [(128, j)]
       (startsB windowed 0 d && decide (hdClass d = 6) && decide (hdOp d = 0x22)) = true
       ∧ ((windowed.fn 0).window[j]?.map (fun w => (decide (w.st = 2), decide (w.st = 3), windowed.slotInUse w))) = some (decide (j = 0), decide (j = 1), false))
    ∧ (∀ clear ∈ [0, 1], let d := dAt 0x56 0x20000010000 [(128, 3), (149, clear)]
       let b := at_ up 0 d
       let n := (((setBits 20 (fld d 147 128)).filterMap (b.phys? 0)).flatMap (fun c => b.coreBlocks c.val)).length
       (startsB up 0 d && decide (hdClass d = 6) && decide (hdOp d = 0x56)) = true ∧ flag d 148 = false
       ∧ (setBits 20 (fld d 147 128)).all (fun l => decide (l < (b.fn 0).cores) && (b.phys? 0 l).isSome) = true
       ∧ b.ctlWriteCause (opOf up 0 d) 0x20000010000 n = 0 ∧ b.decideHold 0 [(0x20000010000, n)] = false)
    ∧ (let s : State := { up with parts := [(1, { Part.reset with owner := some 0, scrubbing := true })] }
       (s.part 1).scrubbing = true ∧ (s.part 0).scrubbing = false) :=
  ⟨by decide +kernel, by decide +kernel, by decide +kernel, by decide +kernel, by decide +kernel⟩

/-! ## Security -/

/-- Function 0 with a session of id 7, opened or not. -/
def secured (opened : Bool) : State :=
  let z : Session := { id := 7, decapKey := 1, digest := 2, opened := opened, toDevice := 3, toTenant := 4, counter := 0, beat := 0 }
  { up with fns := up.fns.set 0 { fn0 with sec := { SecState.reset with session := some z } } }

/-- Attested: a report, with KEM and without, a ciphertext for a session and for none, a message, the certificates, a region of each kind. -/
theorem test_attested :
    (∀ kem ∈ [0, 1], let d := dAt 0x60 0x20000001000 [(134, kem), (142, 0x100), (166, 0x200)]
     let b := at_ up 0 d
     (startsB up 0 d && decide (hdClass d = 6) && decide (hdOp d = 0x60)) = true ∧ b.reportCore (opOf up 0 d) = some 0
     ∧ spOk (fld d 165 142) (2 * fld d 141 135) = true ∧ spOk (fld d 189 166) 64 = true ∧ b.reportCause (opOf up 0 d) [] = 0)
    ∧ (∀ id ∈ [7, 8], let d := dAt 0x61 here [(128, id)]
       let b := at_ (secured false) 0 d
       (startsB (secured false) 0 d && decide (hdClass d = 6) && decide (hdOp d = 0x61)) = true
       ∧ b.recordCause (opOf (secured false) 0 d) here 1568 = 0 ∧ b.sessionFn (opOf (secured false) 0 d) id = (if id = 7 then some 0 else none))
    ∧ (let d := dAt 0x62 here [(128, 0x20000004000), (172, 33)]
       let s := withRec (secured true) here 33 (7 + 2 ^ 32)
       let b := at_ s 0 d
       (startsB s 0 d && decide (hdClass d = 6) && decide (hdOp d = 0x62)) = true ∧ b.recordCause (opOf s 0 d) here 33 = 0
       ∧ b.ctlWriteCause (opOf s 0 d) 0x20000004000 48 = 0 ∧ b.sessionFn (opOf s 0 d) (numAt (b.bytes here 33) 0 4) = some 0)
    ∧ (let d := dAt 0x63 here [(128, 0)]
       let b := at_ up 0 d
       (startsB up 0 d && decide (hdClass d = 6) && decide (hdOp d = 0x63)) = true ∧ b.ctlWriteCause (opOf up 0 d) here 0 = 0 ∧ b.decideHold 0 [(here, 0)] = false)
    ∧ (∀ sp ∈ [0, 1], let d := dAt 0x64 (if sp = 1 then 0 else here) [(128, 63), (134, sp), (160, 1)]
       let b := at_ up 0 d
       (startsB up 0 d && decide (hdClass d = 6) && decide (hdOp d = 0x64)) = true ∧ b.measureCause (opOf up 0 d) = 0 ∧ (b.coreOf (opOf up 0 d)).isSome = true
       ∧ SMap.get (0, 0) (b.fn 0).sec.measured 63 = (0, 0) ∧ startsB up 0 (desc 6 0x65 [(128, 63)]) = true)
    ∧ (((secured false).fn 0).sec.session.map (fun z => (z.opened, decide (z.beat + 2 ^ 28 ≤ (secured false).beatNow))) = some (false, true)) :=
  ⟨by decide +kernel, by decide +kernel, by decide +kernel, by decide +kernel, by decide +kernel, by decide +kernel⟩

/-- The session is open, and a sweep from generation 0 to 1 has page 0 left, with so many references. -/
def sweeping (refs : Nat) : State :=
  let s := secured true
  { s with
    fns := s.fns.set 0 { s.fn 0 with sec := { (s.fn 0).sec with keyGen := 1, sweep := true } },
    dir := [(0, BitVec.ofNat 64 (place [(0, 1), (10, 0xFF), (18, refs)]))] }

/-- KeysTaken: a rotation, one in a sweep and of a function that is off; the sweep's last page; link keys of a job. -/
theorem test_keys :
    (∀ k ∈ [0, 1], let s := if k = 0 then up else sweeping 0
     let d := desc 6 0x66 [(128, 0)]
     (startsB s 1023 d && decide (hdClass d = 6) && decide (hdOp d = 0x66)) = true ∧ (s.fn 0).st ≠ .off ∧ (s.fn 0).st ≠ .scrubbing
     ∧ (s.fn 0).sec.sweep = decide (k = 1) ∧ (s.fn 0).sec.confidential = false ∧ ((s.fn 1).st = .off ∧ startsB s 1023 (desc 6 0x66 [(128, 1)]) = true))
    ∧ (∀ refs ∈ [0, 1], let s := sweeping refs
       s.channelOpened 0 = true ∧ (s.fn (fnId (pgOwner (s.page 0)))).sec.sweep = true ∧ 0 ∈ s.sweepLeft (fnId (pgOwner (s.page 0)))
       ∧ pgMove (s.page 0) ≠ 1 ∧ pgRef (s.page 0) = refs ∧ (secured true).channelOpened 0 = true ∧ ((secured true).fn 0).sec.sweep = false
       ∧ field (1 + 2 * 2 ^ 256) 255 0 ≠ field (1 + 2 * 2 ^ 256) 511 256)
    ∧ (let job := { JobState.reset with st := 1, map := 5 }
       let s : State := { secured true with
         fns := (secured true).fns.set 0 { (secured true).fn 0 with job := job }, links := [(1, { LinkSlot.reset with job := 5, activation := 3 })] }
       let t : State := { s with links := [(0, { LinkSlot.reset with job := 5, activation := 4 }), (1, { LinkSlot.reset with job := 5, activation := 3 })] }
       s.linkSlotFor 0 5 = some 0 ∧ t.linkSlotFor 0 5 = none ∧ s.mapped 0 = true ∧ jmMembers (s.fn 0).job.map ≤ 256
       ∧ (t.link 1).job = 5 ∧ (∃ i < 4, i ≠ 1 ∧ (t.link i).job = 5 ∧ (t.link 1).activation ≤ (t.link i).activation)) :=
  ⟨by decide +kernel, by decide +kernel, by decide +kernel⟩

/-! ## Power, ageing and the cell map -/

/-- PowerHeld: caps at their bounds and beyond, a group of a job and of none, a core in service and one that is not, the trip's bound. -/
theorem test_power :
    (∀ v ∈ [999, 1000, 3200, 3201, 1002], let d := desc 6 0x70 [(128, v)]
     (startsB up 1023 d && decide (hdClass d = 6) && decide (hdOp d = 0x70)) = true ∧ up.quietPower + 700 ≤ 999 ∧ fld d 139 128 = v)
    ∧ (∀ k ∈ [(5, 160), (5, 161), (6, 0)], let d := desc 6 0x71 [(128, k.1), (160, 1), (161, k.2 % 256)]
       (startsB (inJob StepState.reset) 1023 d && decide (hdClass d = 6) && decide (hdOp d = 0x71)) = true
       ∧ ((inJob StepState.reset).jobFns (fld d 159 128) ≠ [] ↔ k.1 = 5) ∧ (5 * fld d 168 161 ≤ 800 ↔ k.2 ≠ 161))
    ∧ ((up.cell 0).st = .inService ∧ (up.cell 5).st ≠ .inService ∧ (up.die 0).tripped = false ∧ (up.die 0).throttling = false) :=
  ⟨by decide +kernel, by decide +kernel, by decide +kernel⟩

/-- AgeingKept: a drift at the alarm and beyond it, a plan that runs and one not due, an owned and an unowned core, a self-test. -/
theorem test_ageing :
    (let d := desc 6 0x74 [(128, 7)]
     let s := up.setCell 7 { up.cell 7 with st := .quarantined }
     (startsB s 1023 d && decide (hdClass d = 6) && decide (hdOp d = 0x74)) = true ∧ coreId? (fld d 132 128) = some 7
     ∧ ((at_ s 1023 d).cell 7).st = .quarantined ∧ ((at_ s 1023 d).cell 7).owner = none)
    ∧ ((up.cell 0).drift ≤ 150 ∧ ((up.setCell 0 { up.cell 0 with drift := 151 }).cell 0).drift > 150 ∧ (up.cell 0).owner ≠ none ∧ (up.cell 5).owner = none
      ∧ (up.die 0).planRunning = false ∧ (up.power.poh < up.power.planPoh + 1000)
      ∧ ((up.setDie 0 { up.die 0 with planRunning := true }).die 0).planRunning = true) :=
  ⟨by decide +kernel, by decide +kernel⟩

/-- CellMapKept: a quarantine order at rest, a core chosen for the boundary, one that leaves, an idle and an unowned core being scrubbed. -/
theorem test_cell_map :
    (let s := up.setCell 0 { up.cell 0 with quarantining := true }
     (s.cell 0).quarantining = true ∧ (s.cell 0).nextSt ≠ some .quarantined ∧ s.engineBusy 0 = false ∧ (s.die 0).tripped = false)
    ∧ ((up.cell 5).st ≠ .inService ∧ (up.cell 5).owner = none)
    ∧ (let s := up.setCell 5 { up.cell 5 with taking := some (0, 2) }
       (s.cell 5).taking = some (0, 2) ∧ (s.cell 5).quarantining = false ∧ (∀ k, (s.cell k).nextSt = none ∧ (s.cell k).moveTo = none))
    ∧ (let s := up.setCell 0 { up.cell 0 with nextSt := some .quarantined }
       (s.cell 0).nextSt = some .quarantined ∧ (∀ k, (s.cell k).moveTo = none))
    ∧ (let s := up.setCell 5 { up.cell 5 with scrubbing := true }
       (s.cell 5).st ≠ .inService ∧ (s.cell 5).st ≠ .quarantined ∧ (s.cell 5).scrubbing = true)
    ∧ (let s : State := { up with fns := up.fns.set 0 { fn0 with st := .aborting } }
       (s.cell 0).owner = some 0 ∧ (s.fn 0).st = .aborting) :=
  ⟨by decide +kernel, by decide +kernel, by decide +kernel, by decide +kernel, by decide +kernel, by decide +kernel⟩

/-! ## The fabric -/

/-- Port 0 enabled on axis 0, in a state, with a frame that is not acknowledged. -/
def ported (st : Nat) : State :=
  { teamed with
    regs := SMap.put 0 teamed.regs (regKey 0 (pageFab 0 + 0x40)) 0x20
    ports := [(0, { Port.reset with st := st, credits := List.replicate 19 10, owed := List.replicate 19 3, rxSeq := 5, replay := [redFr 4 0 []] })] }

/-- LinkControl: a port that is down, trains, and is up; without its clock and enable; a frame with a bad header. -/
theorem test_link_control :
    (∀ st ∈ [0, 1, 2, 3], ((ported st).port 0).st = st ∧ (ported st).portEnabled 0 = true ∧ (ported st).portClock 0 = true)
    ∧ ((up.setReg 0 (pageFab 0 + 0x40) 0).portEnabled 0 = false ∧ headerOk { redFr 4 0 [] with payload := [] } = false)
    ∧ ((nxt (.portTraining 0 true false) (ported 1)).port 0).width = 1
    ∧ ((nxt (.lctrlSend 0) (ported 3)).port 0).owed = List.replicate 19 0 := by decide +kernel

/-- A HELLO of chip 9 from the other end of axis 0. -/
def hi : Nat := place [(0, 9), (23, 1), (24, 1), (54, 1), (92, 3)]

/-- A DATA frame to a position and chip. -/
def dataFr (pos chip : Nat) : Frame := mkFrame 8 true 0 pos chip 1 (leBytes 16 0)

/-- HelloAndData: a first HELLO, a second alike that passes and one that does not; data for the package, another chip, another place. -/
theorem test_hello :
    (let s := (ported 2).setPort 0 { (ported 2).port 0 with hello := BitVec.ofNat 512 hi, helloCount := 1 }
     helloKey (BitVec.ofNat 512 hi) = helloKey (s.port 0).hello ∧ 0 < (s.port 0).helloCount ∧ s.helloFault 0 (BitVec.ofNat 512 hi) = 0
     ∧ s.helloFault 0 (BitVec.ofNat 512 (hi + 2 ^ 92)) ≠ 0 ∧ ((ported 2).port 0).helloCount = 0)
    ∧ (∀ k ∈ [(0, 0xFFFF), (0, 3), (1, 3)], (ported 3).takes 0 (dataFr k.1 k.2) 8 = true ∧ fhDestPos (dataFr k.1 k.2).hdr = k.1 ∧ fhDestChip (dataFr k.1 k.2).hdr = k.2
      ∧ (ported 3).pos = 0 ∧ (ported 3).chip = 0xFFFF)
    ∧ ((ported 3).hop (dataFr 1 3) = some 0 ∧ (ported 2).takes 0 (dataFr 0 0) 8 = false) :=
  ⟨by decide +kernel, by decide +kernel, by decide +kernel⟩

/-! ## Beat plans and the cadence -/

/-- Function 0 runs a plan of one event at plan beat 10, with a beat-wait of its tag on queue 0. -/
def planned (kind : Nat) : State :=
  let p : Plan := ⟨BitVec.ofNat 512 (plan1 0), [BitVec.ofNat 256 (place [(0, 10), (48, kind), (64, 5), (112, 7)])], 0, true, true, 10, [⟨0, 10, none, false⟩], 0, 0⟩
  let s := timed up
  { s with
    fns := s.fns.set 0 { fn0 with active := some p, resize := some { op := (1023, 0), record := rec0, tag := 7, effect := 2000 } },
    ops := [opOf up 0 (desc 5 0 [(20, 7)])], nextOp := 1 }

/-- EventsStart: each kind is due and may start, but DEADLINE, which is due without starting. -/
theorem test_events :
    (∀ kind ∈ [1, 2, 3, 4, 5, 6, 7, 9], (((planned kind).runningPlan? 0).map (fun p => ((p.due? 0).map (fun w => (planned kind).mayStart 0 p w), evKind (p.event 0))))
      = some (some true, kind))
    ∧ ((((planned 8).runningPlan? 0).map (fun p => ((p.due? 0).map (fun w => ((planned 8).mayStart 0 p w, decide (p.clock ≤ w.beat))), evKind (p.event 0))))
      = some (some (false, true), 8) ∧ (planned 8).holdNext = false)
    ∧ hdTag (desc 5 0 [(20, 7)]) = 7 ∧ ((planned 1).heldWait? 0 ((BitVec.ofNat 256 (place [(0, 10), (48, 1), (64, 5), (112, 7)])))).isSome = true
    ∧ ((planned 7).fn 0).resize ≠ none ∧ (let s := (planned 9).setCell 0 { up.cell 0 with testDue := true }
       s.moveSource? 0 = some 0) := by decide +kernel

/-- BeatAdvances: no epoch is armed and no hold asked for; a plan that runs without end; a planned move. -/
theorem test_beat :
    ((planned 1).beat.armed = none ∧ (planned 1).beat.requests = [] ∧ ((planned 1).fn 0).active.map (fun p => (p.running, phRepeats p.header)) = some (true, 0)
      ∧ ((planned 1).fn 0).pendingPlan = none)
    ∧ ((up.setCell 0 { up.cell 0 with moveTo := some 5 }).cell 0).moveTo = some 5 := by decide +kernel

/-- Port 0 is the parent of a member whose source is the fabric. -/
def member (since : Nat) : State :=
  let s := timed (ported 3)
  { s with
    regs := SMap.put 0 s.regs (regKey 0 (pageBeat + 0x40)) 0x23,
    beat := { s.beat with parent := some 0, master := 9, inDomain := true, period := 3, sinceSync := since } }

/-- CadenceKept: a SYNC, an EPOCH and a grant from the parent; a holdover and a takeover at their bounds; the master's turn; a pulse at 10 ns. -/
theorem test_cadence :
    (∀ kind ∈ [1, 2, 4], let m := (member 0).beatMsg kind 1100 20 0 9
     bmKind m = kind ∧ bmPeriod m = (member 0).beat.period ∧ ((member 0).port 0).st = 3 ∧ (member 0).beat.parent = some 0 ∧ bmArg1 m = 20
     ∧ (member 0).beatSource = 2 ∧ (member 0).planHeld = false ∧ (member 0).beat.number.toNat < bmNumber m)
    ∧ ((member 47).isMaster = false ∧ (member 48).isMaster = false ∧ (member 48).hasPartner = true
      ∧ (let s : State := { member 64 with regs := SMap.put 0 (member 64).regs (regKey 0 0x5C) 2, beat := { (member 64).beat with backup := 2 } }
         s.isBackup = true ∧ s.isMaster = false))
    ∧ (let s : State := { timed up with beat := { (timed up).beat with sinceSync := 16 } }
       s.isMaster = true ∧ s.recentDecisions = [] ∧ (planned 1).planHeld = true)
    ∧ (let s := up.setReg 0 (pageBeat + 0x40) 0x13
       s.beatSource = 1 ∧ s.boot.tapIr ≠ 3 ∧ up.beatSource = 0 ∧ ((160 : Int) + toSigned 16 (s.reg 0 (pageBeat + 0x44) % 2 ^ 16)).natAbs ≤ 160
       ∧ 160 < ((161 : Int) + toSigned 16 (s.reg 0 (pageBeat + 0x44) % 2 ^ 16)).natAbs) :=
  ⟨by decide +kernel, by decide +kernel, by decide +kernel, by decide +kernel⟩

/-! ## Reset, registers and the side ports -/

def env0 : BootEnv := {
  hbmRates := List.replicate 24 3, hbmSpared := List.replicate 24 0, diesUp := true, sramCores := 0xFFFFFF, sramParts := 0xFFFFFFFFFFFFFFFF,
  sramTables := true, storeReadable := true, avsAnswers := true, imageReadable := true, identityUnsealed := true, vReq := List.replicate 24 none,
  pos := 0, lenM1 := 0, bootMs := 5 }

/-- ResetAndBoot: power lost and held, a start-up that waits, a GO at the wrong step and one whose image cannot be read; a stopped clock. -/
theorem test_reset :
    (up.boot.powered = true ∧ (nxt (.railLoss 0) up).boot.powered = false ∧ up.boot.clocks.getLsbD 0 = true ∧ up.boot.st ≠ 1)
    ∧ (let s := nxt (.powerOnReset 1 1 0) State.reset
       s.boot.st = 1 ∧ s.fwCause (compKey s.imageAddr) (s.nat (compKey s.imageAddr) 256) false = 5
       ∧ (nxt (.go { env0 with imageReadable := false }) s).boot.st = 9)
    ∧ ((ported 3).port 0).st = 3 ∧ ((nxt (.refclkStop 2) (ported 3)).port 0).st < 2 ∧ up.boot.pkcFailed = false :=
  ⟨by decide +kernel, by decide +kernel, by decide +kernel⟩

/-- RegistersRead: an RC counter and one that is not, no page, the queue in which a snapshot is kept. -/
theorem test_registers_read :
    (up.pageAt? .mgmt 0x0).isSome = true ∧ up.pageAt? .mgmt 0x3FFFFFC = none ∧ State.reset.pageAt? .mgmt 0x1000 = none ∧ up.snapshots = []
    ∧ (let s := up.setReg 0 (pageStepf 0 + 0x58) 7
       (nxt (.rcRead .mgmt (BitVec.ofNat 26 (pageStepf 0 + 0x58))) s).rdData = 7
       ∧ (nxt (.rcRead .mgmt (BitVec.ofNat 26 (pageStepf 0 + 0x58))) s).reg 0 (pageStepf 0 + 0x58) = 0) := by decide +kernel

/-- RegistersWritten: pages that answer and are not locked, a locked one; a beat period that is legal and the bounds beyond it; a job. -/
theorem test_registers_written :
    (∀ o ∈ [0x5C, 0x1040, 0x105C, 0x2084, 0x205C, 0x4044, 0x64, 0x60A0], (up.pageAt? .mgmt o).isSome = true ∧ up.locked o = false)
    ∧ ((up.setReg 0 0x30 1).locked 0x5C = true ∧ (inJob StepState.reset).inJob = true ∧ up.inJob = false ∧ up.planHeld = false ∧ up.hasPartner = false)
    ∧ ((nxt (.beatCfgWrite 9) up).beat.period = 9 ∧ (nxt (.beatCfgWrite 2) up).beat.period = 2 ∧ up.beatNow = 2 ^ 63)
    ∧ (qrMgmt (queueRec 1023 0 1) = true ∧ (up.cell 7).st ≠ .quarantined ∧ coreId? 7 = some 7) :=
  ⟨by decide +kernel, by decide +kernel, by decide +kernel, by decide +kernel⟩

/-- SidePorts: READY with power, before READY, without power, after the PKC failed, and with a confidential function. -/
theorem test_side_ports :
    up.boot.powered = true ∧ up.boot.pkcFailed = false ∧ up.boot.st = 8 ∧ State.reset.boot.st ≠ 8 ∧ State.reset.boot.powered = true
    ∧ (nxt (.railLoss 0) up).boot.powered = false ∧ (nxt .pkcFailure up).boot.pkcFailed = true ∧ up.anyConfidential = false
    ∧ ({ up with fns := up.fns.set 0 { fn0 with sec := { SecState.reset with confidential := true } } } : State).anyConfidential = true
    ∧ (nxt .idcode up).scanData = 0x1B7A1DCB := by decide +kernel

/-! ## The block -/

/-- StepRunsFront, MemoryKept, OperationsNumbered: a queue with a command and one without; memory in its form and not; a command in front runs. -/
theorem test_block :
    State.reset.pending = [] ∧ ({ State.reset with pending := [Instr.idcode] } : State).pending = [Instr.idcode]
    ∧ memWf (withRec up here 64 7).mem = true ∧ memWf [(3, 1), (3, 2)] = false ∧ memWf [(3, 0)] = false
    ∧ (registered.ops.map (·.num)).Nodup ∧ registered.ops.all (fun o => decide (o.num < registered.nextOp)) = true := by decide +kernel

/-- Commands that are not well-formed, one for each check, and one that is. -/
theorem test_well_formed :
    Instr.WellFormed (.data 0 (dataFr 0 0)) = true
    ∧ Instr.WellFormed (.data 0 { dataFr 0 0 with payload := List.replicate 1552 0 }) = false
    ∧ Instr.WellFormed (.redWindow 0 { dataFr 0 0 with payload := [0] }) = false
    ∧ Instr.WellFormed (.add 0 (vec 3) false) = false
    ∧ Instr.WellFormed (.moveOperation 0 (mov 0 0 0x80) [(0, 0)]) = false
    ∧ Instr.WellFormed (.registerWrite .mgmt 0 3 0) = false
    ∧ Instr.WellFormed (.pageScrub (2 ^ 28) true) = false
    ∧ Instr.WellFormed (.sync 0 0 (2 ^ 64)) = false
    ∧ Instr.WellFormed (.go env0) = true
    ∧ Instr.WellFormed (.go { env0 with hbmRates := [] }) = false
    ∧ Instr.WellFormed (.go { env0 with hbmSpared := List.replicate 24 128 }) = false
    ∧ Instr.WellFormed (.go { env0 with vReq := [] }) = false := by decide +kernel

theorem test_well_formed_payload (n : Nat) (h : 2 ^ 16 ≤ n) : Instr.WellFormed (.calibrationRecordWrite 0 0 (List.replicate n 0) true) = false := by
  have h' : ¬ n < 2 ^ 16 := Nat.not_lt.mpr h
  simp only [Instr.WellFormed, Instr.operandsOk, List.length_replicate, h', decide_false, Bool.and_false]

end Sys2Proof.Tests
end

/-! # Registers: reads, clears and header writes (R9, R460, R464 to R467)

What a read of a register and each write of the header does to the state, said once, and the obligation assembled from it. -/

namespace Sys2Proof.Machine

/-! ## Offsets within a page -/

theorem pageBase_add (off r : Nat) (h : r < 0x1000) : pageBase (pageBase off + r) = pageBase off := by
  simp only [pageBase]; omega

theorem regOff_add (off r : Nat) (h : r < 0x1000) : regOff (pageBase off + r) = r / 4 * 4 := by
  simp only [pageBase, regOff]; omega

theorem regOff_div_mul (off : Nat) : regOff off / 4 * 4 = regOff off := by
  simp only [regOff]; omega

/-- Every low word stands within the first 0x200 bytes of its page, so its high word is on the same page. -/
theorem lt_of_isLow {k : PageKind} {r : Nat} (h : isLow k r = true) : r < 0x200 := by
  rcases (Bool.or_eq_true _ _).mp h with h28 | hlow
  · rw [of_decide_eq_true h28]; decide
  · have bound : ∀ x ∈ k.lows, x < 0x200 := by cases k <;> decide
    exact bound r (of_decide_eq_true hlow)

/-! ## What a read of a register changes -/

/-- A snapshot is all that `snap` changes. -/
theorem State.snap_frame (s : State) (w : Window) (off : Nat) : s.snap w off = { s with snapshots := (s.snap w off).snapshots } := by
  unfold State.snap
  rcases s.pageAt? w off with _ | ⟨k, i⟩
  · rfl
  · simp only; split <;> rfl

/-- The counter read is all that `clearRc` changes. -/
theorem State.clearRc_frame (s : State) (w : Window) (off : Nat) : s.clearRc w off = { s with regs := (s.clearRc w off).regs } := by
  unfold State.clearRc
  rcases s.pageAt? w off with _ | ⟨k, i⟩
  · rfl
  · simp only; split <;> rfl

@[simp] theorem State.snap_regs (s : State) (w : Window) (off : Nat) : (s.snap w off).regs = s.regs := by rw [snap_frame]

@[simp] theorem State.snap_pageAt? (s : State) (w : Window) (off : Nat) {w' : Window} {off' : Nat} :
    (s.snap w off).pageAt? w' off' = s.pageAt? w' off' := by
  rw [snap_frame]; rfl

@[simp] theorem State.snap_hidden (s : State) (w : Window) (off : Nat) {w' : Window} {k : PageKind} {i r : Nat} :
    (s.snap w off).hidden w' k i r = s.hidden w' k i r := by rw [snap_frame]; rfl

/-- A read changes the registers, the snapshots, the value read and the free-value index, and nothing else. -/
theorem State.read32_frame (s : State) (w : Window) (off : Nat) :
    s.read32 w off = { s with regs := ((s.snap w off).clearRc w off).regs, snapshots := (s.snap w off).snapshots,
                              rdData := s.readValue w off, fresh := s.fresh + 4096 } := by
  unfold State.read32
  rw [clearRc_frame]
  generalize ((s.snap w off).clearRc w off).regs = regs
  rw [snap_frame]

@[simp] theorem State.read32_mem (s : State) (w : Window) (off : Nat) : (s.read32 w off).mem = s.mem := by rw [read32_frame]
@[simp] theorem State.read32_fns (s : State) (w : Window) (off : Nat) : (s.read32 w off).fns = s.fns := by rw [read32_frame]
@[simp] theorem State.read32_queues (s : State) (w : Window) (off : Nat) : (s.read32 w off).queues = s.queues := by rw [read32_frame]
@[simp] theorem State.read32_ops (s : State) (w : Window) (off : Nat) : (s.read32 w off).ops = s.ops := by rw [read32_frame]
@[simp] theorem State.read32_boot (s : State) (w : Window) (off : Nat) : (s.read32 w off).boot = s.boot := by rw [read32_frame]
@[simp] theorem State.read32_log (s : State) (w : Window) (off : Nat) : (s.read32 w off).log = s.log := by rw [read32_frame]

theorem State.read32_regs (s : State) (w : Window) (off : Nat) : (s.read32 w off).regs = ((s.snap w off).clearRc w off).regs := rfl

/-! ## Counters that a read clears (R9) -/

theorem State.clearRc_no_page {s : State} {w : Window} {off : Nat} (h : s.pageAt? w off = none) : s.clearRc w off = s := by
  simp only [clearRc, h]

theorem State.clearRc_of_not_rc {s : State} {w : Window} {off n : Nat} {k : PageKind} (h : s.pageAt? w off = some (k, n))
    (hr : regOff off ∉ k.rc) : s.clearRc w off = s := by
  simp only [clearRc, h, hr, false_and, if_false]

/-- A counter that is neither hidden by the filter nor missing from a function's view of BEAT is set to 0. -/
theorem State.clearRc_of_rc {s : State} {w : Window} {off n : Nat} {k : PageKind} (h : s.pageAt? w off = some (k, n))
    (hr : regOff off ∈ k.rc) (hh : s.hidden w k n (regOff off) = false) (hv : noIrq w k = false ∨ 0x100 ≤ regOff off) :
    s.clearRc w off = s.setReg (counterWin w k) (pageBase off + regOff off) 0 := by
  have hsees : (noIrq w k && decide (regOff off < 0x100)) = false := by
    rcases hv with hv | hv
    · rw [hv]; rfl
    · rw [decide_eq_false (Nat.not_lt.mpr hv), Bool.and_false]
  simp only [clearRc, h, hr, hh, hsees, Bool.not_false, and_self, if_true]

/-- A counter that a read shows is 0 after the read. -/
theorem State.reg_counter_read32 {s : State} {w : Window} {off n : Nat} {k : PageKind} (h : s.pageAt? w off = some (k, n))
    (hr : regOff off ∈ k.rc) (hh : s.hidden w k n (regOff off) = false) (hv : noIrq w k = false ∨ 0x100 ≤ regOff off) :
    (s.read32 w off).reg (counterWin w k) (pageBase off + regOff off) = 0 := by
  have hclear := clearRc_of_rc ((s.snap_pageAt? w off).trans h) hr ((s.snap_hidden w off).trans hh) hv
  unfold reg
  rw [read32_regs, hclear]
  exact reg_setReg (s.snap w off) _ _ 0

theorem State.read32_regs_of_not_rc {s : State} {w : Window} {off n : Nat} {k : PageKind} (h : s.pageAt? w off = some (k, n))
    (hr : regOff off ∉ k.rc) : (s.read32 w off).regs = s.regs := by
  rw [read32_regs, clearRc_of_not_rc ((s.snap_pageAt? w off).trans h) hr, snap_regs]

theorem State.read32_regs_no_page {s : State} {w : Window} {off : Nat} (h : s.pageAt? w off = none) : (s.read32 w off).regs = s.regs := by
  rw [read32_regs, clearRc_no_page ((s.snap_pageAt? w off).trans h), snap_regs]

/-! ## The high word kept with a low one (R460) -/

/-- The newest snapshot answers a read of its high word where no older one of its page and window is left. -/
theorem State.readValue_of_snapshot {s : State} {w : Window} {off : Nat} {rest : List (Nat × Nat × Nat × Word)} {v : Word}
    (hs : s.snapshots = rest ++ [(winNo w, pageBase off, regOff off, v)])
    (hrest : ∀ x ∈ rest, ¬(x.1 = winNo w ∧ x.2.1 = pageBase off)) : s.readValue w off = v := by
  have hnone : rest.find? (fun x => decide (x.1 = winNo w) && decide (x.2.1 = pageBase off) && decide (x.2.2.1 = regOff off)) = none := by
    rw [List.find?_eq_none]
    intro x hx hm
    simp only [Bool.and_eq_true, decide_eq_true_eq] at hm
    exact hrest x hx hm.1
  simp only [readValue, hs, List.find?_append, hnone, Option.none_or, List.find?_singleton, decide_true, Bool.and_self, if_true]

/-- A read of a low word drops the page's snapshots in the window and keeps the high word. -/
theorem State.snap_snapshots_of_isLow {s : State} {w : Window} {off n : Nat} {k : PageKind} (h : s.pageAt? w off = some (k, n))
    (hl : isLow k (regOff off) = true) :
    (s.snap w off).snapshots = s.snapshots.filter (fun x => !(decide (x.1 = winNo w) && decide (x.2.1 = pageBase off)))
      ++ [(winNo w, pageBase off, regOff off + 4, BitVec.ofNat 32 (s.readReg w (pageBase off + regOff off + 4)))] := by
  simp only [snap, h, hl, if_true]

/-- After a read of a low word the high word reads as it stood at that read. -/
theorem State.readValue_high_read32 {s : State} {w : Window} {off n : Nat} {k : PageKind} (h : s.pageAt? w off = some (k, n))
    (hl : isLow k (regOff off) = true) :
    (s.read32 w off).readValue w (pageBase off + regOff off + 4) = BitVec.ofNat 32 (s.readReg w (pageBase off + regOff off + 4)) := by
  have hlt := lt_of_isLow hl
  have hb : pageBase (pageBase off + regOff off + 4) = pageBase off := by rw [Nat.add_assoc, pageBase_add _ _ (by omega)]
  have hr : regOff (pageBase off + regOff off + 4) = regOff off + 4 := by
    have := regOff_div_mul off
    rw [Nat.add_assoc, regOff_add _ _ (by omega)]; omega
  refine readValue_of_snapshot
    (rest := s.snapshots.filter (fun x => !(decide (x.1 = winNo w) && decide (x.2.1 = pageBase off)))) ?_ ?_
  · rw [hb, hr, read32_frame]; exact snap_snapshots_of_isLow h hl
  · intro x hx hm
    have hkept := (List.mem_filter.mp hx).2
    rw [hb] at hm
    simp only [hm.1, hm.2, decide_true, Bool.and_self, Bool.not_true, Bool.false_eq_true] at hkept

theorem State.readValue_of_no_snapshots {s : State} {w : Window} {off : Nat} (h : s.snapshots = []) :
    s.readValue w off = BitVec.ofNat 32 (s.readReg w off) := by
  simp only [readValue, h, List.find?_nil]

/-! ## Header writes (R464, R465, R467) -/

theorem State.actWrite_no_page {s : State} {w : Window} {off : Nat} (h : s.pageAt? w off = none) (go : State → State) :
    s.actWrite w off go = s := by
  simp only [actWrite, h, Option.isNone_none, if_true]

theorem State.actWrite_page {s : State} {w : Window} {off n : Nat} {k : PageKind} (h : s.pageAt? w off = some (k, n)) (go : State → State) :
    s.actWrite w off go = go s := by
  simp only [actWrite, h, Option.isNone_some, Bool.false_eq_true, if_false]

theorem State.reg_setReg_zero {s : State} {win off win' off' : Nat} (h : s.reg win' off' = 0) : (s.setReg win off 0).reg win' off' = 0 := by
  by_cases hk : regKey win off = regKey win' off'
  · simp only [reg, setReg, hk, SMap.get_put_same]; rfl
  · rw [reg_setReg_ne _ _ _ _ _ _ hk, h]

/-- Clearing a list of registers, in any order and with repeats, leaves each of them at 0. -/
theorem State.reg_foldl_clear (win base : Nat) (os : List Nat) (s : State) (o : Nat)
    (h : o ∈ os ∨ s.reg win (base + o) = 0) :
    (os.foldl (fun (s : State) o => s.setReg win (base + o) 0) s).reg win (base + o) = 0 := by
  induction os generalizing s with
  | nil => exact h.resolve_left List.not_mem_nil
  | cons a os ih =>
    refine ih _ ?_
    rcases h with h | h
    · rcases List.mem_cons.mp h with rfl | h
      · exact .inr (reg_setReg ..)
      · exact .inl h
    · exact .inr (reg_setReg_zero h)

/-- Clearing registers changes nothing but the register file. -/
theorem State.foldl_clear_frame (win base : Nat) (os : List Nat) (s : State) (regs : SMap Word) :
    { os.foldl (fun (s : State) o => s.setReg win (base + o) 0) s with regs := regs } = { s with regs := regs } := by
  induction os generalizing s with
  | nil => rfl
  | cons a os ih => exact ih _

theorem State.reg_clearErrors (s : State) (w : Window) (off : Nat) :
    ∀ o ∈ [0x20, 0x24, 0x28, 0x2C], (s.clearErrors w off).reg (winNo w) (pageBase off + o) = 0 :=
  fun o ho => reg_foldl_clear _ _ _ s o (.inl ho)

theorem State.clearErrors_frame (s : State) (w : Window) (off : Nat) : { s.clearErrors w off with regs := s.regs } = s :=
  foldl_clear_frame ..

theorem State.clearIrq_of_page {s : State} {w : Window} {off n : Nat} {k : PageKind} (h : s.pageAt? w off = some (k, n))
    (hv : noIrq w k = false) (v : Nat) :
    s.clearIrq w off v = s.setReg (irqWin w k) (pageBase off + 0x18)
      (s.reg (irqWin w k) (pageBase off + 0x18) - (s.reg (irqWin w k) (pageBase off + 0x18) &&& v)) := by
  simp only [clearIrq, h, hv, Bool.false_eq_true, if_false]

end Sys2Proof.Machine

namespace Sys2Proof.Laws

open Sys2Proof.Machine

/-- The low bit of a masked number is set only where both low bits are. -/
theorem land_mod_two (a v : Nat) : (a &&& v) % 2 = 1 ↔ a % 2 = 1 ∧ v % 2 = 1 := by
  have hbit := Bool.eq_iff_iff.mp (Nat.testBit_and a v 0)
  simp only [Nat.testBit_zero, Bool.and_eq_true, decide_eq_true_eq] at hbit
  exact hbit

/-- Taking away the bits that a mask selects borrows nothing, so the halves do not meet. -/
theorem sub_land_div_two (a v : Nat) : (a - (a &&& v)) / 2 = a / 2 - (a / 2 &&& v / 2) := by
  have hhalf : (a &&& v) / 2 = a / 2 &&& v / 2 := Nat.and_div_two
  have hle : (a &&& v) ≤ a := Nat.and_le_left
  have hlow := land_mod_two a v
  omega

/-- W1C arithmetic: what is left has the bits of the old value that the written one leaves 0. -/
theorem testBit_sub_land (a v b : Nat) : (a - (a &&& v)).testBit b = (a.testBit b && !v.testBit b) := by
  induction b generalizing a v with
  | zero =>
    have hle : (a &&& v) ≤ a := Nat.and_le_left
    have hlow := land_mod_two a v
    rw [Bool.eq_iff_iff]
    simp only [Nat.testBit_zero, Bool.and_eq_true, Bool.not_eq_true', decide_eq_true_eq, decide_eq_false_iff_not]
    omega
  | succ b ih => rw [Nat.testBit_succ, Nat.testBit_succ, Nat.testBit_succ, sub_land_div_two, ih]

/-- IRQ_STAT after a write: each bit stays where the written word has a 0. -/
theorem testBit_reg_clearIrq {s : State} {w : Window} {off n : Nat} {k : PageKind} (h : s.pageAt? w off = some (k, n))
    (hv : noIrq w k = false) (v b : Nat) (hb : b < 32) :
    ((s.clearIrq w off v).reg (irqWin w k) (pageBase off + 0x18)).testBit b
      = ((s.reg (irqWin w k) (pageBase off + 0x18)).testBit b && !v.testBit b) := by
  rw [State.clearIrq_of_page h hv, State.reg_setReg, Nat.testBit_mod_two_pow, testBit_sub_land, decide_eq_true hb, Bool.true_and]

/-- Settles O53: one read rule serves both read commands, and each header write has its rule on a page that answers. -/
theorem registersRead : Obligations.RegistersRead := by
  intro s w off v
  refine ⟨?_, ?_, ?_⟩
  · intro i hi
    have hread : exec i s = .next (s.read32 w off.toNat) := by
      simp only [List.mem_cons, List.not_mem_nil, or_false] at hi
      rcases hi with rfl | rfl <;> rfl
    exact ⟨_, hread, rfl, s.read32_mem .., s.read32_fns .., s.read32_queues .., s.read32_ops .., s.read32_boot .., s.read32_log ..,
      State.readValue_of_no_snapshots,
      fun k n hp => ⟨State.reg_counter_read32 hp, State.read32_regs_of_not_rc hp, State.readValue_high_read32 hp⟩,
      State.read32_regs_no_page⟩
  · intro hp i hi
    simp only [List.mem_cons, List.not_mem_nil, or_false] at hi
    rcases hi with rfl | rfl | rfl <;> exact congrArg Host.Outcome.next (State.actWrite_no_page hp _)
  · intro k n hp
    refine ⟨⟨_, congrArg Host.Outcome.next (State.actWrite_page hp _), s.reg_clearErrors w off.toNat, s.clearErrors_frame w off.toNat⟩, ?_, ?_⟩
    · intro hv
      refine ⟨_, congrArg Host.Outcome.next (State.actWrite_page hp _), ?_, fun b hb => testBit_reg_clearIrq hp hv v.toNat b hb⟩
      rw [State.clearIrq_of_page hp hv]; rfl
    · exact congrArg Host.Outcome.next (State.actWrite_page hp _)

end Sys2Proof.Laws

/-! # Retirement (R19, R124, R425) -/

namespace Sys2Proof.Machine

/-- What an operation holds for slots that are still open, as it goes on being held after the operation. -/
def State.heldFor (s : State) (o : Op) : Held :=
  { fn := o.fn, ranges := o.holds, added := o.added,
    init := match s.coreOf o with
      | some c => if hdClass o.desc = 0 then mxInit c.val o.desc else (0, 0)
      | none => (0, 0) }

theorem State.keepHolds_eq (s : State) (o : Op) :
    s.keepHolds o = if o.added = [] ∨ o.holds = [] then s else { s with heldOps := s.heldOps ++ [s.heldFor o] } := by
  simp only [keepHolds, Bool.or_eq_true, List.isEmpty_iff]; rfl

theorem State.endMove_of_not_move {s : State} {o : Op} (h : hdClass o.desc ≠ 3) : s.endMove o = s := if_pos h

theorem State.finishUnshares_of_none_ready {s : State} (h : ∀ p ∈ s.ops, s.unshareReady p = false) : s.finishUnshares = s := by
  have hnone : s.ops.filter s.unshareReady = [] := List.filter_eq_nil_iff.mpr fun p hp => by simp [h p hp]
  rw [finishUnshares, hnone, List.foldl_nil]

/-- The oldest operation of the id that stands stored is the one that retires. -/
theorem exec_operationRetire_of_find {s : State} {q : QueueId} {opId : BitVec 16} {o : Op}
    (h : s.ops.find? (fun o => o.named q opId && decide (o.stage = .stored)) = some o) :
    exec (.operationRetire q opId) s = .next (s.retire o) := by
  simp only [exec, execOperationRetire, h]

end Sys2Proof.Machine

namespace Sys2Proof.Laws

open Sys2Proof.Machine

/-- Settles O11: without a move and without an UNSHARE that becomes ready, a retirement is the keeping of holds and the completion. -/
theorem retirement : Obligations.Retirement := by
  intro s q opId o hfind hclass h u t hready
  have hkeep : s.keepHolds o = u := s.keepHolds_eq o
  have hmove : u.endMove o = u := State.endMove_of_not_move hclass
  rw [exec_operationRetire_of_find hfind, State.retire, hkeep, hmove]
  exact congrArg Host.Outcome.next (State.finishUnshares_of_none_ready hready)

end Sys2Proof.Laws

/-! # The cell map (R20 to R24, R26 to R29)

What each change of the cell map does to one core, said once; a change of the whole map is then a fold over the cores in which one
core meets its own change and the others leave it alone. -/

namespace Sys2Proof.SMap

variable {α : Type} {d : α} {m n : SMap α} {k : Nat}

theorem get_filter_of_pos {p : Nat × α → Bool} (h : ∀ v, p (k, v) = true) : get d (m.filter p) k = get d m k := by
  induction m with
  | nil => rfl
  | cons q m ih =>
    obtain ⟨a, b⟩ := q
    by_cases hk : a = k
    · subst hk; simp only [List.filter_cons, h, if_true, get]
    · by_cases hp : p (a, b) = true <;> simp only [List.filter_cons, hp, if_true, Bool.false_eq_true, if_false, get, hk, ih]

theorem get_of_not_key (h : ∀ q ∈ m, q.1 ≠ k) : get d m k = d := by
  induction m with
  | nil => rfl
  | cons q m ih =>
    obtain ⟨hq, hm⟩ := List.forall_mem_cons.mp h
    simp only [get, if_neg hq, ih hm]

theorem get_append_of_not_key_left (h : ∀ q ∈ m, q.1 ≠ k) : get d (m ++ n) k = get d n k := by
  induction m with
  | nil => rfl
  | cons q m ih =>
    obtain ⟨hq, hm⟩ := List.forall_mem_cons.mp h
    simp only [List.cons_append, get, if_neg hq, ih hm]

theorem get_append_of_not_key_right (h : ∀ q ∈ n, q.1 ≠ k) : get d (m ++ n) k = get d m k := by
  induction m with
  | nil => exact get_of_not_key h
  | cons q m ih => simp only [List.cons_append, get, ih]

theorem get_filter_of_neg {p : Nat × α → Bool} (h : ∀ v, p (k, v) = false) : get d (m.filter p) k = d :=
  get_of_not_key fun q hq he => by
    have hp := (List.mem_filter.mp hq).2
    rw [show q = (k, q.2) from Prod.ext he rfl, h] at hp
    exact Bool.false_ne_true hp

end Sys2Proof.SMap

namespace Sys2Proof.Machine

/-- In a fold that visits `a` once, every step keeps what holds before `a`, the step at `a` brings about what holds after it, and every
later step keeps that. -/
theorem foldl_meets_once {σ α : Type} {step : σ → α → σ} {before after : σ → Prop} {a : α}
    (hbefore : ∀ s b, b ≠ a → before s → before (step s b)) (hmeet : ∀ s, before s → after (step s a))
    (hafter : ∀ s b, b ≠ a → after s → after (step s b))
    {l : List α} {s : σ} (hn : l.Nodup) (ha : a ∈ l) (hs : before s) : after (l.foldl step s) := by
  induction l generalizing s with
  | nil => exact absurd ha List.not_mem_nil
  | cons b l ih =>
    obtain ⟨hb, hl⟩ := List.nodup_cons.mp hn
    by_cases h : b = a
    · subst h
      exact List.foldlRecOn l step (hmeet s hs) fun t ht c hc => hafter t c (fun e => hb (e ▸ hc)) ht
    · exact ih hl ((List.mem_cons.mp ha).resolve_left (Ne.symm h)) (hbefore s b h hs)

/-- A fold whose steps leave its start as it is ends where it starts. -/
theorem foldl_eq_self {σ α : Type} {step : σ → α → σ} {s : σ} (h : ∀ a, step s a = s) (l : List α) : l.foldl step s = s :=
  List.foldlRecOn (motive := fun t => t = s) l step rfl fun t ht a _ => by rw [ht, h a]

theorem nodup_allCores : allCores.Nodup := List.nodup_finRange 24
theorem nodup_allFns : allFns.Nodup := List.nodup_finRange 64
theorem mem_allCores (c : CoreId) : c ∈ allCores := List.mem_finRange c
theorem mem_allFns (f : FnId) : f ∈ allFns := List.mem_finRange f

theorem State.cell_congr {s t : State} (h : t.cells = s.cells) (c : CoreId) : t.cell c = s.cell c := by simp only [cell, h]
theorem State.fn_congr {s t : State} (h : t.fns = s.fns) (f : FnId) : t.fn f = s.fn f := by simp only [fn, h]

/-! ## What completion and the count of a change leave -/

@[simp] theorem State.complete_fns (s : State) (o : Op) (status cause count detail : Nat) :
    (s.complete o status cause count detail).fns = s.fns := (Laws.Notices.postRecord _ _ _ _).fns

@[simp] theorem State.complete_beat (s : State) (o : Op) (status cause count detail : Nat) :
    (s.complete o status cause count detail).beat = s.beat := (Laws.Notices.postRecord _ _ _ _).beat

@[simp] theorem State.complete_cells (s : State) (o : Op) (status cause count detail : Nat) :
    (s.complete o status cause count detail).cells = s.cells := (Laws.Notices.postRecord _ _ _ _).cells

/-- A change of the cell map is recorded in the store, counted and raised. -/
theorem State.countMapChange_notices (s : State) : Laws.Notices s.storeCellMap s.countMapChange :=
  (Laws.Notices.count ..).trans (Laws.Notices.raise ..)

@[simp] theorem State.storeCellMap_cells (s : State) : s.storeCellMap.cells = s.cells := by simp only [storeCellMap, storeRecord]
@[simp] theorem State.storeCellMap_fns (s : State) : s.storeCellMap.fns = s.fns := by simp only [storeCellMap, storeRecord]
@[simp] theorem State.storeCellMap_beat (s : State) : s.storeCellMap.beat = s.beat := by simp only [storeCellMap, storeRecord]

@[simp] theorem State.countMapChange_cells (s : State) : s.countMapChange.cells = s.cells :=
  s.countMapChange_notices.cells.trans s.storeCellMap_cells

@[simp] theorem State.countMapChange_fns (s : State) : s.countMapChange.fns = s.fns :=
  s.countMapChange_notices.fns.trans s.storeCellMap_fns

@[simp] theorem State.countMapChange_beat (s : State) : s.countMapChange.beat = s.beat :=
  s.countMapChange_notices.beat.trans s.storeCellMap_beat

@[simp] theorem State.clearCore_cells (s : State) (c : Nat) : (s.clearCore c).cells = s.cells := by simp only [clearCore, clearPage]
@[simp] theorem State.clearCore_fns (s : State) (c : Nat) : (s.clearCore c).fns = s.fns := by simp only [clearCore, clearPage]
@[simp] theorem State.clearCore_beat (s : State) (c : Nat) : (s.clearCore c).beat = s.beat := by simp only [clearCore, clearPage]

@[simp] theorem State.prepareCore_cells (s : State) (c : CoreId) : (s.prepareCore c).cells = s.cells := by
  simp only [prepareCore, clearCore_cells, scrubScratchpad, scrubEngines, setTe_cells, setMe_cells]

/-! ## A reserve core is taken -/

/-- A core taken from the reserve was eligible, with nothing else to become of it. -/
theorem State.takeReserve_some {s t : State} {f : FnId} {l : Nat} (h : s.takeReserve f l = some t) :
    ∃ c, (s.cell c).st = .eligible ∧ (s.cell c).nextSt = none ∧ t = s.enterService f l c := by
  unfold takeReserve at h
  split at h
  · cases h
  · split at h
    · cases h
    · next c rest hc =>
      split at h
      · cases h
      · have hmem : c ∈ s.reserveFor f (s.fn f).quiet := hc ▸ List.mem_cons_self
        simp only [reserveFor, placeable, free, List.mem_filter, Bool.and_eq_true, decide_eq_true_eq, Option.isNone_iff_eq_none] at hmem
        obtain ⟨-, hst, ⟨⟨-, hnext⟩, -⟩, -⟩ := hmem
        exact ⟨c, hst, hnext, (Option.some.inj h).symm⟩

/-- The core that enters service is the only one that changes. -/
theorem State.enterService_cell_ne {s : State} {f : FnId} {l : Nat} {c k : CoreId} (h : c ≠ k) :
    (s.enterService f l c).cell k = s.cell k := by
  simp only [enterService, serve, modCell]
  rw [cell_setCell_ne _ _ _ _ h, cell_congr (s.prepareCore_cells c)]

/-- A core that is not in the eligible reserve, or that is to leave its state, is not taken. -/
theorem State.takeReserve_cell {s t : State} {f : FnId} {l : Nat} {k : CoreId} (h : s.takeReserve f l = some t)
    (hk : (s.cell k).st ≠ .eligible ∨ (s.cell k).nextSt ≠ none) : t.cell k = s.cell k := by
  obtain ⟨c, hst, hnext, rfl⟩ := takeReserve_some h
  refine enterService_cell_ne fun e => ?_
  subst e
  exact hk.elim (absurd hst) (absurd hnext)

theorem State.replaceCore_cell {s : State} {c k : CoreId} {f : FnId} {l : Nat}
    (hk : (s.cell k).st ≠ .eligible ∨ (s.cell k).nextSt ≠ none) : (s.replaceCore c f l).cell k = s.cell k := by
  unfold replaceCore
  split
  · next t ht => exact (cell_congr t.countMapChange_cells k).trans (takeReserve_cell ht hk)
  · exact cell_congr ((Laws.Notices.raiseFn ..).trans (Laws.Notices.logEvent ..)).cells k

/-- Mapping unavailable logical numbers again leaves every core outside the eligible reserve. -/
theorem State.refillCores_cell {s : State} {k : CoreId} (hk : (s.cell k).st ≠ .eligible) : s.refillCores.cell k = s.cell k := by
  refine List.foldlRecOn (motive := fun (t : State) => t.cell k = s.cell k) _ _ rfl fun t ht f _ => ?_
  refine List.foldlRecOn (motive := fun (t : State) => t.cell k = s.cell k) _ _ ht fun t ht l _ => ?_
  split
  · next u hu =>
    exact (cell_congr (Laws.Notices.raiseFn ..).cells k).trans ((cell_congr (countMapChange_cells _) k).trans
      ((takeReserve_cell hu (.inl (ht ▸ hk))).trans ht))
  · exact ht

/-! ## A quarantined core leaves the map -/

/-- A core whose quarantine has taken effect, at the boundary. -/
def Cell.leave (x : Cell) : Cell :=
  { x with st := .quarantined, quarantining := false, scrubbing := true, nextSt := none, owner := none, taking := none }

theorem State.replaceQuarantined_of_ne {s : State} {c : CoreId} (h : (s.cell c).nextSt ≠ some .quarantined) :
    s.replaceQuarantined c = s := if_pos h

theorem State.replaceQuarantined_cell_same {s : State} {c : CoreId} (h : (s.cell c).nextSt = some .quarantined) :
    (s.replaceQuarantined c).cell c = (s.cell c).leave := by
  unfold replaceQuarantined
  extract_lets x t u
  have hu : u.cell c = x.leave := by
    have hcells : u.cells = t.cells := ((Laws.Notices.raise ..).trans (Laws.Notices.raise ..)).cells.trans t.countMapChange_cells
    exact (cell_congr hcells c).trans (cell_setCell ..)
  have hst : (u.cell c).st ≠ .eligible := by rw [hu]; exact nofun
  rw [if_neg (not_not_intro h)]
  split
  · split
    · exact hu
    · exact (replaceCore_cell (.inl hst)).trans hu
  · exact hu

theorem State.replaceQuarantined_cell_ne {s : State} {c k : CoreId} (h : c ≠ k)
    (hk : (s.cell k).st ≠ .eligible ∨ (s.cell k).nextSt ≠ none) : (s.replaceQuarantined c).cell k = s.cell k := by
  unfold replaceQuarantined
  extract_lets x t u
  have hu : u.cell k = s.cell k := by
    have hcells : u.cells = t.cells := ((Laws.Notices.raise ..).trans (Laws.Notices.raise ..)).cells.trans t.countMapChange_cells
    exact (cell_congr hcells k).trans (cell_setCell_ne _ _ _ _ h)
  split
  · rfl
  · split
    · split
      · exact hu
      · exact (replaceCore_cell (hu ▸ hk)).trans hu
    · exact hu

/-! ## Cores that change their state, and cores that enter service -/

theorem State.mapOne_of_none {s : State} {c : CoreId} (h : (s.cell c).nextSt = none) : s.mapOne c = s := by
  simp only [mapOne, h]

theorem State.mapOne_cell {s : State} {c k : CoreId} (hk : (s.cell k).nextSt = none) : (s.mapOne c).cell k = s.cell k := by
  by_cases h : c = k
  · subst h; rw [mapOne_of_none hk]
  · unfold mapOne
    extract_lets x
    split
    · split
      · rfl
      · rw [cell_congr (countMapChange_cells _), cell_setCell_ne _ _ _ _ h]
        split
        · exact cell_congr (s.clearCore_cells _) k
        · rfl
    · rfl

/-- A core that was given to a function, in service for it. -/
def Cell.serving (x : Cell) (f : FnId) (l : Nat) : Cell := { x with st := .inService, owner := some f, logical := l, taking := none }

theorem State.enterTaken_cell_same {s : State} {c : CoreId} {f : FnId} {l : Nat} (h : (s.cell c).taking = some (f, l))
    (hq : (s.cell c).quarantining = false) : (s.enterTaken c).cell c = (s.cell c).serving f l := by
  simp only [enterTaken, h, hq, Bool.false_eq_true, if_false]
  exact (cell_congr (countMapChange_cells _) c).trans (cell_setCell ..)

theorem State.enterTaken_of_none {s : State} {c : CoreId} (h : (s.cell c).taking = none) : s.enterTaken c = s := by
  simp only [enterTaken, h]

theorem State.enterTaken_cell_ne {s : State} {c k : CoreId} (h : c ≠ k) : (s.enterTaken c).cell k = s.cell k := by
  unfold enterTaken
  split
  · split
    · rfl
    · exact (cell_congr (countMapChange_cells _) k).trans (cell_setCell_ne _ _ _ _ h)
  · rfl

theorem State.enterTaken_cell_of_none {s : State} {c k : CoreId} (hk : (s.cell k).taking = none) :
    (s.enterTaken c).cell k = s.cell k := by
  by_cases h : c = k
  · subst h; rw [enterTaken_of_none hk]
  · exact enterTaken_cell_ne h

/-! ## What waited for the map -/

@[simp] theorem State.mapDone_cells (s : State) (f : FnId) : (s.mapDone f).cells = s.cells := by
  unfold mapDone
  split
  · rfl
  · dsimp only
    split
    · exact complete_cells ..
    · rfl

/-- What waited for the map completes: nothing of the functions changes but the mark of the one that waited. -/
theorem State.mapDone_fns (s : State) (f : FnId) : (s.mapDone f).fns = (s.setFn f { s.fn f with mapOp := none }).fns := by
  unfold mapDone
  split
  · next h =>
    have hself : { s.fn f with mapOp := none } = s.fn f := by rw [← h]
    rw [hself]
    exact (Vector.set_getElem_self (xs := s.fns) f.isLt).symm
  · dsimp only
    split
    · exact complete_fns ..
    · rfl

theorem State.mapDone_mapOp_same (s : State) (f : FnId) : ((s.mapDone f).fn f).mapOp = none := by
  rw [fn_congr (s.mapDone_fns f), fn_setFn]

theorem State.mapDone_fn_ne {s : State} {f g : FnId} (h : f ≠ g) : (s.mapDone f).fn g = s.fn g := by
  rw [fn_congr (s.mapDone_fns f), fn_setFn_ne _ _ _ _ h]

/-! ## The whole map -/

/-- No create or restore waits for the map after it has changed. -/
theorem State.cellMapNow_mapOp (s : State) (f : FnId) : (s.cellMapNow.fn f).mapOp = none := by
  unfold cellMapNow
  exact foldl_meets_once (before := fun _ => True) (after := fun (t : State) => (t.fn f).mapOp = none) (fun _ _ _ _ => trivial)
    (fun t _ => t.mapDone_mapOp_same f) (fun t _ h ht => (congrArg Fn.mapOp (mapDone_fn_ne h)).trans ht) nodup_allFns (mem_allFns f) trivial

/-- After the cores' own changes, a core outside the eligible reserve stays as it is. -/
theorem State.mapDone_refillCores_cell {s : State} {k : CoreId} (hk : (s.cell k).st ≠ .eligible) :
    (allFns.foldl (fun s f => s.mapDone f) s.refillCores).cell k = s.cell k :=
  List.foldlRecOn (motive := fun (t : State) => t.cell k = s.cell k) _ _ (refillCores_cell hk)
    fun t ht f _ => (cell_congr (t.mapDone_cells f) k).trans ht

theorem State.finishMove_of_none {s : State} {c : CoreId} (h : (s.cell c).moveTo = none) : s.finishMove c = s := by
  simp only [finishMove, h]

/-- Without planned moves and without cores that change their state, the cores that were given away enter service. -/
theorem State.cellMapNow_of_calm {s : State} (hmove : ∀ k, (s.cell k).moveTo = none) (hnext : ∀ k, (s.cell k).nextSt = none) :
    s.cellMapNow = allFns.foldl (fun s f => s.mapDone f) (allCores.foldl (fun s c => s.enterTaken c) s).refillCores := by
  have hquiet : ∀ c, s.replaceQuarantined c = s := fun c => replaceQuarantined_of_ne (by simp [hnext c])
  unfold cellMapNow
  dsimp only
  rw [foldl_eq_self (fun c => finishMove_of_none (hmove c)), foldl_eq_self hquiet,
    foldl_eq_self (fun c => mapOne_of_none (hnext c))]

theorem State.cellMapNow_cell_of_taking {s : State} {c : CoreId} {f : FnId} {l : Nat} (hmove : ∀ k, (s.cell k).moveTo = none)
    (hnext : ∀ k, (s.cell k).nextSt = none) (htake : (s.cell c).taking = some (f, l)) (hq : (s.cell c).quarantining = false) :
    s.cellMapNow.cell c = (s.cell c).serving f l := by
  have hin : (allCores.foldl (fun s c => s.enterTaken c) s).cell c = (s.cell c).serving f l :=
    foldl_meets_once (before := fun (t : State) => t.cell c = s.cell c) (after := fun t => t.cell c = (s.cell c).serving f l)
      (fun t b h ht => (enterTaken_cell_ne h).trans ht) (fun t ht => by rw [enterTaken_cell_same (ht ▸ htake) (ht ▸ hq), ht])
      (fun t b h ht => (enterTaken_cell_ne h).trans ht) nodup_allCores (mem_allCores c) rfl
  have hst : ((s.cell c).serving f l).st ≠ .eligible := nofun
  rw [cellMapNow_of_calm hmove hnext, mapDone_refillCores_cell (hin ▸ hst), hin]

theorem State.cellMapNow_cell_of_quarantined {s : State} {c : CoreId} (hmove : ∀ k, (s.cell k).moveTo = none)
    (hq : (s.cell c).nextSt = some .quarantined) : s.cellMapNow.cell c = (s.cell c).leave := by
  have hnext : (s.cell c).nextSt ≠ none := by simp [hq]
  have hst : (s.cell c).leave.st ≠ .eligible := nofun
  have hleft : (allCores.foldl (fun s c => s.replaceQuarantined c) s).cell c = (s.cell c).leave :=
    foldl_meets_once (before := fun (t : State) => t.cell c = s.cell c) (after := fun t => t.cell c = (s.cell c).leave)
      (fun t b h ht => (replaceQuarantined_cell_ne h (.inr (ht ▸ hnext))).trans ht)
      (fun t ht => by rw [replaceQuarantined_cell_same (ht ▸ hq), ht])
      (fun t b h ht => (replaceQuarantined_cell_ne h (.inl (ht ▸ hst))).trans ht) nodup_allCores (mem_allCores c) rfl
  unfold cellMapNow
  dsimp only
  rw [foldl_eq_self (fun c => finishMove_of_none (hmove c))]
  generalize allCores.foldl (fun s c => s.replaceQuarantined c) s = t at hleft
  have hmapped : (allCores.foldl (fun s c => s.mapOne c) t).cell c = (s.cell c).leave :=
    List.foldlRecOn (motive := fun (u : State) => u.cell c = (s.cell c).leave) _ _ hleft
      fun u hu b _ => (mapOne_cell (by rw [hu]; rfl)).trans hu
  generalize allCores.foldl (fun s c => s.mapOne c) t = u at hmapped
  have hentered : (allCores.foldl (fun s c => s.enterTaken c) u).cell c = (s.cell c).leave :=
    List.foldlRecOn (motive := fun (u : State) => u.cell c = (s.cell c).leave) _ _ hmapped
      fun u hu b _ => (enterTaken_cell_of_none (by rw [hu]; rfl)).trans hu
  rw [mapDone_refillCores_cell (hentered ▸ hst), hentered]

/-! ## Orders and scrubs -/

@[simp] theorem State.setTe_me (s : State) (i : Nat) (x : Te) (k : Nat) : (s.setTe i x).me k = s.me k := by simp only [me, setTe_mes]

theorem exec_managementOrderEffect (core : CoreId) (w : Order) (s : State) :
    exec (.managementOrderEffect core w) s = execManagementOrderEffect core w s := rfl

/-- A core is scrubbed while it stands in reserve or quarantined with its scrub to come, and else left. -/
theorem exec_coreScrub_of_not_scrubbing {s : State} {core : CoreId} (h : (s.cell core).st = .inService ∨ (s.cell core).scrubbing = false)
    (clean : Bool) : exec (.coreScrub core clean) s = .next s :=
  if_pos (h.imp_right fun hscrub => by rw [hscrub]; rfl)

theorem exec_coreScrub_clean {s : State} {core : CoreId} (hst : (s.cell core).st ≠ .inService) (hscrub : (s.cell core).scrubbing = true) :
    exec (.coreScrub core true) s = .next (((s.scrubEngines core.val).scrubScratchpad core.val).setCell core
      { s.cell core with scrubbing := false, owner := none }) :=
  if_neg (by simp [hst, hscrub])

theorem exec_coreScrub_failed {s : State} {core : CoreId} (hst : (s.cell core).st ≠ .inService) (hscrub : (s.cell core).scrubbing = true)
    (hquar : (s.cell core).st ≠ .quarantined) :
    exec (.coreScrub core false) s = .next ((((s.scrubEngines core.val).scrubScratchpad core.val).setCell core
      { s.cell core with owner := none }).orderQuarantine core 3) :=
  (if_neg (by simp [hst, hscrub])).trans (if_neg hquar)

/-- A quarantine that takes effect names the state its core takes at the boundary, whatever work it withdraws. -/
theorem State.quarantine_startPlan_nextSt (s : State) (c : CoreId) (d : Nat) :
    (((s.quarantine c).startPlan d).cell c).nextSt = some .quarantined := by
  simp only [quarantine, startPlan, modCell]
  rw [cell_congr (setDie_cells ..), cell_setCell]

theorem State.startPlan_planRunning (s : State) (d : Nat) : ((s.startPlan d).die d).planRunning = true :=
  congrArg Die.planRunning (die_setDie ..)

/-- An order of quarantine stands on a core that is not quarantined yet. -/
theorem State.orderQuarantine_quarantining {s : State} {c : CoreId} (h : (s.cell c).st ≠ .quarantined) (cause : Nat) :
    ((s.orderQuarantine c cause).cell c).quarantining = true := by
  unfold orderQuarantine
  extract_lets x d0
  split
  · next hx => exact hx.resolve_left h
  · rw [cell_congr (Laws.Notices.logEvent ..).cells, cell_setCell]

theorem State.scrubScratchpad_memByte_in {s : State} {c a : Nat} (h : spKey c 0 ≤ a) (h' : a < spKey c 0 + 2 ^ 24) :
    memByte (s.scrubScratchpad c).mem a = 0 :=
  SMap.get_filter_of_neg fun _ => by simp only [decide_eq_true h, decide_eq_true h', Bool.and_self, Bool.not_true]

theorem State.scrubScratchpad_memByte_out {s : State} {c a : Nat} (h : a < spKey c 0 ∨ spKey c 0 + 2 ^ 24 ≤ a) :
    memByte (s.scrubScratchpad c).mem a = memByte s.mem a :=
  SMap.get_filter_of_pos fun _ => by simpa using h.imp id id

theorem State.scrubEngines_me0 (s : State) (c : Nat) : (s.scrubEngines c).me (meInst c 0) = Me.reset := by
  simp only [scrubEngines, setTe_me]
  rw [me_setMe_ne _ _ _ _ (by simp [meInst]), me_setMe]

theorem State.scrubEngines_me1 (s : State) (c : Nat) : (s.scrubEngines c).me (meInst c 1) = Me.reset := by
  simp only [scrubEngines, setTe_me, me_setMe]

theorem State.scrubEngines_te (s : State) (c : Nat) : (s.scrubEngines c).te c = Te.reset := by simp only [scrubEngines, te_setTe]

end Sys2Proof.Machine

namespace Sys2Proof.Laws

open Sys2Proof.Machine

/-- Settles O46: the orders, the map at the boundary and the scrub, each by its own rule. -/
theorem cellMapKept : Obligations.CellMapKept := by
  refine ⟨fun s core => ?orders, fun s hmove => ⟨s.cellMapNow, rfl, s.cellMapNow_mapOp, ?entered, ?quarantined⟩, fun s core => ?scrub⟩
  case orders =>
    intro x effect
    simp only [effect, exec_managementOrderEffect, execManagementOrderEffect]
    refine ⟨fun hq hn hb => ⟨_, if_pos ⟨hq, hn, by simp [hb]⟩, State.quarantine_startPlan_nextSt .., State.startPlan_planRunning ..⟩,
      fun h => if_neg ?_, fun hb => if_neg (by simp [hb]), fun hst ho => if_pos ⟨hst, Option.isNone_iff_eq_none.mpr ho⟩, fun ht => if_pos ht,
      fun f ho hf => ?_, fun hq => if_pos hq, trivial, trivial⟩
    · rintro ⟨hq, hn, hb⟩
      rcases h with h | h | h
      · exact Bool.false_ne_true (h.symm.trans hq)
      · exact hn h
      · simp [h] at hb
    · simp only [show (s.cell core).owner = some f from ho, hf, if_true]
  case entered =>
    intro c f l hnext htake hq
    rw [State.cellMapNow_cell_of_taking hmove hnext htake hq]
    exact ⟨rfl, rfl, rfl, rfl⟩
  case quarantined =>
    intro c hq
    rw [State.cellMapNow_cell_of_quarantined hmove hq]
    exact ⟨rfl, rfl, rfl, rfl⟩
  case scrub =>
    refine ⟨fun hst hscrub => ⟨⟨_, exec_coreScrub_clean hst hscrub, ?_⟩, fun hquar => ⟨_, exec_coreScrub_failed hst hscrub hquar, ?_⟩⟩,
      exec_coreScrub_of_not_scrubbing⟩
    · rw [State.cell_setCell]
      exact ⟨rfl, rfl, rfl, fun a => State.scrubScratchpad_memByte_in, fun a => State.scrubScratchpad_memByte_out,
        s.scrubEngines_me0 _, s.scrubEngines_me1 _, s.scrubEngines_te _⟩
    · exact State.orderQuarantine_quarantining (by rw [State.cell_setCell]; exact hquar) 3

end Sys2Proof.Laws

/-! # The beat edge (R27, R36, R45, R52)

Most of what happens at a beat edge, deadlines and decisions among it, leaves the clocks alone: those of the beat and those of the
plans. That is said once for every operation that an edge may reach; the edge then changes the clocks in two places only, the count of
the edge and the tick of each plan. -/

namespace Sys2Proof.Machine

/-- The clock of the beat: its number, whether it is set, an epoch that is armed, the hold beats granted, and the edges since a SYNC. -/
def Beat.clock (b : Beat) : BitVec 64 × Bool × Option (Nat × BitVec 64) × List (Nat × Nat × Nat) × Bool × Nat :=
  (b.number, b.epochSet, b.armed, b.holds, b.holding, b.sinceSync)

/-- The clock of a plan: its header and events, whether it runs, and the beats it has run. -/
def Plan.clocked (p : Plan) : BitVec 512 × List (BitVec 256) × Bool × Nat := (p.header, p.events, p.running, p.clock)

/-- What decides whether a function's plan runs on. -/
def Fn.planned (x : Fn) : FnState × Option Plan × Option (BitVec 512 × List (BitVec 256) × Bool × Nat) :=
  (x.st, x.pendingPlan, x.active.map Plan.clocked)

end Sys2Proof.Machine

namespace Sys2Proof.Laws

open Sys2Proof.Machine

/-- The second state has the clocks of the first: the beat's and every plan's. -/
structure Steady (s t : State) : Prop where
  beat : t.beat.clock = s.beat.clock
  plans : ∀ f, (t.fn f).planned = (s.fn f).planned

namespace Steady

theorem refl (s : State) : Steady s s := ⟨rfl, fun _ => rfl⟩

theorem trans {s t u : State} (h1 : Steady s t) (h2 : Steady t u) : Steady s u :=
  ⟨h2.beat.trans h1.beat, fun f => (h2.plans f).trans (h1.plans f)⟩

theorem of_eq {s t : State} (hb : t.beat = s.beat) (hf : t.fns = s.fns) : Steady s t :=
  ⟨congrArg Beat.clock hb, fun f => congrArg Fn.planned (State.fn_congr hf f)⟩

theorem notices {s t : State} (h : Notices s t) : Steady s t := of_eq h.beat h.fns

theorem ite {s t u : State} {c : Prop} [Decidable c] (ht : Steady s t) (hu : Steady s u) : Steady s (if c then t else u) := by
  split
  · exact ht
  · exact hu

theorem foldl {α : Type} (step : State → α → State) (xs : List α) (s : State) (h : ∀ s x, Steady s (step s x)) :
    Steady s (xs.foldl step s) :=
  List.foldlRecOn xs step (refl s) fun t ht x _ => ht.trans (h t x)

theorem modFn (s : State) (f : FnId) {g : Fn → Fn} (h : ∀ x, (g x).planned = x.planned) : Steady s (s.modFn f g) where
  beat := rfl
  plans k := by
    by_cases hk : f = k
    · subst hk; rw [State.modFn, State.fn_setFn, h]
    · rw [State.modFn, State.fn_setFn_ne _ _ _ _ hk]

theorem modBeat (s : State) {g : Beat → Beat} (h : ∀ b, (g b).clock = b.clock) : Steady s (s.modBeat g) := ⟨h s.beat, fun _ => rfl⟩

theorem modPlan (s : State) (f : FnId) {g : Plan → Plan} (h : ∀ p, (g p).clocked = p.clocked) : Steady s (s.modPlan f g) :=
  modFn s f fun x => by
    have hmap : Plan.clocked ∘ g = Plan.clocked := funext h
    simp only [Fn.planned, Option.map_map, hmap]

/-! ## Fields that hold no clock -/

theorem setPort (s : State) (p : Nat) (x : Port) : Steady s (s.setPort p x) := of_eq rfl rfl
theorem setJob (s : State) (j : Nat) (x : MasterJob) : Steady s (s.setJob j x) := of_eq rfl rfl
theorem setCtx (s : State) (c : Nat) (x : BitVec 1024) : Steady s (s.setCtx c x) := of_eq rfl rfl
theorem setLink (s : State) (i : Nat) (x : LinkSlot) : Steady s (s.setLink i x) := of_eq rfl rfl
theorem setMe (s : State) (i : Nat) (x : Me) : Steady s (s.setMe i x) := of_eq rfl rfl
theorem setDie (s : State) (d : Nat) (x : Die) : Steady s (s.setDie d x) := of_eq rfl rfl
theorem setCell (s : State) (c : CoreId) (x : Cell) : Steady s (s.setCell c x) := of_eq rfl rfl
theorem setReduces (s : State) (rs : List Reduce) : Steady s { s with reduces := rs } := of_eq rfl rfl
theorem setCtxs (s : State) (m : SMap (BitVec 1024)) : Steady s { s with ctxs := m } := of_eq rfl rfl
theorem setMem (s : State) (m : List Host.Cell) (n : Nat) : Steady s { s with mem := m, fresh := n } := of_eq rfl rfl
theorem setPower (s : State) (x : Power) : Steady s { s with power := x } := of_eq rfl rfl
theorem modJob (s : State) (f : FnId) (g : JobState → JobState) : Steady s (s.modJob f g) := modFn s f fun _ => rfl
theorem modStep (s : State) (f : FnId) (g : StepState → StepState) : Steady s (s.modStep f g) := modFn s f fun _ => rfl

theorem write (s : State) (a : Nat) (bs : List Byte) : Steady s (s.write a bs) := of_eq rfl rfl
theorem setReg (s : State) (win off v : Nat) : Steady s (s.setReg win off v) := of_eq rfl rfl
theorem setQueue (s : State) (q : Nat) (x : Queue) : Steady s (s.setQueue q x) := of_eq rfl rfl
theorem draw (s : State) : Steady s s.draw.2 := of_eq rfl rfl
theorem count (s : State) (off n : Nat) : Steady s (s.count off n) := of_eq rfl rfl
theorem addReg (s : State) (win off n : Nat) : Steady s (s.addReg win off n) := of_eq rfl rfl
theorem wait (s : State) (off : Nat) : Steady s (s.wait off) := notices (Notices.wait s off)
theorem raise (s : State) (page bit : Nat) : Steady s (s.raise page bit) := notices (Notices.raise s page bit)
theorem logFn (s : State) (code : Nat) (f : FnId) (inst d0 d1 : Nat) : Steady s (s.logFn code f inst d0 d1) :=
  notices (Notices.logFn ..)

/-! ## Operations that end -/

theorem complete (s : State) (o : Op) (status cause n detail : Nat) : Steady s (s.complete o status cause n detail) :=
  of_eq (s.complete_beat ..) (s.complete_fns ..)

theorem done (s : State) (o : Op) : Steady s (s.done o) := complete ..

theorem kill (s : State) (o : Op) (status cause : Nat) : Steady s (s.kill o status cause) :=
  have hparked : Steady s { s with parked := (takeFirst (parkedFor o) s.parked).2 } := of_eq rfl rfl
  hparked.trans (complete ..)

theorem killAll (s : State) (os : List Op) (status : Nat) : Steady s (s.killAll os status) := foldl _ _ _ fun s o => kill s o status 0

/-! ## Frames and messages that go out -/

theorem sendOn (s : State) (p : Nat) (fr : Frame) : Steady s (s.sendOn p fr) :=
  ite (refl s) (ite (ite ((setPort ..).trans (wait ..)) (setPort ..)) (refl s))

theorem sendDown (s : State) (msg : BitVec 256) : Steady s (s.sendDown msg) := foldl _ _ _ fun s p => sendOn s p _

theorem sendUpTree (s : State) (msg : BitVec 256) : Steady s (s.sendUpTree msg) := by
  unfold State.sendUpTree; split
  · exact sendOn ..
  · exact refl s

theorem sendMgmt (s : State) (chip : Nat) (payload : List Byte) : Steady s (s.sendMgmt chip payload) := by
  unfold State.sendMgmt; dsimp only; split
  · exact sendOn ..
  · exact refl s

theorem sendHellos (s : State) : Steady s s.sendHellos := foldl _ _ _ fun s _ => ite (refl s) (sendOn ..)

/-! ## Power shifts -/

theorem offsetOf (s : State) (j : MasterJob) (chip : Nat) : Steady s (s.offsetOf j chip).2 := by
  unfold State.offsetOf; split
  · exact refl s
  · split
    · exact refl s
    · split
      · exact draw s
      · exact refl s

theorem shiftMember (s : State) (job chip : Nat) (w : Int) : Steady s (s.shiftMember job chip w) := by
  unfold State.shiftMember
  extract_lets j
  have hoff : Steady s (s.offsetOf j chip).2 := offsetOf ..
  generalize s.offsetOf j chip = r at hoff
  obtain ⟨old, t⟩ := r
  exact (hoff.trans (setJob ..)).trans (ite (ite (setPower ..) (refl _)) (sendMgmt ..))

theorem shiftPower (s : State) (job step : Nat) : Steady s (s.shiftPower job step) :=
  ite (refl s) (foldl _ _ _ fun s _ => (shiftMember s ..).trans (shiftMember ..))

/-! ## The step boundary -/

theorem dropKept (s : State) (f : FnId) : Steady s (s.dropKept f) := foldl _ _ _ fun s p => setPort s p _

theorem spoilScarf (s : State) (f : FnId) : Steady s (s.spoilScarf f) := by
  unfold State.spoilScarf; split
  · exact refl s
  · exact foldl _ _ _ fun s p => setMem s _ _

theorem breakJob (s : State) (f : FnId) : Steady s (s.breakJob f) := ite (refl s) ((modJob ..).trans (raise ..))

theorem allWatch (s : State) (f : FnId) (g : BitVec 1024 → BitVec 1024) : Steady s (s.allWatch f g) := by
  unfold State.allWatch; split
  · refine foldl _ _ _ fun s id => ?_
    split
    · exact write ..
    · exact refl s
  · exact refl s

theorem endTrainings (s : State) (f : FnId) : Steady s (s.endTrainings f) :=
  (foldl _ _ _ fun s _ => ite (setCtx ..) (refl s)).trans (modStep ..)

theorem endScarf (s : State) (f : FnId) : Steady s (s.endScarf f) := by
  unfold State.endScarf; split
  · exact refl s
  · extract_lets t
    have ht : Steady s t := modJob ..
    split
    · exact ht.trans (done ..)
    · exact ht

theorem discardStages (s : State) (f : FnId) : Steady s (s.discardStages f) :=
  (killAll ..).trans (ite (refl _) (count ..))

theorem dropLinks (s : State) (job : Nat) : Steady s (s.dropLinks job) :=
  ite (foldl _ _ _ fun s _ => ite (setLink ..) (refl s)) (refl s)

theorem takeMap (s : State) (f : FnId) (m : BitVec 512) : Steady s (s.takeMap f m) :=
  ((modJob ..).trans (dropLinks ..)).trans (sendHellos _)

theorem runSave (s : State) (o : Op) (d : Desc) : Steady s (s.runSave o d) := by
  unfold State.runSave; dsimp only; split
  · exact complete ..
  · exact (((write ..).trans (modJob ..)).trans (done ..)).trans (raise ..)

/-- The rules of a step boundary set no clock. -/
theorem boundary (s : State) (f : FnId) : Steady s (s.boundary f) := by
  unfold State.boundary
  extract_lets t u v w job openNow x
  have hu : Steady s u := (modJob s f _).trans (of_eq rfl rfl)
  have hv : Steady u v := modJob ..
  have hw : Steady v w := by
    subst w; split
    · exact takeMap ..
    · exact refl v
  have hx : Steady w x := foldl _ _ _ fun s i => ite (setLink ..) (refl s)
  refine (((hu.trans hv).trans hw).trans hx).trans ?_
  split
  · split
    · exact runSave ..
    · exact refl x
  · exact refl x

theorem applyDecision (s : State) (f : FnId) (d : Decision) : Steady s (s.applyDecision f d) := by
  unfold State.applyDecision
  extract_lets job j t u ctxs v w x y u' v' w' x' y' z' e'
  have ht : Steady s t := setJob ..
  refine ite ?_ ?_
  · have hv : Steady t v := (modStep t f _).trans (setCtxs ..)
    have hw : Steady v w := (endTrainings ..).trans (endScarf ..)
    exact (((ht.trans hv).trans hw).trans ((allWatch ..).trans (count ..))).trans ((discardStages ..).trans (boundary ..))
  · have hw : Steady t w' := ((modStep t f _).trans (endTrainings ..)).trans (allWatch ..)
    have hx : Steady w' x' := of_eq rfl rfl
    have hz : Steady x' z' := ((count ..).trans (raise ..)).trans (logFn ..)
    have he : Steady z' e' := ite (((breakJob ..).trans (raise ..)).trans (logFn ..)) (refl z')
    exact ((((ht.trans hw).trans hx).trans hz).trans he).trans (boundary ..)

theorem holdDecision (s : State) (job : Nat) (d : Decision) : Steady s (s.holdDecision job d) := by
  refine foldl _ _ _ fun s f => ite (refl s) ?_
  extract_lets t scarf u v w
  have hw : Steady t w := by
    refine ite (refl t) ((((setReduces t _).trans (dropKept _ f)).trans (killAll ..)).trans (ite ?_ (refl v)))
    exact (spoilScarf ..).trans (breakJob ..)
  exact ((modStep s f _).trans hw).trans (ite (applyDecision ..) (refl w))

theorem broadcast (s : State) (job : Nat) (d : Decision) : Steady s (s.broadcast job d) := (sendDown ..).trans (holdDecision ..)

theorem decideStep (s : State) (job step : Nat) (isCommit : Bool) (cause : Nat) : Steady s (s.decideStep job step isCommit cause) :=
  ((setJob ..).trans (ite (shiftPower ..) (refl _))).trans (ite (sendMgmt ..) (broadcast ..))

theorem toMaster (s : State) (kind step job arg2 : Nat) : Steady s (s.toMaster kind step job arg2) :=
  ite (ite (ite (refl s) ((setJob ..).trans (ite (decideStep ..) (refl _)))) (ite (refl s) (decideStep ..))) (sendUpTree ..)

theorem vote (s : State) (f : FnId) (cause : Nat) : Steady s (s.vote f cause) := ite ((modStep ..).trans (toMaster ..)) (refl s)

/-- A failure, with the vote and the decisions that come of it, sets no clock. -/
theorem fail (s : State) (o : Op) (cause detail : Nat) : Steady s (s.fail o cause detail) :=
  (complete ..).trans (ite (ite (refl _) ((modStep ..).trans (vote ..))) (refl _))

end Steady

end Sys2Proof.Laws

namespace Sys2Proof.Laws.Steady

open Sys2Proof.Machine

/-! ## Reduces (R305 to R320) -/

theorem modReduce (s : State) (r : OpRef) (g : Reduce → Reduce) : Steady s (s.modReduce r g) := setReduces ..
theorem modChunk (s : State) (r : OpRef) (c : Nat) (g : Chunk → Chunk) : Steady s (s.modChunk r c g) := modReduce ..
theorem endReduce (s : State) (r : OpRef) (status cause : Nat) : Steady s (s.endReduce r status cause) := modReduce ..
theorem writeResults (s : State) (r : Reduce) (c e : Nat) (codes : List Nat) : Steady s (s.writeResults r c e codes) := write ..

theorem sealFrame (s : State) (f : FnId) (fr : Frame) : Steady s (s.sealFrame f fr).2 := by
  unfold State.sealFrame; split
  · exact refl s
  · exact setLink ..

theorem sendRed (s : State) (f : FnId) (p : Nat) (fr : Frame) : Steady s (s.sendRed f p fr).2 :=
  (sealFrame s f fr).trans (sendOn ..)

theorem sendWindows (s : State) (r : Reduce) (p first : Nat) (ws : List Int) : Steady s (s.sendWindows r p first ws) := sendRed ..

theorem windowsUp (s : State) (r : OpRef) : Steady s (s.windowsUp r) := by
  unfold State.windowsUp; split
  · exact refl s
  · refine foldl _ _ _ fun s b => ?_
    dsimp only; split
    · exact ite ((sendWindows ..).trans (foldl _ _ _ fun s c => modChunk s r c.1 _)) (refl s)
    · exact refl s

theorem settleSpecial (s : State) (x : Reduce) (c : Nat) (w : Int) : Steady s (s.settleSpecial x c w) :=
  ite (refl s) ((writeResults ..).trans (modChunk ..))

theorem agree (s : State) (x : Reduce) (c : Nat) (w : Int) : Steady s (s.agree x c w) := (modChunk ..).trans (settleSpecial ..)

theorem agreeOwn (s : State) (r : OpRef) : Steady s (s.agreeOwn r) := by
  unfold State.agreeOwn; split
  · exact refl s
  · exact foldl _ _ _ fun s _ => ite (agree ..) (refl s)

theorem windowsDown (s : State) (r : OpRef) : Steady s (s.windowsDown r) := by
  unfold State.windowsDown; split
  · exact refl s
  · refine foldl _ _ _ fun s b => ?_
    dsimp only; split
    · exact ite ((sendWindows ..).trans (foldl _ _ _ fun s c => modChunk s r c.1 _)) (refl s)
    · exact refl s

/-- Frames that go out one after the other, each noted as it was sent. -/
theorem sendAll (f : FnId) (p : Nat) (frames : List Frame) (a : List Frame × State) :
    Steady a.2 (frames.foldl (fun (a : List Frame × State) fr => let (g, s) := a.2.sendRed f p fr; (a.1 ++ [g], s)) a).2 :=
  List.foldlRecOn (motive := fun (b : List Frame × State) => Steady a.2 b.2) frames _ (refl a.2)
    fun b hb fr _ => hb.trans (sendRed b.2 f p fr)

theorem sendPartials (s : State) (x : Reduce) (p c : Nat) (w : Int) (sums : List Int) : Steady s (s.sendPartials x p c w sums) := by
  unfold State.sendPartials
  extract_lets frames high r t y u v
  have ht : Steady s t := sendAll x.fn p frames ([], s)
  have hv : Steady t v := (setPort ..).trans (ite (refl u) (count ..))
  exact ite (wait ..) ((ht.trans hv).trans (modChunk ..))

theorem sendResults (s : State) (x : Reduce) (c e : Nat) (w : Int) (codes : List Nat) : Steady s (s.sendResults x c e w codes) := by
  refine foldl _ _ _ fun s l => ?_
  split
  · exact sendRed ..
  · exact refl s

theorem finalResults (s : State) (x : Reduce) (c : Nat) (w : Int) (sums : List Int) : Steady s (s.finalResults x c w sums) :=
  (foldl _ _ _ fun s _ => (writeResults s ..).trans (sendResults ..)).trans (modChunk ..)

theorem partialsUp (s : State) (r : OpRef) : Steady s (s.partialsUp r) := by
  unfold State.partialsUp; split
  · exact refl s
  · refine foldl _ _ _ fun s y => ?_
    split
    · exact refl s
    · refine ite (refl s) ?_
      dsimp only; split
      · exact finalResults ..
      · split
        · exact sendPartials ..
        · exact refl s

theorem pumpReduce (s : State) (r : OpRef) : Steady s (s.pumpReduce r) := by
  unfold State.pumpReduce
  extract_lets t
  have ht : Steady s t := (((windowsUp ..).trans (agreeOwn ..)).trans (windowsDown ..)).trans (partialsUp ..)
  split
  · exact ht.trans (ite (endReduce ..) (ite (endReduce ..) (refl t)))
  · exact ht

/-! ## Frames of a reduce -/

theorem onWindow (s : State) (x : Reduce) (p : Nat) (fr : Frame) : Steady s (s.onWindow x p fr) := by
  refine foldl _ _ _ fun s w => ?_
  dsimp only; split
  · exact ite (ite (refl s) (agree ..)) (modChunk ..)
  · exact refl s

theorem residueFault (s : State) (x : Reduce) (c : Nat) (links : List Nat) : Steady s (s.residueFault x c links) := by
  refine ite ((count ..).trans (endReduce ..)) ((modChunk ..).trans (foldl _ _ _ fun s l => ?_))
  split
  · exact sendRed ..
  · exact refl s

theorem onPartial (s : State) (x : Reduce) (p : Nat) (fr : Frame) (adderFault : Bool) : Steady s (s.onPartial x p fr adderFault) := by
  unfold State.onPartial; dsimp only; split
  · split
    · exact refl s
    · exact ite (endReduce ..) (ite (residueFault ..) (ite (modChunk ..) ((modChunk ..).trans (ite (residueFault ..) (refl _)))))
  · exact refl s

theorem onResult (s : State) (x : Reduce) (p : Nat) (fr : Frame) : Steady s (s.onResult x p fr) := by
  unfold State.onResult; dsimp only; split
  · exact refl s
  · split
    · exact refl s
    · exact ite (endReduce ..) (((writeResults ..).trans ((sendResults ..).trans (modChunk ..))).trans (ite (setPort ..) (refl _)))

theorem onRed (s : State) (x : Reduce) (p : Nat) (fr : Frame) (adderFault : Bool) : Steady s (s.onRed x p fr adderFault) := by
  unfold State.onRed; split
  · exact onWindow ..
  · exact onPartial ..
  · exact onResult ..
  · exact refl s

/-! ## The order of a channel (R318) -/

theorem freeKept (s : State) (f : FnId) (ch : Nat) : Steady s (s.freeKept f ch) := foldl _ _ _ fun s p => setPort s p _

theorem startReduce (s : State) (x : Reduce) : Steady s (s.startReduce x) := by
  unfold State.startReduce
  extract_lets d t u kept v bad w z
  have ht : Steady s t := modReduce ..
  have hu : Steady t u := ite (refl t) (write ..)
  have hw : Steady v w := ite (refl v) ((count ..).trans (endReduce ..))
  have hz : Steady w z := by
    refine foldl _ _ _ fun s k => ?_
    split
    · exact ite (onRed ..) (refl s)
    · exact refl s
  refine ht.trans (ite ((write ..).trans (endReduce ..)) ?_)
  exact (((hu.trans (freeKept ..)).trans hw).trans hz).trans (pumpReduce ..)

theorem closeReduce (s : State) (x : Reduce) (status cause : Nat) : Steady s (s.closeReduce x status cause) := by
  unfold State.closeReduce
  extract_lets t
  have ht : Steady s t := of_eq rfl rfl
  split
  · exact ht
  · exact ht.trans (ite (fail ..) (complete ..))

theorem flushChannel (f : FnId) (ch n : Nat) (s : State) : Steady s (State.flushChannel f ch n s) := by
  induction n generalizing s with
  | zero => exact refl s
  | succ n ih =>
    unfold State.flushChannel; split
    · exact refl s
    · split
      · exact (closeReduce ..).trans (ih _)
      · exact ite (refl s) ((startReduce ..).trans (ih _))

theorem flush (s : State) (f : FnId) (ch : Nat) : Steady s (s.flush f ch) := flushChannel ..

/-! ## Deadlines (R320) -/

theorem passDeadline (s : State) (f : FnId) (link : Nat) : Steady s (s.passDeadline f link) :=
  (foldl _ _ _ fun s _ => (endReduce s ..).trans (flush ..)).trans (foldl _ _ _ fun s o => fail s o _ _)

theorem endDeadlines (s : State) (f : FnId) : Steady s (s.endDeadlines f) := by
  unfold State.endDeadlines; split
  · exact refl s
  · extract_lets due t
    have ht : Steady s t := modPlan s f fun _ => rfl
    exact ht.trans (foldl _ _ _ fun s _ => passDeadline s ..)

/-! ## Late events (R51, R58, R59) -/

theorem skipWait (s : State) (f : FnId) (e : BitVec 256) : Steady s (s.skipWait f e) := by
  unfold State.skipWait; dsimp only; split
  · exact (ite (setQueue ..) (refl s)).trans (kill ..)
  · exact setQueue ..

theorem skipLate (s : State) (f : FnId) : Steady s (s.skipLate f) := by
  unfold State.skipLate; split
  · exact refl s
  · extract_lets gone t
    have ht : Steady s t := modPlan s f fun _ => rfl
    exact ht.trans (foldl _ _ _ fun s _ => ite (skipWait ..) (refl s))

theorem askHold (s : State) (f : FnId) (w : Due) (k cause : Nat) : Steady s (s.askHold f w k cause) := by
  unfold State.askHold
  extract_lets now t u v
  have hu : Steady s u := ((count ..).trans (addReg ..)).trans (modPlan _ _ fun _ => rfl)
  have hv : Steady u v := modBeat u fun _ => rfl
  exact (hu.trans hv).trans (ite (modBeat v fun _ => rfl) (sendUpTree ..))

theorem askFor (s : State) (f : FnId) (p : Plan) (after : Bool) (w : Due) : Steady s (s.askFor f p after w) := by
  refine ite (refl s) (ite (askHold ..) (ite ?_ (refl s)))
  split
  · exact refl s
  · exact (draw s).trans (ite (askHold ..) (refl _))

theorem askAll (s : State) (f : FnId) (after : Bool) : Steady s (s.askAll f after) := by
  unfold State.askAll; split
  · exact refl s
  · exact foldl _ _ _ fun s w => askFor s f _ after w

/-! ## Orders of the boundary (Table 1-4) -/

theorem applyFallback (s : State) : Steady s s.applyFallback := by
  have hbeat : Steady s (s.modBeat fun b => { b with fallback := false }) := modBeat s fun _ => rfl
  exact ite (refl s) (hbeat.trans (setReg ..))

theorem applyShift (s : State) : Steady s s.applyShift := by
  unfold State.applyShift; split
  · exact refl s
  · exact ite (setPower ..) (ite (refl s) ((setPower ..).trans (count ..)))

theorem scrubEngines (s : State) (c : Nat) : Steady s (s.scrubEngines c) := of_eq rfl rfl

theorem clearCore (s : State) (c : Nat) : Steady s (s.clearCore c) := of_eq (s.clearCore_beat c) (s.clearCore_fns c)

theorem countMapChange (s : State) : Steady s s.countMapChange := of_eq s.countMapChange_beat s.countMapChange_fns

theorem copyCore (s : State) (c dst : CoreId) : Steady s (s.copyCore c dst) :=
  ((scrubEngines ..).trans (setMem ..)).trans (foldl _ _ _ fun s _ => setMe s _ _)

theorem finishMove (s : State) (c : CoreId) : Steady s (s.finishMove c) := by
  unfold State.finishMove; dsimp only; split
  · exact refl s
  · exact ite (refl s) ((((copyCore ..).trans (clearCore ..)).trans (setCell ..)).trans ((setCell ..).trans (countMapChange _)))

theorem enterService (s : State) (f : FnId) (l : Nat) (c : CoreId) : Steady s (s.enterService f l c) := by
  have hscrub : Steady s ((s.scrubEngines c.val).scrubScratchpad c.val) := (scrubEngines s c.val).trans (of_eq rfl rfl)
  exact (hscrub.trans (clearCore ..)).trans (setCell ..)

theorem takeReserve {s t : State} {f : FnId} {l : Nat} (h : s.takeReserve f l = some t) : Steady s t := by
  obtain ⟨c, -, -, rfl⟩ := State.takeReserve_some h
  exact enterService ..

theorem raiseFn (s : State) (f : FnId) (bit : Nat) : Steady s (s.raiseFn f bit) := notices (Notices.raiseFn s f bit)

theorem replaceCore (s : State) (c : CoreId) (f : FnId) (l : Nat) : Steady s (s.replaceCore c f l) := by
  unfold State.replaceCore; split
  · next t ht => exact (takeReserve ht).trans (countMapChange t)
  · extract_lets t
    have ht : Steady s t := modFn s f fun _ => rfl
    exact (ht.trans (raiseFn t f 1)).trans (notices (Notices.logEvent ..))

theorem replaceQuarantined (s : State) (c : CoreId) : Steady s (s.replaceQuarantined c) := by
  unfold State.replaceQuarantined
  extract_lets x t u
  have hu : Steady s u := ((setCell ..).trans (countMapChange t)).trans ((raise ..).trans (raise ..))
  refine ite (refl s) ?_
  split
  · exact hu.trans (ite (refl u) (replaceCore ..))
  · exact hu

theorem mapOne (s : State) (c : CoreId) : Steady s (s.mapOne c) := by
  unfold State.mapOne; dsimp only; split
  · exact ite (refl s) (((ite (clearCore ..) (refl s)).trans (setCell ..)).trans (countMapChange _))
  · exact refl s

theorem enterTaken (s : State) (c : CoreId) : Steady s (s.enterTaken c) := by
  unfold State.enterTaken; split
  · exact ite (refl s) ((setCell ..).trans (countMapChange _))
  · exact refl s

/-- A logical number is available again. -/
theorem refill (s : State) (f : FnId) (l : Nat) : Steady s
    (((s.modFn f (fun y => { y with unavailable := y.unavailable.filter (· ≠ l) })).countMapChange).raiseFn f 1) := by
  have hfn : Steady s (s.modFn f (fun y => { y with unavailable := y.unavailable.filter (· ≠ l) })) := modFn s f fun _ => rfl
  exact (hfn.trans (countMapChange _)).trans (raiseFn _ f 1)

theorem refillCores (s : State) : Steady s s.refillCores := by
  refine foldl _ _ _ fun s f => foldl _ _ _ fun s l => ?_
  split
  · next t ht => exact (takeReserve ht).trans (refill t f l)
  · exact refl s

theorem mapDone (s : State) (f : FnId) : Steady s (s.mapDone f) := by
  unfold State.mapDone; split
  · exact refl s
  · extract_lets t
    have ht : Steady s t := modFn s f fun _ => rfl
    split
    · exact ht.trans (done ..)
    · exact ht

theorem cellMapNow (s : State) : Steady s s.cellMapNow := by
  unfold State.cellMapNow
  have hmoves := foldl _ allCores s finishMove
  have hgone := foldl _ allCores (allCores.foldl (fun s c => s.finishMove c) s) replaceQuarantined
  exact (((hmoves.trans hgone).trans ((foldl _ _ _ mapOne).trans (foldl _ _ _ enterTaken))).trans (refillCores _)).trans (foldl _ _ _ mapDone)

theorem setFresh (s : State) (n : Nat) : Steady s { s with fresh := n } := of_eq rfl rfl

theorem setCeiling (s : State) (f : FnId) (level : Nat) : Steady s (s.setCeiling f level) := foldl _ _ _ fun s c => setCell s c _

theorem capControl (s : State) : Steady s s.capControl := by
  unfold State.capControl
  extract_lets fs used lent cs lowered t
  have hlowered : Steady s lowered := foldl _ _ _ fun s _ => setCeiling s ..
  have ht : Steady lowered t := setFresh ..
  exact ite (refl s) ((hlowered.trans ht).trans (ite (wait ..) (refl t)))

theorem boundaryOrders (s : State) : Steady s s.boundaryOrders := by
  unfold State.boundaryOrders
  extract_lets power t u v
  have ht : Steady s t := setPower ..
  have hv : Steady u v := foldl _ _ _ fun s d => setDie s d _
  exact (((ht.trans (applyShift t)).trans hv).trans (cellMapNow v)).trans (capControl _)

theorem endAtBeat (s : State) : Steady s s.endAtBeat := foldl _ _ _ fun s _ => ite (done ..) (refl s)

end Sys2Proof.Laws.Steady

namespace Sys2Proof.Machine

/-! ## The parts of a beat edge -/

/-- Deadlines of the beat that ends, unless the next beat is held. -/
def State.passDeadlines (s : State) : State := if s.holdNext then s else allFns.foldl (fun s f => s.endDeadlines f) s

/-- The count of the edge: the number, and whether the beat is a hold beat. -/
def State.countEdge (s : State) : State :=
  let s := s.nextNumber
  s.modBeat (fun b => { b with holding := b.epochSet && b.isHold s.beat.number.toNat,
                               holds := b.holds.filter (fun h => decide (s.beat.number.toNat < h.1 + h.2.1 + 4096)),
                               sinceSync := b.sinceSync + 1 })

/-- The plans run, but on a hold beat. -/
def State.runPlans (s : State) (after : Bool) : State :=
  if s.applyFallback.beat.holding then s.applyFallback else s.applyFallback.planEdge after

theorem exec_beatEdge (s : State) :
    exec .beatEdge s = .next ((s.mergeHolds.passDeadlines.countEdge.runPlans
      s.mergeHolds.passDeadlines.nextNumber.beat.holding).boundaryOrders.endAtBeat) := rfl

theorem State.mergeHolds_of_nil {s : State} (h : s.beat.requests = []) : s.mergeHolds = s := by
  simp only [mergeHolds, h, List.isEmpty_nil, if_true]

theorem State.nextNumber_of_none {s : State} (h : s.beat.armed = none) :
    s.nextNumber = s.modBeat fun b => { b with number := s.beat.number + 1 } := by
  simp only [nextNumber, h]

/-- Without an epoch that is armed, the count is one more. -/
theorem State.countEdge_of_none {s : State} (h : s.beat.armed = none) :
    s.countEdge = { s with beat := { s.beat with
      number := s.beat.number + 1
      holding := s.beat.epochSet && s.beat.isHold (s.beat.number + 1).toNat
      holds := s.beat.holds.filter (fun r => decide ((s.beat.number + 1).toNat < r.1 + r.2.1 + 4096))
      sinceSync := s.beat.sinceSync + 1 } } := by
  simp only [countEdge, nextNumber_of_none h]; rfl

/-! ## The tick of a plan -/

/-- A plan that runs, with none to follow, as `Fn.planned` shows it. -/
theorem Fn.planned_of_active {x : Fn} {p : Plan} (ha : x.active = some p) (hrun : p.running = true) (hnone : x.pendingPlan = none) :
    x.planned = (x.st, none, some (p.header, p.events, true, p.clock)) := by
  simp only [planned, ha, hnone, Option.map_some, Plan.clocked, hrun]

theorem Fn.active_of_planned {x : Fn} {st : FnState} {header : BitVec 512} {events : List (BitVec 256)} {c : Nat}
    (h : x.planned = (st, none, some (header, events, true, c))) :
    x.st = st ∧ x.pendingPlan = none ∧ ∃ q, x.active = some q ∧ q.header = header ∧ q.events = events ∧ q.running = true ∧ q.clock = c := by
  simp only [planned, Prod.mk.injEq, Option.map_eq_some_iff, Plan.clocked] at h
  exact h

/-- A plan that repeats without end and has none to follow it does not end. -/
theorem Plan.ends_eq_false {p : Plan} (h : phRepeats p.header = 0) : p.ends false = false := by
  simp [ends, h]

theorem State.tickPlan_of_running {s : State} {f : FnId} {q : Plan} (hq : (s.fn f).active = some q) (hrun : q.running = true)
    (hst : (s.fn f).st = .running ∨ (s.fn f).st = .draining) (hnone : (s.fn f).pendingPlan = none) (hrep : phRepeats q.header = 0) :
    s.tickPlan f = (s.modPlan f Plan.tick).modPlan f Plan.dropReserves := by
  have hruns : ¬((s.fn f).st ≠ .running ∧ (s.fn f).st ≠ .draining) := fun h => hst.elim h.1 h.2
  simp only [tickPlan, hq, if_neg hruns, hrun, hnone, Option.isSome_none, Plan.ends_eq_false hrep, if_true, Bool.false_eq_true, if_false]

/-- A tick moves the clock of a plan that runs without end by one. -/
theorem State.tickPlan_planned {s : State} {f : FnId} {st : FnState} {header : BitVec 512} {events : List (BitVec 256)} {c : Nat}
    (h : (s.fn f).planned = (st, none, some (header, events, true, c))) (hst : st = .running ∨ st = .draining)
    (hrep : phRepeats header = 0) : ((s.tickPlan f).fn f).planned = (st, none, some (header, events, true, c + 1)) := by
  obtain ⟨rfl, hnone, q, hq, rfl, rfl, hrun, rfl⟩ := Fn.active_of_planned h
  have hactive : ((s.tickPlan f).fn f) = { s.fn f with active := some q.tick.dropReserves } := by
    rw [tickPlan_of_running hq hrun hst hnone hrep]
    simp only [modPlan, modFn, fn_setFn, hq, Option.map_some]
  rw [hactive]
  simp only [Fn.planned, hnone, Option.map_some, Plan.clocked, Plan.tick, Plan.dropReserves, hrun]

theorem State.endWaits_fns (s : State) (f : FnId) : (s.endWaits f).fns = s.fns := by
  refine List.foldlRecOn (motive := fun (t : State) => t.fns = s.fns) _ _ rfl fun t ht o _ => ?_
  split
  · exact (t.complete_fns ..).trans ht
  · exact ht

theorem State.endWaits_beat (s : State) (f : FnId) : (s.endWaits f).beat = s.beat := by
  refine List.foldlRecOn (motive := fun (t : State) => t.beat = s.beat) _ _ rfl fun t ht o _ => ?_
  split
  · exact (t.complete_beat ..).trans ht
  · exact ht

theorem State.nextPlan_beat (s : State) (f : FnId) : (s.nextPlan f).beat = s.beat := by
  unfold nextPlan
  split
  · rfl
  · exact endWaits_beat ..

theorem State.nextPlan_fn_ne {s : State} {f g : FnId} (h : f ≠ g) : (s.nextPlan f).fn g = s.fn g := by
  unfold nextPlan
  split
  · exact fn_setFn_ne _ _ _ _ h
  · exact (fn_congr (endWaits_fns ..) g).trans (fn_setFn_ne _ _ _ _ h)

theorem State.modPlan_fn_ne {s : State} {f g : FnId} (h : f ≠ g) (k : Plan → Plan) : (s.modPlan f k).fn g = s.fn g :=
  fn_setFn_ne _ _ _ _ h

theorem State.tickPlan_beat (s : State) (f : FnId) : (s.tickPlan f).beat = s.beat := by
  unfold tickPlan
  extract_lets x
  split
  · rfl
  · split
    · rfl
    · extract_lets t
      have ht : t.beat = s.beat := by
        subst t
        split
        · split
          · exact s.nextPlan_beat f
          · rfl
        · split <;> rfl
      exact ht

theorem State.tickPlan_fn_ne {s : State} {f g : FnId} (h : f ≠ g) : (s.tickPlan f).fn g = s.fn g := by
  unfold tickPlan
  extract_lets x
  split
  · rfl
  · split
    · rfl
    · extract_lets t
      have ht : t.fn g = s.fn g := by
        subst t
        split
        · split
          · exact nextPlan_fn_ne h
          · exact modPlan_fn_ne h _
        · split
          · exact modPlan_fn_ne h _
          · rfl
      exact (modPlan_fn_ne h _).trans ht

/-- The plans of every function tick. -/
def State.tickPlans (s : State) : State := allFns.foldl (fun s f => s.tickPlan f) s

theorem State.tickPlans_beat (s : State) : s.tickPlans.beat = s.beat :=
  List.foldlRecOn (motive := fun (t : State) => t.beat = s.beat) _ _ rfl fun t ht f _ => (t.tickPlan_beat f).trans ht

theorem State.tickPlans_planned {s : State} {f : FnId} {st : FnState} {header : BitVec 512} {events : List (BitVec 256)} {c : Nat}
    (h : (s.fn f).planned = (st, none, some (header, events, true, c))) (hst : st = .running ∨ st = .draining)
    (hrep : phRepeats header = 0) : (s.tickPlans.fn f).planned = (st, none, some (header, events, true, c + 1)) :=
  foldl_meets_once (before := fun (t : State) => (t.fn f).planned = (st, none, some (header, events, true, c)))
    (after := fun t => (t.fn f).planned = (st, none, some (header, events, true, c + 1)))
    (fun _ _ hne ht => (congrArg Fn.planned (tickPlan_fn_ne hne)).trans ht) (fun _ ht => tickPlan_planned ht hst hrep)
    (fun _ _ hne ht => (congrArg Fn.planned (tickPlan_fn_ne hne)).trans ht) nodup_allFns (mem_allFns f) h

end Sys2Proof.Machine

namespace Sys2Proof.Laws.Steady

open Sys2Proof.Machine

theorem passDeadlines (s : State) : Steady s s.passDeadlines := ite (refl s) (foldl _ _ _ endDeadlines)

/-- After the ticks the plans' clocks stand for this edge. -/
theorem planEdge (s : State) (after : Bool) : Steady s.tickPlans (s.planEdge after) := by
  have hpower : Steady s.tickPlans (allFns.foldl (fun s f => s.modFn f Fn.tickPower) s.tickPlans) :=
    foldl _ _ _ fun s f => modFn s f fun _ => rfl
  exact hpower.trans (foldl _ _ _ fun s f => (skipLate s f).trans (askAll ..))

theorem boundary_orders_and_waits (s : State) : Steady s s.boundaryOrders.endAtBeat := (boundaryOrders s).trans (endAtBeat _)

theorem beat_fields {s t : State} (h : Steady s t) : t.beat.number = s.beat.number ∧ t.beat.epochSet = s.beat.epochSet
    ∧ t.beat.armed = s.beat.armed ∧ t.beat.holds = s.beat.holds ∧ t.beat.holding = s.beat.holding ∧ t.beat.sinceSync = s.beat.sinceSync := by
  simpa only [Beat.clock, Prod.mk.injEq] using h.beat

end Sys2Proof.Laws.Steady

namespace Sys2Proof.Machine

open Sys2Proof.Laws (Steady)

theorem State.runPlans_clock (s : State) (after : Bool) : (s.runPlans after).beat.clock = s.beat.clock := by
  have hback := Steady.applyFallback s
  unfold runPlans
  split
  · exact hback.beat
  · exact ((Steady.planEdge ..).beat.trans (congrArg Beat.clock (tickPlans_beat _))).trans hback.beat

theorem State.runPlans_planned {s : State} {f : FnId} {st : FnState} {header : BitVec 512} {events : List (BitVec 256)} {c : Nat}
    (h : (s.fn f).planned = (st, none, some (header, events, true, c))) (hst : st = .running ∨ st = .draining)
    (hrep : phRepeats header = 0) (after : Bool) :
    ((s.runPlans after).fn f).planned = (st, none, some (header, events, true, if s.beat.holding then c else c + 1)) := by
  have hback := Steady.applyFallback s
  obtain ⟨-, -, -, -, hhold, -⟩ := hback.beat_fields
  have hplan := (hback.plans f).trans h
  unfold runPlans
  rw [hhold]
  split
  · exact hplan
  · exact ((Steady.planEdge ..).plans f).trans (tickPlans_planned hplan hst hrep)

/-- What an edge without an armed epoch makes of the clocks: deadlines before the count, orders and waits after the plans' run, set none. -/
theorem State.beatEdge_clock {s : State} (harmed : s.beat.armed = none) (hrequests : s.beat.requests = []) :
    ∃ t, exec .beatEdge s = .next t ∧ t.beat.number = s.beat.number + 1
      ∧ t.beat.holding = (s.beat.epochSet && s.beat.isHold (s.beat.number + 1).toNat)
      ∧ t.beat.sinceSync = s.beat.sinceSync + 1 ∧ t.beat.epochSet = s.beat.epochSet
      ∧ ∀ f st header events c, (s.fn f).planned = (st, none, some (header, events, true, c)) → (st = .running ∨ st = .draining) →
        phRepeats header = 0 → (t.fn f).planned = (st, none, some (header, events, true, if t.beat.holding then c else c + 1)) := by
  have hpass := Steady.passDeadlines s
  refine ⟨_, exec_beatEdge s, ?_⟩
  rw [mergeHolds_of_nil hrequests]
  generalize s.passDeadlines.nextNumber.beat.holding = after
  generalize s.passDeadlines = u at hpass
  obtain ⟨hnumber, hset, harm, hholds, -, hsince⟩ := hpass.beat_fields
  have hcount := countEdge_of_none (harm.trans harmed)
  have hend := Steady.boundary_orders_and_waits (u.countEdge.runPlans after)
  generalize (u.countEdge.runPlans after).boundaryOrders.endAtBeat = t at hend
  have hclock : t.beat.clock = u.countEdge.beat.clock := hend.beat.trans (runPlans_clock ..)
  simp only [Beat.clock, Prod.mk.injEq, hcount, hnumber, hset, hsince, Beat.isHold, hholds] at hclock
  obtain ⟨tnumber, tset, -, -, thold, tsince⟩ := hclock
  refine ⟨tnumber, thold, tsince, tset, fun f st header events c h hst hrep => ?_⟩
  have hplan : (u.countEdge.fn f).planned = (st, none, some (header, events, true, c)) := by
    rw [hcount]; exact (hpass.plans f).trans h
  rw [hend.plans f, runPlans_planned hplan hst hrep, thold, hcount]
  simp only [hnumber, hset, Beat.isHold, hholds]

end Sys2Proof.Machine

/-! # The copy of a planned move (R27) -/

namespace Sys2Proof.Machine

theorem exec_plannedMoveComplete_of_none {s : State} {core : CoreId} (h : (s.cell core).moveTo = none) :
    exec (.plannedMoveComplete core) s = .next s := by
  simp only [exec, execPlannedMoveComplete, h]

theorem exec_plannedMoveComplete_of_some {s : State} {core dst : CoreId} (h : (s.cell core).moveTo = some dst) :
    exec (.plannedMoveComplete core) s = .next ((s.copyCore core dst).modCell core (fun x => { x with moveDone := true })) := by
  simp only [exec, execPlannedMoveComplete, h]

theorem meInst_ne {c k : CoreId} (h : c ≠ k) {e j : Nat} (he : e < 2) (hj : j < 2) : meInst c.val e ≠ meInst k.val j := by
  have hval : c.val ≠ k.val := fun eq => h (Fin.ext eq)
  simp only [meInst]; omega

/-- Addresses of the scratchpad of one core lie outside that of another. -/
theorem spKey_outside {c k : CoreId} (h : c ≠ k) {a : Nat} (ha : a < 2 ^ 24) :
    spKey c.val a < spKey k.val 0 ∨ spKey k.val 0 + 2 ^ 24 ≤ spKey c.val a := by
  have hval : c.val ≠ k.val := fun eq => h (Fin.ext eq)
  simp only [spKey]; omega

/-- What stood at a key of the source stands at the key of the destination with the same offset. -/
theorem get_shifted (m : List Host.Cell) (src dst n a : Nat) (ha : a < n) :
    SMap.get 0 ((m.filter (fun b => decide (src ≤ b.1) && decide (b.1 < src + n))).map (fun b => (b.1 - src + dst, b.2))) (dst + a)
      = SMap.get 0 m (src + a) := by
  induction m with
  | nil => rfl
  | cons q m ih =>
    by_cases hin : src ≤ q.1 ∧ q.1 < src + n
    · have hkey : q.1 - src + dst = dst + a ↔ q.1 = src + a := by omega
      simp only [List.filter_cons, hin, decide_true, Bool.and_self, if_true, List.map_cons, SMap.get, hkey, ih]
    · have hkey : q.1 ≠ src + a := by omega
      have hout : (decide (src ≤ q.1) && decide (q.1 < src + n)) = false := by
        rw [← Bool.decide_and, decide_eq_false hin]
      simp only [List.filter_cons, hout, Bool.false_eq_true, if_false, SMap.get, if_neg hkey, ih]

theorem spKey_eq_add (core off : Nat) : spKey core off = spKey core 0 + off := by simp only [spKey]; omega

theorem memByte_moveScratch_dst (m : List Host.Cell) (src dst : Nat) {a : Nat} (ha : a < 2 ^ 24) :
    memByte (moveScratch m src dst) (spKey dst a) = memByte m (spKey src a) := by
  have hbelow : ∀ q ∈ m.filter (fun b => decide (b.1 < spKey dst 0)), q.1 ≠ spKey dst 0 + a := fun q hq => by
    have := of_decide_eq_true (List.mem_filter.mp hq).2; omega
  have habove : ∀ q ∈ m.filter (fun b => decide (spKey dst 0 + 2 ^ 24 ≤ b.1)), q.1 ≠ spKey dst 0 + a := fun q hq => by
    have := of_decide_eq_true (List.mem_filter.mp hq).2; omega
  unfold memByte moveScratch
  dsimp only
  rw [List.append_assoc, spKey_eq_add dst a, spKey_eq_add src a, SMap.get_append_of_not_key_left hbelow,
    SMap.get_append_of_not_key_right habove]
  exact get_shifted m (spKey src 0) (spKey dst 0) (2 ^ 24) a ha

theorem memByte_moveScratch_out (m : List Host.Cell) (src dst : Nat) {k : Nat} (hk : k < spKey dst 0 ∨ spKey dst 0 + 2 ^ 24 ≤ k) :
    memByte (moveScratch m src dst) k = memByte m k := by
  have hmid : ∀ q ∈ (m.filter (fun b => decide (spKey src 0 ≤ b.1) && decide (b.1 < spKey src 0 + 2 ^ 24))).map
      (fun b => (b.1 - spKey src 0 + spKey dst 0, b.2)), q.1 ≠ k := fun q hq => by
    obtain ⟨b, hb, rfl⟩ := List.mem_map.mp hq
    have hin := (List.mem_filter.mp hb).2
    simp only [Bool.and_eq_true, decide_eq_true_eq] at hin
    dsimp only; omega
  unfold memByte moveScratch
  dsimp only
  rcases hk with hk | hk
  · have habove : ∀ q ∈ m.filter (fun b => decide (spKey dst 0 + 2 ^ 24 ≤ b.1)), q.1 ≠ k := fun q hq => by
      have := of_decide_eq_true (List.mem_filter.mp hq).2; omega
    rw [SMap.get_append_of_not_key_right habove, SMap.get_append_of_not_key_right hmid,
      SMap.get_filter_of_pos fun _ => decide_eq_true hk]
  · have hbelow : ∀ q ∈ m.filter (fun b => decide (b.1 < spKey dst 0)), q.1 ≠ k := fun q hq => by
      have := of_decide_eq_true (List.mem_filter.mp hq).2; omega
    rw [List.append_assoc, SMap.get_append_of_not_key_left hbelow, SMap.get_append_of_not_key_left hmid,
      SMap.get_filter_of_pos fun _ => decide_eq_true hk]

theorem State.copyCore_mem (s : State) (c dst : CoreId) : (s.copyCore c dst).mem = moveScratch s.mem c.val dst.val := by
  simp only [copyCore, List.foldl_cons, List.foldl_nil, setMe_mem, scrubEngines]

theorem State.copyCore_ops (s : State) (c dst : CoreId) : (s.copyCore c dst).ops = s.ops := by
  simp only [copyCore, List.foldl_cons, List.foldl_nil, setMe_ops, scrubEngines, setTe_ops]

/-- The copy takes the stationary banks of both matrix engines. -/
theorem State.copyCore_banks {s : State} {c dst : CoreId} (h : dst ≠ c) {e : Nat} (he : e < 2) :
    ((s.copyCore c dst).me (meInst dst.val e)).bank0 = (s.me (meInst c.val e)).bank0
      ∧ ((s.copyCore c dst).me (meInst dst.val e)).bank1 = (s.me (meInst c.val e)).bank1 := by
  have hother : ∀ (t : State) (x : Me) {i j : Nat}, i < 2 → j < 2 →
      (t.setMe (meInst dst.val i) x).me (meInst c.val j) = t.me (meInst c.val j) :=
    fun t x i j hi hj => me_setMe_ne _ _ _ _ (meInst_ne h hi hj)
  have hscrub : ∀ j < 2, (s.scrubEngines dst.val).me (meInst c.val j) = s.me (meInst c.val j) := fun j hj => by
    simp only [scrubEngines, setTe_me]
    rw [hother _ _ (by omega) hj, hother _ _ (by omega) hj]
  unfold copyCore
  extract_lets scrubbed t
  have ht : ∀ j < 2, t.me (meInst c.val j) = s.me (meInst c.val j) := hscrub
  simp only [List.foldl_cons, List.foldl_nil]
  obtain rfl | rfl : e = 0 ∨ e = 1 := by omega
  · rw [me_setMe_ne _ _ _ _ (by simp [meInst]), me_setMe]
    simp only [ht 0 he, and_self]
  · rw [me_setMe, hother _ _ (by omega) he]
    simp only [ht 1 he, and_self]

end Sys2Proof.Machine

namespace Sys2Proof.Laws

open Sys2Proof.Machine

/-- Settles O50: an edge moves the clocks by the count and the ticks alone, and a planned move is a copy. -/
theorem beatAdvances : Obligations.BeatAdvances := by
  refine ⟨fun s harmed hrequests => ?edge, fun s core dst => ⟨exec_plannedMoveComplete_of_none, fun hmove hne => ?copy⟩⟩
  case edge =>
    obtain ⟨t, hexec, hnumber, hhold, hsince, hset, hplans⟩ := State.beatEdge_clock harmed hrequests
    refine ⟨t, hexec, hnumber, hhold, hsince, hset, fun f p hactive hrun hnone hrep hst => ?_⟩
    have hplanned := hplans f _ _ _ _ (Fn.planned_of_active hactive hrun hnone) hst hrep
    obtain ⟨-, -, q, hq, hheader, hevents, -, hclock⟩ := Fn.active_of_planned hplanned
    exact ⟨q, hq, hclock, hheader, hevents⟩
  case copy =>
    refine ⟨_, exec_plannedMoveComplete_of_some hmove, ?_, fun a ha => ?_, fun e he => State.copyCore_banks hne he, s.copyCore_ops core dst⟩
    · rw [State.modCell, State.cell_setCell]
    · rw [State.modCell, State.setCell_mem, State.copyCore_mem]
      exact ⟨memByte_moveScratch_dst _ _ _ ha, memByte_moveScratch_out _ _ _ (spKey_outside hne.symm ha)⟩

end Sys2Proof.Laws

/-! # Vector operations (Table 3-7, R95, R97, R98) -/

namespace Sys2Proof.Laws

open Sys2Proof.Machine Sys2Proof.Safety

section
variable {s b : State} {i : Sys2Proof.Instr} {q : QueueId} {d : Desc} {o : Op} {c : CoreId} {op : Nat}

/-- A ready vector operation without a parity error runs its own effect on the state in which it stores. -/
theorem vectorOp_next (h : Issues s q d o b) (hv : VectorReady b o c) (run : CoreId → Op → State → State)
    (hexec : exec i s = .next (s.vectorOp i false run)) (hi : carried i = some (q, d, 1, op, true)) (ho : hdOp d = op) :
    exec i s = .next (run c (veOp b o c) (veState b o c)) := by
  rw [hexec, vectorOp_ready h hv hi ho]

theorem veOp_desc (h : Issues s q d o b) : (veOp b o c).desc = d := (Issues_desc h).1

theorem vecBinary_next (h : Issues s q d o b) (hv : VectorReady b o c) (g : Val → Val → Val)
    (hexec : exec i s = .next (s.vectorOp i false (vecBinary g))) (hi : carried i = some (q, d, 1, op, true)) (ho : hdOp d = op) :
    exec i s = .next ((veState b o c).storeTensor c (veOp b o c) false
      (List.zipWith (List.zipWith g) ((veState b o c).vecA c d) ((veState b o c).vecB c d))) := by
  rw [vectorOp_next h hv _ hexec hi ho, vecBinary, veOp_desc h]

theorem vecUnary_next (h : Issues s q d o b) (hv : VectorReady b o c) (lower : Bool) (g : Val → Val)
    (hexec : exec i s = .next (s.vectorOp i false (vecUnary lower g))) (hi : carried i = some (q, d, 1, op, true)) (ho : hdOp d = op) :
    exec i s = .next ((veState b o c).storeTensor c (veOp b o c) lower (((veState b o c).vecA c d).map (fun r => r.map g))) := by
  rw [vectorOp_next h hv _ hexec hi ho, vecUnary, veOp_desc h]

end

/-- Settles O1: every operation is its effect on the state in which it stores, by the one lemma of its kind. -/
theorem vectorElements : Obligations.VectorElements := by
  refine ⟨fun s b q d o c h hv => ?binary, fun s b q d o c h hv => ?unary, fun s b q d o c h hv => ?rows⟩
  case binary =>
    exact ⟨vecBinary_next h hv _ rfl rfl, vecBinary_next h hv _ rfl rfl, vecBinary_next h hv _ rfl rfl,
      vecBinary_next h hv _ rfl rfl, vecBinary_next h hv _ rfl rfl, vecBinary_next h hv _ rfl rfl⟩
  case unary =>
    exact ⟨vecUnary_next h hv _ _ rfl rfl, vecUnary_next h hv _ _ rfl rfl, vecUnary_next h hv _ _ rfl rfl,
      vecUnary_next h hv _ _ rfl rfl, vecUnary_next h hv _ _ rfl rfl⟩
  case rows =>
    exact ⟨fun hop => (vectorOp_next h hv _ rfl rfl hop : exec (.rowOp q d false) s = _),
      fun hop => (vectorOp_next h hv _ rfl rfl hop : exec (.rowNorm q d false) s = _)⟩

end Sys2Proof.Laws

/-! # Seed, mode and serving classes (R65, R84, R140, R169) -/

namespace Sys2Proof.Machine

/-- DETAIL of an admission without a failing beat or record: the excess alone (R55). -/
theorem packDetail_excess {n : Nat} (h : n < 65536) :
    packDetail [(32, 0xFFFFFFFF), (32, 0xFFFFFFFF), (16, n)] = 2 ^ 64 - 1 + n * 2 ^ 64 := by
  simp only [packDetail, List.foldl_cons, List.foldl_nil]
  omega

theorem State.admittedDone_eq (s : State) (o : Op) : s.admittedDone o = s.complete o 0 0 0 (2 ^ 64 - 1) := by
  rw [admittedDone, packDetail_excess (by omega), Nat.zero_mul, Nat.add_zero]

/-- An admission refused for no beat and no record, with an excess that fits DETAIL (R55). -/
theorem State.admission_excess {s : State} {o : Op} {code n : Nat} (h : n < 65536) :
    s.admission o (0xFFFFFFFF, code, 0xFFFFFFFF, n) = s.complete o 11 code 0 (2 ^ 64 - 1 + n * 2 ^ 64) := by
  simp only [admission, if_pos h, packDetail_excess h]

section
variable {s : State} {x : Fn} {c : BitVec 256} {frame p1 p2 : Nat}

theorem State.classFits_iff (hs : x.serving = some frame) (hp : s.classPrices x c (s.frame frame).record = (some p1, some p2)) :
    s.classFits x c = true ↔ p1 ≤ scFirstDeadline c ∧ p2 ≤ scStepDeadline c := by
  simp only [classFits, hs, hp, fits, Bool.and_eq_true, decide_eq_true_eq]

/-- A class over its first deadline reports its first price, another its price of a following pass. -/
theorem State.classExcess_eq (hs : x.serving = some frame) (hp : s.classPrices x c (s.frame frame).record = (some p1, some p2)) :
    s.classExcess x c = (if p1 ≤ scFirstDeadline c then p2 else p1, s) := by
  simp only [classExcess, hs, hp, fits, decide_eq_true_eq]
  by_cases h : p1 ≤ scFirstDeadline c
  · simp only [if_pos h]
  · simp only [if_neg h]

end

end Sys2Proof.Machine

namespace Sys2Proof.Laws

open Sys2Proof.Machine Sys2Proof.Safety

/-- A control operation that issues reaches its command's own effect. -/
theorem control_issue {s b : State} {i : Sys2Proof.Instr} {q : QueueId} {d : Desc} {o : Op} {code : Nat} (h : Control s q d code o b)
    (hi : carried i = some (q, d, 6, code, true)) (k : Op → State → State) : s.issue i k = k o b :=
  issue_of h.issues hi h.cls h.op rfl k

section
variable {s b : State} {q : QueueId} {d : Desc} {o : Op}

theorem exec_setSeed_of_control (h : Control s q d 0x03 o b) :
    exec (.setSeed q d) s = .next ((b.setFn o.fn { b.fn o.fn with seed := BitVec.ofNat 64 (fld d 127 64) }).done o) :=
  congrArg Host.Outcome.next (control_issue h rfl _)

theorem exec_setMode_of_control (h : Control s q d 0x04 o b) :
    exec (.setMode q d) s = .next ((b.setFn o.fn { b.fn o.fn with tileStrict := flag d 64 }).done o) :=
  congrArg Host.Outcome.next (control_issue h rfl _)

/-- A readable and well-formed class is kept where it fits and refused with its excess where not (R65). -/
theorem exec_loadClass_of_control {c : BitVec 256} (h : Control s q d 0x02 o b) (hrec : b.recordCause o (ctAddr d) 32 = 0)
    (hc : BitVec.ofNat 256 (b.nat (b.readAddr o.fn (ctAddr d)) 32) = c) (hbad : classBad c = false) :
    exec (.loadClass q d) s = .next (
      if b.classFits (b.fn o.fn) c then (b.modFn o.fn (fun x => { x with classes := SMap.put 0 x.classes (scId c) c })).admittedDone o
      else (b.classExcess (b.fn o.fn) c).2.admission o (0xFFFFFFFF, 0x12, 0xFFFFFFFF, (b.classExcess (b.fn o.fn) c).1)) := by
  refine (congrArg Host.Outcome.next (control_issue h rfl _)).trans ?_
  rw [← (Issues_desc h.issues).1] at hc
  simp only [State.record, hrec, hc, hbad, ne_eq, not_true_eq_false, if_false, Bool.false_eq_true]

end

/-- Settles O17: the two settings reach their own effect, and a class is kept or refused by its two prices. -/
theorem functionClasses : Obligations.FunctionClasses := by
  refine ⟨fun s b q d o => ⟨exec_setSeed_of_control, exec_setMode_of_control⟩, fun s b q d o h hrec => ?_⟩
  intro c hbad frame p1 p2 hserving hprices
  have hfits : b.classFits (b.fn o.fn) c = true ↔ p1 ≤ fld c 95 64 ∧ p2 ≤ fld c 127 96 := State.classFits_iff hserving hprices
  have hexcess : b.classExcess (b.fn o.fn) c = (if p1 ≤ fld c 95 64 then p2 else p1, b) := State.classExcess_eq hserving hprices
  rw [exec_loadClass_of_control h hrec rfl hbad]
  refine ⟨fun h1 h2 => ?kept, fun h1 hsmall => ?first, fun h1 h2 hsmall => ?following⟩
  case kept => rw [if_pos (hfits.mpr ⟨h1, h2⟩), State.admittedDone_eq]; rfl
  case first =>
    rw [if_neg fun hf => Nat.not_le.mpr h1 (hfits.mp hf).1, hexcess, if_neg (Nat.not_le.mpr h1), State.admission_excess hsmall]
  case following =>
    rw [if_neg fun hf => Nat.not_le.mpr h2 (hfits.mp hf).2, hexcess, if_pos h1, State.admission_excess hsmall]

end Sys2Proof.Laws

/-! # The close of a slot (R80, R134, R136) -/

namespace Sys2Proof

variable {α β γ : Type}

theorem mapIdx_map (f : α → β) (g : Nat → β → γ) (l : List α) : (l.map f).mapIdx g = l.mapIdx (fun i a => g i (f a)) :=
  List.ext_getElem? fun i => by simp only [List.getElem?_mapIdx, List.getElem?_map, Option.map_map, Function.comp_def]

theorem map_mapIdx (f : Nat → α → β) (g : β → γ) (l : List α) : (l.mapIdx f).map g = l.mapIdx (fun i a => g (f i a)) :=
  List.ext_getElem? fun i => by simp only [List.getElem?_mapIdx, List.getElem?_map, Option.map_map, Function.comp_def]

end Sys2Proof

namespace Sys2Proof.Machine

/-! ## Matrix engines along the steps of a close -/

theorem State.me_congr {s t : State} (h : t.mes = s.mes) (i : Nat) : t.me i = s.me i := by simp only [me, h]

@[simp] theorem Me.slot_setSlot (m : Me) (k : Nat) (x : Slot) : (m.setSlot k x).slot k = x := SMap.get_put_same ..

@[simp] theorem State.me_modMe (s : State) (i : Nat) (g : Me → Me) : (s.modMe i g).me i = g (s.me i) := me_setMe ..

@[simp] theorem State.me_modSlot (s : State) (i k : Nat) (g : Slot → Slot) :
    (s.modSlot i k g).me i = (s.me i).setSlot k (g ((s.me i).slot k)) := me_modMe ..

end Sys2Proof.Machine

namespace Sys2Proof.Laws.Notices

open Sys2Proof.Machine

theorem ite {s t u : State} {c : Prop} [Decidable c] (ht : Notices s t) (hu : Notices s u) : Notices s (if c then t else u) := by
  split
  · exact ht
  · exact hu

theorem writeAll (s : State) (runs : List (Nat × List Byte)) : Notices s (s.writeAll runs) := foldl _ _ _ fun s r => write s r.1 r.2

theorem watchReport (s : State) (f : FnId) (id : Nat) (c : Counts) (beyond lowered still : Bool) :
    Notices s (s.watchReport f id c beyond lowered still) := by
  unfold State.watchReport
  split
  · exact refl s
  · exact write ..
      |>.trans (ite ((setReg ..).trans (raise ..)) (refl _))
      |>.trans (ite (count ..) (refl _))
      |>.trans (ite (count ..) (refl _))
      |>.trans (ite ((count ..).trans (raise ..)) (refl _))

/-- Writing a tile touches memory and, where it is watched, the counts of its entry. -/
theorem writeTile (s : State) (f : FnId) (core : Nat) (r : Root) (entry : Option (BitVec 1024)) (k row0 col0 : Nat)
    (rows : List (List Val)) : Notices s (s.writeTile f core r entry k row0 col0 rows) := by
  unfold State.writeTile
  exact writeAll ..
    |>.trans (ite (writeAll ..) (refl _))
    |>.trans (ite (write ..) (refl _))
    |>.trans (ite (watchReport ..) (refl _))

end Sys2Proof.Laws.Notices

namespace Sys2Proof.Machine

/-! ## Memory along the steps of a close -/

theorem State.addArrival_mem (s : State) (inst slot : Nat) (d : Desc) (a : Arrival) : (s.addArrival inst slot d a).mem = s.mem := by
  unfold addArrival
  extract_lets last j t joins bad u end_
  split
  · rfl
  · rfl

theorem drainRows_mem (inst slot : Nat) (as : List Arrival) (s : State) : (drainRows inst slot as s).mem = s.mem := by
  induction as generalizing s with
  | nil => rfl
  | cons a rest ih =>
    unfold drainRows
    extract_lets x
    split
    · rfl
    · split
      · exact (ih _).trans (s.addArrival_mem ..)
      · exact ih s

theorem State.reopen_mem (s : State) (inst slot : Nat) : (s.reopen inst slot).mem = s.mem := by
  unfold reopen
  extract_lets x
  split
  · rfl
  · extract_lets t
    split
    · rfl
    · exact drainRows_mem ..

theorem State.freeSlot_mem (s : State) (inst slot : Nat) : (s.freeSlot inst slot).mem = s.mem := reopen_mem ..

theorem State.settle_mem (s : State) (inst : Nat) : (s.settle inst).mem = s.mem := rfl

theorem State.settle_mes (s : State) (inst : Nat) : (s.settle inst).mes = s.mes := rfl

theorem State.slotClosed_mem (s : State) (inst slot : Nat) : (s.slotClosed inst slot).mem = s.mem := rfl

theorem State.slotClosed_mes (s : State) (inst slot : Nat) : (s.slotClosed inst slot).mes = s.mes := rfl

/-! ## Freeing -/

theorem State.reopen_of_no_openers {s : State} {inst slot : Nat} (h : ((s.me inst).slot slot).openers = []) : s.reopen inst slot = s := by
  simp only [reopen, h]

/-- A slot that nobody waits to open stands free and ready no more. -/
theorem State.freeSlot_of_no_openers {s : State} {inst slot : Nat} (h : ((s.me inst).slot slot).openers = []) :
    (((s.freeSlot inst slot).me inst).slot slot).st = .free ∧ slot ∉ ((s.freeSlot inst slot).me inst).ready := by
  unfold freeSlot
  extract_lets t
  have hme : (t.modMe inst (fun m => { m with ready := m.ready.filter (· ≠ slot) })).me inst
      = { t.me inst with ready := (t.me inst).ready.filter (· ≠ slot) } := State.me_modMe ..
  have hslot : (t.me inst).slot slot = { (s.me inst).slot slot with st := .free, mismatch := false, vals := [], closer := none } := by
    simp only [t, me_modSlot, Me.slot_setSlot]
  rw [reopen_of_no_openers (by rw [hme]; exact (congrArg Slot.openers hslot).trans h), hme]
  exact ⟨congrArg Slot.st hslot, by simp⟩

/-! ## The tile -/

theorem Val.scale_zero (v : Val) : v.scale 0 = v := by
  cases v with
  | num n m e => simp only [Val.scale, Int.add_zero]
  | _ => rfl

/-- What a root that is neither lowered nor has an epilogue writes: each row at its place, its values rounded stochastically. -/
def Root.runs (r : Root) (seed core row0 col0 : Nat) (rows : List (List Val)) : List (Nat × List Byte) :=
  rows.mapIdx (fun j row => (spKey core (r.dst + (row0 + j) * r.dstPitch * 128 + 2 * col0),
    (row.mapIdx (fun n v => (fmtOf r.fmt).sr r.sat (random16 seed r.step r.rtid (r.base + (row0 + j) * r.pitch + col0 + n)) v)).flatMap
      (fun y => leBytes 2 y.code)))

theorem State.writeTile_plain {s : State} {r : Root} (h : r.epi = 0) (f : FnId) (core k row0 col0 : Nat) (rows : List (List Val)) :
    s.writeTile f core r none k row0 col0 rows = s.writeAll (r.runs (s.fn f).seed.toNat core row0 col0 rows) := by
  have hbias : ∀ vs, s.scaleBias core r col0 vs = vs := fun vs => by simp [scaleBias, h]
  have hbytes : ∀ l : List (Val × Stored),
      l.flatMap (fun y => leBytes 2 y.2.code) = (l.map Prod.snd).flatMap (fun y => leBytes 2 y.code) :=
    fun l => (List.flatMap_map Prod.snd (fun y => leBytes 2 y.code) l).symm
  have hepi : ¬(1 ≤ 0 ∧ 0 ≤ 5) := by decide
  simp only [writeTile, Root.runs, Root.form, hbias, h, hepi, Val.scale_zero, Bool.false_and, Bool.false_eq_true, if_false,
    Option.isSome_none, hbytes, map_mapIdx]

/-! ## The close itself -/

/-- The slot that became ready first, without a mismatch, is closed (R134). -/
theorem exec_close_of_ready {s : State} {core : CoreId} {me : Fin 2} {slot : Fin 32} {second : Bool} {ready : List Nat} {o : Op}
    (hready : (s.me (meInst core.val me.val)).ready = slot.val :: ready)
    (hcloser : ((s.me (meInst core.val me.val)).slot slot.val).closer.bind (fun r => s.op? r) = some o)
    (hwhole : ((s.me (meInst core.val me.val)).slot slot.val).mismatch = false) :
    exec (.close core me slot second) s = .next (s.closeSlot core (meInst core.val me.val) slot.val o) := by
  simp only [exec, execClose, hready, hcloser, hwhole, ne_eq, not_true_eq_false, if_false, Bool.not_false, if_true]

end Sys2Proof.Machine

namespace Sys2Proof.Laws

open Sys2Proof.Machine

section
variable {s : State} {c : CoreId} {inst slot : Nat} {o : Op}

/-- The slot that closes stands free and ready no more, whatever its operation writes. -/
theorem closeSlot_frees (h : ((s.me inst).slot slot).openers = []) :
    (((s.closeSlot c inst slot o).me inst).slot slot).st = .free ∧ slot ∉ ((s.closeSlot c inst slot o).me inst).ready := by
  unfold State.closeSlot
  extract_lets d x
  split
  extract_lets rows t
  have hme : (t.slotClosed inst slot).me inst = s.me inst :=
    State.me_congr ((State.slotClosed_mes ..).trans (Notices.writeTile ..).mes) inst
  rw [State.me_congr (State.settle_mes ..)]
  exact State.freeSlot_of_no_openers (hme ▸ h)

/-- Memory after a close is memory after the write of the tile. -/
theorem closeSlot_mem (hepi : mxEpi o.desc = 0) (hentry : o.entry = none) :
    (s.closeSlot c inst slot o).mem = (s.writeAll ((matrixRoot o.desc).runs (s.fn o.fn).seed.toNat c.val
      (mxOrigin o.desc slot).1 (mxOrigin o.desc slot).2
      ((((s.me inst).slot slot).vals.take (mxRows o.desc - (mxOrigin o.desc slot).1)).map (fun r => r.map val24)))).mem := by
  have hroot : (matrixRoot o.desc).epi = 0 := hepi
  simp only [State.closeSlot, hentry, State.writeTile_plain hroot, State.settle_mem, State.freeSlot_mem, State.slotClosed_mem]

end

/-- Settles O5: a close is the write of its tile and the freeing of its slot. -/
theorem closeWrites : Obligations.CloseWrites := by
  intro s core me slot second ready o inst x d r0 c0 hready hcloser hwhole
  refine ⟨_, exec_close_of_ready hready hcloser hwhole, closeSlot_frees, fun hepi hentry => ?_⟩
  simp only [closeSlot_mem hepi hentry, Root.runs, mapIdx_map]
  rfl

end Sys2Proof.Laws

/-! # The matrix engines (R103 to R120, R133)

What issue, the entry of a vector and the landing of a result row leave alone is one relation; each then says what it does to the
passes and to one slot. -/

namespace Sys2Proof.Machine

/-! ## One engine and one slot of it -/

theorem State.me_modMe_ne {s : State} {i j : Nat} (g : Me → Me) (h : j ≠ i) : (s.modMe i g).me j = s.me j :=
  me_setMe_ne _ _ _ _ (Ne.symm h)

theorem Me.slot_setSlot_ne {m : Me} {k j : Nat} (x : Slot) (h : j ≠ k) : (m.setSlot k x).slot j = m.slot j :=
  SMap.get_put_ne _ _ _ _ _ (Ne.symm h)

theorem State.slot_modSlot (s : State) (i k : Nat) (g : Slot → Slot) : ((s.modSlot i k g).me i).slot k = g ((s.me i).slot k) := by
  rw [me_modSlot, Me.slot_setSlot]

theorem State.slot_modSlot_ne {s : State} {i k j : Nat} (g : Slot → Slot) (h : j ≠ k) :
    ((s.modSlot i k g).me i).slot j = (s.me i).slot j := by
  rw [me_modSlot, Me.slot_setSlot_ne _ h]

theorem regKey_ne {win a b : Nat} (h : a ≠ b) : regKey win a ≠ regKey win b := by simp only [regKey]; omega

/-- A counter after it has counted: it stops at its largest value. -/
theorem State.reg_count (s : State) (off n : Nat) : (s.count off n).reg 0 off = min (s.reg 0 off + n) 0xFFFFFFFF := by
  rw [count, addReg, reg_setReg]; omega

theorem State.reg_count_ne {s : State} {off off' : Nat} (n : Nat) (h : off' ≠ off) : (s.count off n).reg 0 off' = s.reg 0 off' :=
  reg_setReg_ne _ _ _ _ _ _ (regKey_ne (Ne.symm h))

end Sys2Proof.Machine

namespace Sys2Proof.Laws

open Sys2Proof.Machine

/-- The second state has of the first all but the slots of one engine and their order of readiness, the tenon engines, the outstanding
operations and the counters other than the engine's ENTRY_CYC. -/
structure AtEngine (inst : Nat) (s t : State) : Prop where
  rest : t = { s with mes := t.mes, tes := t.tes, ops := t.ops, regs := t.regs, fresh := t.fresh }
  others : ∀ i, i ≠ inst → t.me i = s.me i
  engine : t.me inst = { s.me inst with slots := (t.me inst).slots, ready := (t.me inst).ready }
  entries : t.reg 0 (pageMe inst + 0x78) = s.reg 0 (pageMe inst + 0x78)

namespace AtEngine

variable {inst : Nat} {s t u : State}

theorem refl (s : State) : AtEngine inst s s := ⟨rfl, fun _ _ => rfl, rfl, rfl⟩

theorem trans (h1 : AtEngine inst s t) (h2 : AtEngine inst t u) : AtEngine inst s u where
  rest := h2.rest.trans
    (congrArg (fun x : State => { x with mes := u.mes, tes := u.tes, ops := u.ops, regs := u.regs, fresh := u.fresh }) h1.rest)
  others i hi := (h2.others i hi).trans (h1.others i hi)
  engine := h2.engine.trans (congrArg (fun m : Me => { m with slots := (u.me inst).slots, ready := (u.me inst).ready }) h1.engine)
  entries := h2.entries.trans h1.entries

theorem ite {c : Prop} [Decidable c] (ht : AtEngine inst s t) (hu : AtEngine inst s u) : AtEngine inst s (if c then t else u) := by
  split
  · exact ht
  · exact hu

theorem foldl {α : Type} (step : State → α → State) (xs : List α) (s : State) (h : ∀ s x, AtEngine inst s (step s x)) :
    AtEngine inst s (xs.foldl step s) :=
  List.foldlRecOn xs step (refl s) fun t ht x _ => ht.trans (h t x)

theorem mem (h : AtEngine inst s t) : t.mem = s.mem := by rw [h.rest]
theorem fns (h : AtEngine inst s t) : t.fns = s.fns := by rw [h.rest]
theorem queues (h : AtEngine inst s t) : t.queues = s.queues := by rw [h.rest]
theorem dir (h : AtEngine inst s t) : t.dir = s.dir := by rw [h.rest]
theorem ctxs (h : AtEngine inst s t) : t.ctxs = s.ctxs := by rw [h.rest]

/-! ## The operations -/

theorem modMe (s : State) {g : Me → Me} (h : ∀ m, g m = { m with slots := (g m).slots, ready := (g m).ready }) :
    AtEngine inst s (s.modMe inst g) where
  rest := rfl
  others _ hi := State.me_modMe_ne g hi
  engine := by rw [State.me_modMe]; exact h _
  entries := rfl

theorem modSlot (s : State) (k : Nat) (g : Slot → Slot) : AtEngine inst s (s.modSlot inst k g) := modMe s fun _ => rfl

theorem openSlot (s : State) (c k : Nat) (d : Desc) : AtEngine inst s (s.openSlot c inst k d) := by
  unfold State.openSlot; exact modSlot ..

theorem setTe (s : State) (i : Nat) (x : Te) : AtEngine inst s (s.setTe i x) := ⟨rfl, fun _ _ => rfl, rfl, rfl⟩
theorem setOps (s : State) (os : List Op) : AtEngine inst s { s with ops := os } := ⟨rfl, fun _ _ => rfl, rfl, rfl⟩
theorem modOp (s : State) (r : OpRef) (g : Op → Op) : AtEngine inst s (s.modOp r g) := setOps ..
theorem draw (s : State) : AtEngine inst s s.draw.2 := ⟨rfl, fun _ _ => rfl, rfl, rfl⟩

theorem count (s : State) {off : Nat} (n : Nat) (h : pageMe inst + 0x78 ≠ off) : AtEngine inst s (s.count off n) :=
  ⟨rfl, fun _ _ => rfl, rfl, State.reg_count_ne n h⟩

theorem wait (s : State) {off : Nat} (h : pageMe inst + 0x78 ≠ off) : AtEngine inst s (s.wait off) := (draw s).trans (count _ _ h)

theorem settle (s : State) (i : Nat) : AtEngine inst s (s.settle i) := (setTe s (i / 2) _).trans (setOps _ _)

end AtEngine

end Sys2Proof.Laws

/-! ## Issue of a matrix operation -/

namespace Sys2Proof.Machine

/-- A slot that an operation takes: it goes on with the present contents, opens a free slot with the tile named, or stands in line. -/
def Slot.claimed (x : Slot) (r : OpRef) (d : Desc) (tile : List (List Op24)) : Slot :=
  if mxAcc d = 2 then { x with segs := x.segs + mxSegs d, projOpen := decide (mxClose d = 0) }
  else
    let y : Slot := { x with segs := mxSegs d, rows := mxRows d, width := mxWidth d, projOpen := decide (mxClose d = 0) }
    if x.st = .free ∧ x.openers.isEmpty then { y with st := .opened, mismatch := false, vals := tile, closer := none }
    else { y with openers := x.openers ++ [r] }

section
variable {x : Slot} {r : OpRef} {d : Desc} {tile : List (List Op24)}

theorem Slot.claimed_projOpen : (x.claimed r d tile).projOpen = decide (mxClose d = 0) := by
  unfold claimed
  split
  · rfl
  · dsimp only; split <;> rfl

/-- The projected shape of what an operation opens, now or in its turn. -/
theorem Slot.claimed_shape (h : mxAcc d ≠ 2) :
    (x.claimed r d tile).segs = mxSegs d ∧ (x.claimed r d tile).rows = mxRows d ∧ (x.claimed r d tile).width = mxWidth d := by
  rw [claimed, if_neg h]
  dsimp only
  split
  · exact ⟨rfl, rfl, rfl⟩
  · exact ⟨rfl, rfl, rfl⟩

theorem Slot.claimed_of_acc_two (h : mxAcc d = 2) :
    x.claimed r d tile = { x with segs := x.segs + mxSegs d, projOpen := decide (mxClose d = 0) } := if_pos h

theorem Slot.claimed_of_free (h : mxAcc d ≠ 2) (hst : x.st = .free) (ho : x.openers = []) :
    (x.claimed r d tile).st = .opened ∧ (x.claimed r d tile).vals = tile := by
  rw [claimed, if_neg h, if_pos ⟨hst, List.isEmpty_iff.mpr ho⟩]
  exact ⟨rfl, rfl⟩

theorem Slot.claimed_of_used (h : mxAcc d ≠ 2) (hx : ¬(x.st = .free ∧ x.openers = [])) :
    (x.claimed r d tile).st = x.st ∧ (x.claimed r d tile).vals = x.vals ∧ (x.claimed r d tile).openers = x.openers ++ [r] := by
  rw [claimed, if_neg h, if_neg fun hf => hx ⟨hf.1, List.isEmpty_iff.mp hf.2⟩]
  exact ⟨rfl, rfl, rfl⟩

end

theorem nodup_mxSlots (d : Desc) : (mxSlots d).Nodup :=
  List.Pairwise.map (· + mxTile d) (fun _ _ hne heq => hne (Nat.add_right_cancel heq)) List.nodup_range

/-- The tile a slot opens with: from INIT or +0. -/
def State.openTile (s : State) (c : Nat) (d : Desc) (k : Nat) : List (List Op24) := if mxAcc d = 1 then s.initTile c d k else zeroTile

theorem State.openTile_congr {s t : State} (h : t.mem = s.mem) (c : Nat) (d : Desc) (k : Nat) : t.openTile c d k = s.openTile c d k := by
  simp only [openTile, initTile, nat, h]

/-- What `claimSlots` does at one slot. -/
def State.claimSlot (s : State) (c inst : Nat) (o : Op) (k : Nat) : State :=
  if mxAcc o.desc = 2 then
    s.modSlot inst k (fun x => { x with segs := x.segs + mxSegs o.desc, projOpen := decide (mxClose o.desc = 0) })
  else
    let t := s.modSlot inst k (fun x => { x with
      segs := mxSegs o.desc, rows := mxRows o.desc, width := mxWidth o.desc, projOpen := decide (mxClose o.desc = 0) })
    if ((s.me inst).slot k).st = .free ∧ ((s.me inst).slot k).openers.isEmpty then t.openSlot c inst k o.desc
    else t.modSlot inst k (fun x => { x with openers := x.openers ++ [o.ref] })

section
variable {s : State} {c inst k : Nat} {o : Op}

theorem State.claimSlots_eq_foldl : s.claimSlots c inst o = (mxSlots o.desc).foldl (fun s k => s.claimSlot c inst o k) s := rfl

theorem State.claimSlot_atEngine : Laws.AtEngine inst s (s.claimSlot c inst o k) :=
  have hshape : Laws.AtEngine inst s (s.modSlot inst k (fun x => { x with
      segs := mxSegs o.desc, rows := mxRows o.desc, width := mxWidth o.desc, projOpen := decide (mxClose o.desc = 0) })) := .modSlot ..
  .ite (.modSlot ..) (.ite (hshape.trans (.openSlot ..)) (hshape.trans (.modSlot ..)))

theorem State.claimSlot_tes : (s.claimSlot c inst o k).tes = s.tes := by
  unfold claimSlot
  split
  · rfl
  · dsimp only; split <;> rfl

theorem State.slot_claimSlot :
    ((s.claimSlot c inst o k).me inst).slot k = ((s.me inst).slot k).claimed o.ref o.desc (s.openTile c o.desc k) := by
  unfold claimSlot Slot.claimed
  split
  · rw [slot_modSlot]
  · dsimp only
    split
    · rw [openSlot, slot_modSlot, slot_modSlot]; rfl
    · rw [slot_modSlot, slot_modSlot]

theorem State.slot_claimSlot_ne {j : Nat} (h : j ≠ k) : ((s.claimSlot c inst o k).me inst).slot j = (s.me inst).slot j := by
  unfold claimSlot
  split
  · rw [slot_modSlot_ne _ h]
  · dsimp only
    split
    · rw [openSlot, slot_modSlot_ne _ h, slot_modSlot_ne _ h]
    · rw [slot_modSlot_ne _ h, slot_modSlot_ne _ h]

theorem State.claimSlots_atEngine : Laws.AtEngine inst s (s.claimSlots c inst o) := .foldl _ _ _ fun _ _ => claimSlot_atEngine

theorem State.claimSlots_tes : (s.claimSlots c inst o).tes = s.tes :=
  List.foldlRecOn (motive := fun t : State => t.tes = s.tes) (mxSlots o.desc) _ rfl fun _ ht _ _ => claimSlot_tes.trans ht

theorem State.slot_claimSlots_of_not_mem (h : k ∉ mxSlots o.desc) : ((s.claimSlots c inst o).me inst).slot k = (s.me inst).slot k :=
  List.foldlRecOn (motive := fun t : State => (t.me inst).slot k = (s.me inst).slot k) (mxSlots o.desc) _ rfl
    fun _ ht _ hj => (slot_claimSlot_ne (j := k) fun e => h (e ▸ hj)).trans ht

/-- Each slot of the operation is claimed once, whatever is claimed before and after it. -/
theorem State.slot_claimSlots_of_mem (h : k ∈ mxSlots o.desc) :
    ((s.claimSlots c inst o).me inst).slot k = ((s.me inst).slot k).claimed o.ref o.desc (s.openTile c o.desc k) := by
  rw [claimSlots_eq_foldl]
  refine foldl_meets_once (a := k)
    (before := fun t : State => t.mem = s.mem ∧ (t.me inst).slot k = (s.me inst).slot k)
    (after := fun t : State => (t.me inst).slot k = ((s.me inst).slot k).claimed o.ref o.desc (s.openTile c o.desc k))
    ?_ ?_ ?_ (nodup_mxSlots _) h ⟨rfl, rfl⟩
  · intro t j hj ⟨hmem, hslot⟩
    exact ⟨claimSlot_atEngine.mem.trans hmem, (slot_claimSlot_ne (Ne.symm hj)).trans hslot⟩
  · intro t ⟨hmem, hslot⟩
    rw [slot_claimSlot, hslot, openTile_congr hmem]
  · intro t j hj ht
    exact (slot_claimSlot_ne (Ne.symm hj)).trans ht

end

/-- A matrix operation as it is staged: its watch entry, what it holds, and the slots it adds to and closes (R124). -/
def mxOp (b : State) (o : Op) (c : CoreId) : Op :=
  { o with
    entry := Safety.mxEntry b o, holds := mxHolds c.val o.desc, added := (mxSlots o.desc).map (fun k => (Safety.mxInst o c, k)),
    slots := if mxClose o.desc = 1 then (mxSlots o.desc).map (fun k => (Safety.mxInst o c, k)) else [] }

/-- An operation with its slots claimed: a tile hazard is counted first. -/
def State.claimFor (b : State) (c : CoreId) (inst : Nat) (o : Op) : State :=
  ((if (b.me inst).hazard o.desc then b.count (pageMe inst + 0x58) else b).putOp o).claimSlots c.val inst o

/-- A matrix operation takes the tenon operations of its tag (R164). -/
def State.takeJoins (s : State) (c : CoreId) (inst : Nat) (o : Op) : State :=
  let t := s.te c.val
  let taken := t.takes o.desc
  let u := s.setTe c.val { t with
    unjoined := t.unjoined.filter (fun j => !taken.contains j), joined := t.joined ++ taken.map (fun j => (o.ref, j)) }
  let v : State := taken.foldl (fun s j => s.modOp j.op (fun x => { x with added := o.added })) u
  if taken.isEmpty then v else (v.wait (pageTe c.val + 0x44)).wait (pageMe inst + 0x64)

section
variable {s : State} {c : CoreId} {inst : Nat} {o : Op}

theorem State.claimFor_tes : (s.claimFor c inst o).tes = s.tes := by
  rw [claimFor, claimSlots_tes]
  split <;> rfl

theorem State.claimFor_atEngine : Laws.AtEngine inst s (s.claimFor c inst o) :=
  have hcount : Laws.AtEngine inst s (s.count (pageMe inst + 0x58)) := .count s 1 (by omega)
  ((hcount.ite (.refl s)).trans (.modOp ..)).trans claimSlots_atEngine

theorem State.takeJoins_atEngine : Laws.AtEngine inst s (s.takeJoins c inst o) := by
  unfold takeJoins
  extract_lets t taken u v
  have hv : Laws.AtEngine inst s v := (Laws.AtEngine.setTe s _ _).trans (.foldl _ _ _ fun s j => .modOp s _ _)
  have hw : Laws.AtEngine inst v ((v.wait (pageTe c.val + 0x44)).wait (pageMe inst + 0x64)) :=
    (Laws.AtEngine.wait v (by simp only [pageMe, pageTe]; omega)).trans (.wait _ (by omega))
  exact hv.trans (.ite (.refl v) hw)

theorem State.takeJoins_mes : (s.takeJoins c inst o).mes = s.mes := by
  unfold takeJoins
  extract_lets t taken u v
  have hv : v.mes = s.mes := List.foldlRecOn (motive := fun w : State => w.mes = s.mes) taken _ rfl fun _ hw _ _ => hw
  split
  · exact hv
  · exact hv

/-- The count of a hazard and the stored copy leave the engine as it was. -/
theorem State.slot_claimFor_of_mem {k : Nat} (h : k ∈ mxSlots o.desc) :
    ((s.claimFor c inst o).me inst).slot k = ((s.me inst).slot k).claimed o.ref o.desc (s.openTile c.val o.desc k) := by
  rw [claimFor, slot_claimSlots_of_mem h]
  split <;> rfl

theorem State.slot_claimFor_of_not_mem {k : Nat} (h : k ∉ mxSlots o.desc) :
    ((s.claimFor c inst o).me inst).slot k = (s.me inst).slot k := by
  rw [claimFor, slot_claimSlots_of_not_mem h]
  split <;> rfl

end

/-- A matrix operation holds its slots and its tenon operations; its passes are still to be staged. -/
def State.mxTaken (b : State) (o : Op) (c : CoreId) : State :=
  (b.claimFor c (Safety.mxInst o c) (mxOp b o c)).takeJoins c (Safety.mxInst o c) (mxOp b o c)

/-- A matrix operation is staged behind what its engine has (R111). -/
def State.mxStaged (b : State) (o : Op) (c : CoreId) : State :=
  (b.mxTaken o c).modMe (Safety.mxInst o c) (fun m => { m with passes := m.passes ++ mxPasses o })

section
variable {b : State} {o : Op} {c : CoreId}

theorem State.mxTaken_atEngine : Laws.AtEngine (Safety.mxInst o c) b (b.mxTaken o c) := claimFor_atEngine.trans takeJoins_atEngine

theorem State.slot_mxTaken_of_mem {k : Nat} (h : k ∈ mxSlots o.desc) : ((b.mxTaken o c).me (Safety.mxInst o c)).slot k
    = ((b.me (Safety.mxInst o c)).slot k).claimed o.ref o.desc (b.openTile c.val o.desc k) := by
  rw [mxTaken, me_congr takeJoins_mes]
  exact slot_claimFor_of_mem (o := mxOp b o c) h

theorem State.slot_mxTaken_of_not_mem {k : Nat} (h : k ∉ mxSlots o.desc) :
    ((b.mxTaken o c).me (Safety.mxInst o c)).slot k = (b.me (Safety.mxInst o c)).slot k := by
  rw [mxTaken, me_congr takeJoins_mes]
  exact slot_claimFor_of_not_mem (o := mxOp b o c) h

theorem State.mxStaged_me :
    (b.mxStaged o c).me (Safety.mxInst o c) = { (b.mxTaken o c).me (Safety.mxInst o c) with
      passes := ((b.mxTaken o c).me (Safety.mxInst o c)).passes ++ mxPasses o } :=
  me_modMe (b.mxTaken o c) (Safety.mxInst o c) (fun m => { m with passes := m.passes ++ mxPasses o })

theorem State.mxStaged_others {i : Nat} (h : i ≠ Safety.mxInst o c) : (b.mxStaged o c).me i = b.me i :=
  (me_modMe_ne (s := b.mxTaken o c) (fun m => { m with passes := m.passes ++ mxPasses o }) h).trans (mxTaken_atEngine.others i h)

end

end Sys2Proof.Machine

namespace Sys2Proof.Laws

open Sys2Proof.Machine Sys2Proof.Safety

/-- A ready matrix operation claims its slots, takes its tenon operations and is staged (R111, R120). -/
theorem exec_matrixOperation_of_ready {s b : State} {q : QueueId} {d : Desc} {o : Op} {c : CoreId} (h : Issues s q d o b)
    (hm : MatrixReady b o c) : exec (.matrixOperation q d) s = .next (b.mxStaged o c) := by
  have hd : o.desc = d := (Issues_desc h).1
  have hissue := issueOnCore_of (i := .matrixOperation q d) h hm.toOnCore rfl (hd ▸ hm.cls) (hd ▸ hm.op) rfl
  have hchecks : b.matrixCause c (meInst c.val (hdEngine o.desc)) o
      (if mxClose o.desc = 1 then b.enabledEntry o.fn (mxWatchEn o.desc) (mxWatchId o.desc) else none) = 0 := hm.checks
  have hplace : (b.me (meInst c.val (hdEngine o.desc))).staged = false := hm.place
  have hwhole : (((b.claimFor c (mxInst o c) (mxOp b o c)).te c.val).takes o.desc).filter (fun j => j.parity) = [] := by
    simp only [State.te, State.claimFor_tes, List.filter_eq_nil_iff]
    exact fun j hj => by simpa using List.all_eq_true.mp hm.whole j hj
  refine (congrArg Host.Outcome.next (hissue _)).trans ?_
  simp only [hchecks, hplace, hm.init, hm.window, hm.slots, ne_eq, not_true_eq_false, if_false, Bool.false_eq_true, Option.isSome_none]
  exact congrArg (fun js => Host.Outcome.next (js.foldl (fun s j => State.joinParity s c o.ref j) (b.mxStaged o c))) hwhole

/-- Settles O3: issue claims the slots, each once, and adds the passes at the end. -/
theorem matrixStages : Obligations.MatrixStages := by
  intro s b q d o c h hm
  obtain rfl : o.desc = d := (Issues_desc h).1
  have hat : AtEngine (mxInst o c) b (b.mxTaken o c) := State.mxTaken_atEngine
  refine ⟨_, exec_matrixOperation_of_ready h hm, ?passes, hat.mem, hat.fns, hat.queues, hat.dir, hat.ctxs,
    fun i hi => State.mxStaged_others hi, ?bank0, ?bank1, fun k hk => ?out, fun k hk => ?claimed⟩
  case passes => rw [State.mxStaged_me, hat.engine]; rfl
  case bank0 => rw [State.mxStaged_me, hat.engine]
  case bank1 => rw [State.mxStaged_me, hat.engine]
  case out => rw [State.mxStaged_me]; exact State.slot_mxTaken_of_not_mem hk
  case claimed =>
    intro x y
    have hy : y = x.claimed o.ref o.desc (b.openTile c.val o.desc k) := by
      simp only [y, State.mxStaged_me]; exact State.slot_mxTaken_of_mem hk
    rw [hy]
    refine ⟨Slot.claimed_projOpen, fun hacc => ?_, Slot.claimed_shape, Slot.claimed_of_free, Slot.claimed_of_used⟩
    rw [Slot.claimed_of_acc_two hacc]
    exact ⟨rfl, rfl, rfl⟩

end Sys2Proof.Laws

/-! ## The entry of a vector -/

namespace Sys2Proof.Machine

section
variable {m : Me} {p : Pass} {cycle : Nat}

/-- What the entry of a vector may set of an engine. -/
theorem Me.enter_frame : m.enter p cycle = { m with
    lastEntry := cycle + 1, lastInterval := p.interval, passes := (m.enter p cycle).passes, lastRead0 := (m.enter p cycle).lastRead0,
    lastRead1 := (m.enter p cycle).lastRead1, staged0 := (m.enter p cycle).staged0, staged1 := (m.enter p cycle).staged1 } := by
  unfold enter
  dsimp only
  split <;> split
  · split <;> rfl
  · rfl
  · split <;> rfl
  · rfl

theorem Me.enter_passes {rest : List Pass} (h : m.passes = p :: rest) :
    (m.enter p cycle).passes = if p.left ≤ 1 then rest else { p with left := p.left - 1 } :: rest := by
  unfold enter
  extract_lets m1 m2 m3
  have h2 : m2.passes = p :: rest := by
    simp only [m2]; split <;> exact h
  have h3 : m3.passes = p :: rest := by
    simp only [m3]; split
    · split <;> exact h2
    · exact h2
  simp only [h3]

theorem Me.bank_setBank (b : Fin 2) (x : Bank) : (m.setBank b x).bank b = x := by
  unfold setBank bank
  split <;> rfl

theorem Me.setBank_frame (b : Fin 2) (x : Bank) :
    m.setBank b x = { m with bank0 := (m.setBank b x).bank0, bank1 := (m.setBank b x).bank1 } := by
  unfold setBank
  split <;> rfl

end

/-- The block of a pass stands in its bank as its first vector enters. -/
def State.withBlock (s : State) (c : CoreId) (inst : Nat) (p : Pass) (d : Desc) : State :=
  if p.loads ∧ p.left = p.total then s.modMe inst (fun m => m.setBank p.bank (s.loadBlock c.val d p.seg)) else s

/-- A vector enters the engine and is counted. -/
def State.takeVector (s : State) (c : CoreId) (inst : Nat) (p : Pass) (d : Desc) (cycle : Nat) : State :=
  ((s.withBlock c inst p d).modMe inst (fun m => m.enter p cycle)).count (pageMe inst + 0x78)

/-- The segment sums of the vector that enters, over the block that its pass then has. -/
def State.vectorSums (s : State) (c : CoreId) (inst : Nat) (p : Pass) (d : Desc) : List Val :=
  resultRow d (if p.loads = true ∧ p.left = p.total then s.loadBlock c.val d p.seg else (s.me inst).bank p.bank)
    (s.streamRow c.val d p.seg (p.total - p.left) (if p.seg = mxSegsM1 d then mxKlast d else 512))

/-- A mismatch found in a vector's sums is counted. -/
def State.countBad (s : State) (inst : Nat) (bad : Bool) : State := if bad then s.count (pageMe inst + 0x68) else s

/-- The result rows of a vector reach their slots, 512 columns each (R109). -/
def State.landVector (s : State) (inst : Nat) (p : Pass) (o : Op) (bad : Bool) (sums : List Val) : State :=
  ((chunks 512 sums).mapIdx (fun h v => (mxTile o.desc + (p.total - p.left) / 64 * mxPerGroup o.desc + h, v))).foldl (fun s x =>
    s.arrive inst x.1 o.desc { op := o.ref, seg := p.seg, row := p.total - p.left, sums := x.2, mismatch := bad }) s

section
variable {s : State} {c : CoreId} {inst : Nat} {p : Pass} {d : Desc} {cycle : Nat}

theorem State.withBlock_bank : ((s.withBlock c inst p d).me inst).bank p.bank
    = if p.loads = true ∧ p.left = p.total then s.loadBlock c.val d p.seg else (s.me inst).bank p.bank := by
  unfold withBlock
  split
  · rw [me_modMe, Me.bank_setBank]
  · rfl

theorem State.withBlock_rest : s.withBlock c inst p d = { s with mes := (s.withBlock c inst p d).mes } := by
  unfold withBlock
  split <;> rfl

theorem State.withBlock_engine : (s.withBlock c inst p d).me inst = { s.me inst with
    bank0 := ((s.withBlock c inst p d).me inst).bank0, bank1 := ((s.withBlock c inst p d).me inst).bank1 } := by
  unfold withBlock
  split
  · rw [me_modMe]; exact Me.setBank_frame ..
  · rfl

theorem State.withBlock_others {i : Nat} (h : i ≠ inst) : (s.withBlock c inst p d).me i = s.me i := by
  unfold withBlock
  split
  · exact me_modMe_ne _ h
  · rfl

theorem State.takeVector_me : (s.takeVector c inst p d cycle).me inst = ((s.withBlock c inst p d).me inst).enter p cycle :=
  me_modMe (s.withBlock c inst p d) inst (fun m => m.enter p cycle)

theorem State.takeVector_others {i : Nat} (h : i ≠ inst) : (s.takeVector c inst p d cycle).me i = s.me i :=
  (me_modMe_ne (s := s.withBlock c inst p d) (fun m => m.enter p cycle) h).trans (withBlock_others h)

theorem State.takeVector_rest :
    s.takeVector c inst p d cycle = { s with mes := (s.takeVector c inst p d cycle).mes, regs := (s.takeVector c inst p d cycle).regs } := by
  unfold takeVector
  rw [withBlock_rest]
  rfl

theorem State.takeVector_entries :
    (s.takeVector c inst p d cycle).reg 0 (pageMe inst + 0x78) = min (s.reg 0 (pageMe inst + 0x78) + 1) 0xFFFFFFFF := by
  unfold takeVector
  rw [reg_count, withBlock_rest]
  rfl

theorem State.takeVector_passes {rest : List Pass} (h : (s.me inst).passes = p :: rest) :
    ((s.takeVector c inst p d cycle).me inst).passes = if p.left ≤ 1 then rest else { p with left := p.left - 1 } :: rest := by
  rw [takeVector_me, Me.enter_passes]
  rw [withBlock_engine]; exact h

theorem State.takeVector_lastEntry : ((s.takeVector c inst p d cycle).me inst).lastEntry = cycle + 1 := by
  rw [takeVector_me, Me.enter_frame]

theorem State.takeVector_lastInterval : ((s.takeVector c inst p d cycle).me inst).lastInterval = p.interval := by
  rw [takeVector_me, Me.enter_frame]

theorem State.takeVector_mem : (s.takeVector c inst p d cycle).mem = s.mem := by rw [takeVector_rest]

theorem State.takeVector_queues : (s.takeVector c inst p d cycle).queues = s.queues := by rw [takeVector_rest]

/-- The sums depend on memory and on the engine's banks alone. -/
theorem State.vectorSums_congr {t : State} (hmem : t.mem = s.mem) (hme : t.me inst = s.me inst) :
    t.vectorSums c inst p d = s.vectorSums c inst p d := by
  simp only [vectorSums, loadBlock, streamRow, nat, hmem, hme]

theorem State.takeVector_slot (k : Nat) : ((s.takeVector c inst p d cycle).me inst).slot k = (s.me inst).slot k := by
  rw [takeVector_me, Me.enter_frame, withBlock_engine]
  rfl

/-- A vector enters, and its sums land in their slots, marked where a mismatch was found. -/
theorem State.enterVector_eq (s : State) (c : CoreId) (inst : Nat) (p : Pass) (o : Op) (cycle : Nat) (mismatch : Bool) :
    let t := s.takeVector c inst p o.desc cycle
    let sums := s.vectorSums c inst p o.desc
    let bad := mismatch && sums.all Val.isFinite
    s.enterVector c inst p o cycle mismatch
      = ((t.countBad inst bad).landVector inst p o bad sums).settle inst := by
  intro t sums bad
  have hstream : ∀ klast, (s.withBlock c inst p o.desc).streamRow c.val o.desc p.seg (p.total - p.left) klast
      = s.streamRow c.val o.desc p.seg (p.total - p.left) klast := fun klast => by rw [withBlock_rest]; rfl
  have hsums : resultRow o.desc (((s.withBlock c inst p o.desc).me inst).bank p.bank) ((s.withBlock c inst p o.desc).streamRow c.val o.desc
      p.seg (p.total - p.left) (if p.seg = mxSegsM1 o.desc then mxKlast o.desc else 512)) = sums := by
    rw [withBlock_bank, hstream]; rfl
  simp only [bad, ← hsums]
  rfl

end

/-! ## Landing -/

section
variable {s : State} {inst slot : Nat} {d : Desc} {a : Arrival}

theorem State.addArrival_atEngine : Laws.AtEngine inst s (s.addArrival inst slot d a) := by
  unfold addArrival
  extract_lets last j t joins bad u end_
  have hu : Laws.AtEngine inst s u := .modSlot ..
  exact .ite ((hu.trans (.modSlot ..)).trans (.modMe _ fun _ => rfl)) hu

theorem State.arrive_atEngine : Laws.AtEngine inst s (s.arrive inst slot d a) :=
  .ite ((Laws.AtEngine.modSlot ..).trans (.wait _ (by omega))) addArrival_atEngine

/-- Without joined operations a row takes one rounded addition of each sum. -/
theorem State.addArrival_vals (h : (s.te (inst / 2)).joined = []) : (((s.addArrival inst slot d a).me inst).slot slot).vals
    = setAt ((s.me inst).slot slot).vals (a.row % 64) (fun r => addRow r a.sums) := by
  unfold addArrival
  extract_lets last j t joins bad u end_
  have hjoins : joins = [] := by
    have ht : t.joined = [] := h
    simp only [joins, Te.joinRows, ht, List.filter_nil, List.flatMap_nil, ite_self]
  have hu : ((u.me inst).slot slot).vals = setAt ((s.me inst).slot slot).vals (a.row % 64) (fun r => addRow r a.sums) := by
    simp only [u, slot_modSlot, Slot.addRows, hjoins, List.map_nil, List.foldl_cons, List.foldl_nil, j]
  split
  · rw [me_modMe]
    exact (congrArg Slot.vals (slot_modSlot u inst slot fun x => { x with st := .closing, closer := some a.op })).trans hu
  · exact hu

theorem State.arrive_of_not_held (h : ((s.me inst).slot slot).holdsBack a.op = false) :
    s.arrive inst slot d a = s.addArrival inst slot d a := by
  simp only [arrive, h, Bool.false_eq_true, if_false]

end

/-! ## The sums of a vector -/

theorem chunks_of_length {α : Type} {n : Nat} {xs : List α} (h : xs.length = n) (hn : 0 < n) : chunks n xs = [xs] := by
  have htake : xs.take n = xs := List.take_of_length_le (Nat.le_of_eq h)
  have hdrop : xs.drop n = [] := List.drop_of_length_le (Nat.le_of_eq h)
  cases xs with
  | nil => simp only [List.length_nil] at h; omega
  | cons x xs =>
    simp only [chunks, List.length_cons, chunksOf, htake, hdrop]
    cases xs.length <;> rfl

theorem length_resultRow {d : Desc} (h : mxWidth d = 512) (b : Bank) (xs : List Val) : (resultRow d b xs).length = 512 := by
  unfold resultRow
  split
  · rw [List.length_map, List.length_range]
  · rw [List.length_map, List.length_range, h]

/-- A vector of a tile of 512 columns has one result row. -/
theorem State.landVector_of_width {s : State} {inst : Nat} {p : Pass} {o : Op} {bad : Bool} {sums : List Val} (h : mxWidth o.desc = 512)
    (hsums : sums.length = 512) : s.landVector inst p o bad sums = s.arrive inst (mxTile o.desc + (p.total - p.left) / 64) o.desc
      { op := o.ref, seg := p.seg, row := p.total - p.left, sums := sums, mismatch := bad } := by
  have hper : mxPerGroup o.desc = 1 := by rw [mxPerGroup, h]
  simp only [landVector, chunks_of_length hsums (by decide), hper, List.mapIdx_cons, List.mapIdx_nil, List.foldl_cons, List.foldl_nil,
    Nat.mul_one, Nat.add_zero]

/-! ## What an entering vector does to its engine -/

theorem State.ref_of_op? {s : State} {r : OpRef} {o : Op} (h : s.op? r = some o) : o.ref = r := by
  have := List.find?_some h
  simp only [Op.is, Bool.and_eq_true, decide_eq_true_eq] at this
  exact Prod.ext this.1 this.2

section
variable {s : State} {c : CoreId} {inst : Nat} {p : Pass} {o : Op} {cycle : Nat} {mismatch : Bool}

theorem State.length_vectorSums {d : Desc} (h : mxWidth d = 512) : (s.vectorSums c inst p d).length = 512 := length_resultRow h ..

theorem State.landVector_atEngine {bad : Bool} {sums : List Val} : Laws.AtEngine inst s (s.landVector inst p o bad sums) :=
  .foldl _ _ _ fun _ _ => arrive_atEngine

theorem State.countBad_atEngine {bad : Bool} : Laws.AtEngine inst s (s.countBad inst bad) := .ite (.count _ _ (by omega)) (.refl s)

theorem State.countBad_mes {bad : Bool} : (s.countBad inst bad).mes = s.mes := by
  unfold countBad
  split <;> rfl

theorem State.countBad_tes {bad : Bool} : (s.countBad inst bad).tes = s.tes := by
  unfold countBad
  split <;> rfl

/-- Once a vector has entered, its landing touches slots alone. -/
theorem State.enterVector_atEngine : Laws.AtEngine inst (s.takeVector c inst p o.desc cycle) (s.enterVector c inst p o cycle mismatch) := by
  rw [enterVector_eq]
  exact (countBad_atEngine.trans landVector_atEngine).trans (.settle _ _)

/-- The slot row of the vector takes one rounded addition of its sums (R109). -/
theorem State.enterVector_vals (hwidth : mxWidth o.desc = 512)
    (hheld : ((s.me inst).slot (mxTile o.desc + (p.total - p.left) / 64)).holdsBack o.ref = false) (hte : (s.te (inst / 2)).joined = []) :
    (((s.enterVector c inst p o cycle mismatch).me inst).slot (mxTile o.desc + (p.total - p.left) / 64)).vals
      = setAt ((s.me inst).slot (mxTile o.desc + (p.total - p.left) / 64)).vals ((p.total - p.left) % 64)
          (fun r => addRow r (s.vectorSums c inst p o.desc)) := by
  rw [enterVector_eq, me_congr (settle_mes ..)]
  have hslot : ∀ bad k, (((s.takeVector c inst p o.desc cycle).countBad inst bad).me inst).slot k = (s.me inst).slot k := fun bad k => by
    rw [me_congr countBad_mes, takeVector_slot]
  have htes : ∀ bad, ((s.takeVector c inst p o.desc cycle).countBad inst bad).te (inst / 2) = s.te (inst / 2) := fun bad => by
    simp only [te, countBad_tes]; rw [takeVector_rest]
  rw [landVector_of_width hwidth (length_vectorSums hwidth), arrive_of_not_held (by rw [hslot]; exact hheld),
    addArrival_vals (by rw [htes]; exact hte), hslot]

end

/-- The cycles by which a first vector is late are counted elsewhere than its entry (R115). -/
theorem State.countStalls_atEngine {s : State} {inst : Nat} {p : Pass} {dataCycle : Nat} :
    Laws.AtEngine inst s (s.countStalls inst p dataCycle) := by
  unfold countStalls
  extract_lets m t b l u ready
  have hu : Laws.AtEngine inst s u := .ite (.count _ _ (by split <;> omega)) (.refl s)
  exact .trans hu (.ite (.count _ _ (by omega)) (.refl u))

theorem State.countStalls_rest {s : State} {inst : Nat} {p : Pass} {dataCycle : Nat} :
    s.countStalls inst p dataCycle = { s with regs := (s.countStalls inst p dataCycle).regs } := by
  unfold countStalls
  extract_lets m t b l u ready
  have hu : u = { s with regs := u.regs } := by
    simp only [u]; split <;> rfl
  split
  · exact congrArg (fun x : State => { x with regs := (u.count (pageMe inst + 0x4C) (dataCycle - ready)).regs }) hu
  · exact hu

/-! ## When a vector may enter (R104, R111, R114, R119) -/

section
variable {s : State} {c : CoreId} {inst : Nat} {p : Pass} {cycle dataCycle : Nat}

theorem State.mayEnter_data (h : s.mayEnter c inst p cycle dataCycle = true) : dataCycle ≤ cycle := by
  simp only [mayEnter, Bool.and_eq_true, decide_eq_true_eq] at h
  exact h.1.2

theorem State.mayEnter_edge (h : s.mayEnter c inst p cycle dataCycle = true) (hlast : (s.me inst).lastEntry ≠ 0) :
    (s.me inst).lastEntry - 1 + (s.me inst).lastInterval ≤ cycle := by
  simp only [mayEnter, Bool.and_eq_true, decide_eq_true_eq] at h
  obtain ⟨⟨hedge, -⟩, -⟩ := h
  rwa [Me.edge, if_neg hlast] at hedge

/-- The first vector of a pass meets the terms of its bank and of its operation too. -/
theorem State.mayEnter_first (h : s.mayEnter c inst p cycle dataCycle = true) (hfirst : p.left = p.total) :
    (s.me inst).bankTerm p ≤ cycle ∧ (s.me inst).loadTerm p ≤ cycle ∧ (p.loads = true → (s.me inst).stagedAt p.bank ≠ 0)
    ∧ (p.loads = true → (p.fp32 = true ∨ p.trans = true) → (s.me inst).rowsDone p.bank = 512)
    ∧ (p.seg = 0 → s.inProgress inst < 8 ∧ (s.cell c).quarantining = false) := by
  simp only [mayEnter, hfirst, decide_true, Bool.not_true, Bool.false_or, Bool.and_eq_true, Bool.or_eq_true, decide_eq_true_eq,
    Bool.not_eq_true', Bool.and_eq_false_iff, Bool.or_eq_false_iff] at h
  obtain ⟨-, ⟨⟨⟨hbank, hload⟩, hstaged⟩, hrows⟩, hseg⟩ := h
  refine ⟨hbank, hload, fun hl => ?_, fun hl hw => ?_, fun hs => ?_⟩
  · exact hstaged.resolve_left (by simp [hl])
  · refine hrows.resolve_left ?_
    rintro (hno | ⟨h1, h2⟩)
    · simp [hl] at hno
    · rcases hw with hw | hw
      · simp [h1] at hw
      · simp [h2] at hw
  · exact hseg.resolve_left (fun hne => hne hs)

/-- A pass that loads waits for the readers of its bank (R114). -/
theorem Me.le_of_bankTerm {m : Me} (h : m.bankTerm p ≤ cycle) (hl : p.loads = true) (hr : m.lastRead p.bank ≠ 0) :
    m.lastRead p.bank - 1 + 513 ≤ cycle := by
  rwa [bankTerm, if_pos (by simp [hl, hr])] at h

/-- A pass that loads waits for the first row of its block, and with FP32 weights or TRANS for the last (R114, R119). -/
theorem Me.le_of_loadTerm {m : Me} (h : m.loadTerm p ≤ cycle) (hl : p.loads = true) :
    m.stagedAt p.bank ≤ cycle ∧ (p.fp32 = true ∨ p.trans = true → m.lastWrite p.bank ≤ cycle) := by
  simp only [loadTerm, hl, Bool.not_true, Bool.false_eq_true, if_false, Bool.or_eq_true] at h
  by_cases hw : p.fp32 = true ∨ p.trans = true
  · rw [if_pos hw] at h
    exact ⟨Nat.le_trans (Nat.le_max_left ..) h, fun _ => Nat.le_trans (Nat.le_max_right ..) h⟩
  · rw [if_neg hw] at h
    exact ⟨h, fun hw' => absurd hw' hw⟩

end

section
variable {s : State} {core : CoreId} {me : Fin 2} {cycle dataCycle : Nat} {err : Sys2Proof.RunErr} {p : Pass} {rest : List Pass}

/-- Where nothing may enter, the command does nothing. -/
theorem mayEnter_of_exec_vectorEntry {t : State} (hp : (s.me (meInst core.val me.val)).passes = p :: rest)
    (hexec : exec (.vectorEntry core me cycle dataCycle err) s = .next t) (hne : t ≠ s) :
    s.mayEnter core (meInst core.val me.val) p cycle dataCycle = true := by
  cases hmay : s.mayEnter core (meInst core.val me.val) p cycle dataCycle with
  | true => rfl
  | false =>
    simp only [exec, execVectorEntry, hp, hmay, Bool.not_false, if_true] at hexec
    split at hexec
    · exact absurd (Host.Outcome.next.inj hexec).symm hne
    · exact absurd (Host.Outcome.next.inj hexec).symm hne

/-- A vector that may enter and is not struck enters; for the first of a pass the stalls are counted before. -/
theorem exec_vectorEntry_of_mayEnter {o : Op} (hp : (s.me (meInst core.val me.val)).passes = p :: rest) (ho : s.op? p.op = some o)
    (hmay : s.mayEnter core (meInst core.val me.val) p cycle dataCycle = true) (herr : err ≠ .parity) :
    exec (.vectorEntry core me cycle dataCycle err) s
      = .next ((if p.left = p.total then s.countStalls (meInst core.val me.val) p dataCycle else s).enterVector core
          (meInst core.val me.val) p o cycle (decide (err = .mismatch) || decide (err = .second))) := by
  simp only [exec, execVectorEntry, hp, ho, hmay, herr, Bool.not_true, Bool.false_eq_true, if_false]

end

/-! ## The loader's row writes (R113) -/

section
variable {m : Me} {b : Fin 2} {row cycle : Nat}

/-- Row 0 of a block waits for the readers of the bank. -/
theorem Me.mayWrite_zero (h : m.mayWrite b 0 cycle = true) (hr : m.lastRead b ≠ 0) : m.lastRead b - 1 + 512 ≤ cycle := by
  simp only [mayWrite, if_true, Bool.and_eq_true] at h
  obtain ⟨-, hpass⟩ := h
  split at hpass
  · simpa [hr] using hpass
  · cases hpass

/-- A further row follows the one before it, in the very next cycle where the block at the head of the bank's passes is not FP32. -/
theorem Me.mayWrite_succ (h : m.mayWrite b row cycle = true) (hrow : row ≠ 0) :
    m.rowsDone b = row ∧ m.lastWrite b ≤ cycle ∧ ((∀ p ∈ m.passes, p.bank = b → p.fp32 = false) → m.lastWrite b = cycle) := by
  simp only [mayWrite, hrow, if_false, Bool.and_eq_true, decide_eq_true_eq] at h
  obtain ⟨⟨hdone, -⟩, hcycle⟩ := h
  split at hcycle
  · next p hp =>
    have hbank : p.bank = b := by simpa using List.find?_some hp
    split at hcycle
    · next hfp32 =>
      refine ⟨hdone, of_decide_eq_true hcycle, fun hnone => ?_⟩
      exact absurd hfp32 (by simp [hnone p (List.mem_of_find?_eq_some hp) hbank])
    · exact ⟨hdone, Nat.le_of_eq (of_decide_eq_true hcycle), fun _ => of_decide_eq_true hcycle⟩
  · have heq : m.lastWrite b = cycle := by simpa using hcycle
    exact ⟨hdone, Nat.le_of_eq heq, fun _ => heq⟩

end

section
variable {s : State} {core : CoreId} {me bank : Fin 2} {row : Fin 512} {cycle : Nat}

theorem exec_stationaryRowWrite_of_mayWrite (h : (s.me (meInst core.val me.val)).mayWrite bank row.val cycle = true) :
    exec (.stationaryRowWrite core me bank row cycle false) s
      = .next (s.setMe (meInst core.val me.val) ((s.me (meInst core.val me.val)).writeRow bank row.val cycle)) := by
  simp only [exec, execStationaryRowWrite, h, Bool.not_true, Bool.false_eq_true, if_false, State.modMe]

theorem exec_stationaryRowWrite_of_not_mayWrite (h : (s.me (meInst core.val me.val)).mayWrite bank row.val cycle = false) (parity : Bool) :
    exec (.stationaryRowWrite core me bank row cycle parity) s = .next s := by
  simp only [exec, execStationaryRowWrite, h, Bool.not_false, if_true]

end

end Sys2Proof.Machine

namespace Sys2Proof.Laws

open Sys2Proof.Machine

/-- Settles O4: the vector enters and then lands; each term of `mayEnter` and `mayWrite` gives its bound. -/
theorem vectorEntries : Obligations.VectorEntries := by
  refine ⟨?enters, ?may, ?rows⟩
  case enters =>
    intro s core me cycle dataCycle err p rest o inst m d row k hp ho hmay herr
    refine ⟨_, exec_vectorEntry_of_mayEnter hp ho hmay herr, ?_⟩
    generalize (decide (err = .mismatch) || decide (err = .second)) = mismatch
    generalize hu : (if p.left = p.total then s.countStalls (meInst core.val me.val) p dataCycle else s) = u
    have hsu : AtEngine inst s u := hu ▸ .ite State.countStalls_atEngine (.refl s)
    have hrest : u = { s with regs := u.regs } := by
      rw [← hu]; split
      · exact State.countStalls_rest
      · rfl
    have hmes : u.mes = s.mes := by rw [hrest]
    have hme : u.me inst = m := State.me_congr hmes inst
    have htu : AtEngine inst (u.takeVector core inst p d cycle) (u.enterVector core inst p o cycle mismatch) := State.enterVector_atEngine
    refine ⟨?passes, ?entry, ?interval, ?count, ?mem, ?queues, fun i hi => ?others, fun hwidth hheld hjoined => ?row⟩
    case passes => rw [htu.engine]; exact State.takeVector_passes (hme ▸ hp)
    case entry => rw [htu.engine]; exact State.takeVector_lastEntry
    case interval => rw [htu.engine]; exact State.takeVector_lastInterval
    case count => rw [htu.entries, State.takeVector_entries, hsu.entries]
    case mem => rw [htu.mem, State.takeVector_mem, hsu.mem]
    case queues => rw [htu.queues, State.takeVector_queues, hsu.queues]
    case others => rw [htu.others i hi, State.takeVector_others hi, hsu.others i hi]
    case row =>
      intro block sums
      have hcore : inst / 2 = core.val := by simp only [inst, meInst]; omega
      have hte : (u.te (inst / 2)).joined = [] := by rw [hcore, hrest]; exact hjoined
      have hvals := State.enterVector_vals (s := u) (c := core) (p := p) (cycle := cycle) (mismatch := mismatch) hwidth
        (by rw [hme, State.ref_of_op? ho]; exact hheld) hte
      rw [hme, State.vectorSums_congr hsu.mem hme] at hvals
      exact hvals
  case may =>
    intro s t core me cycle dataCycle err p rest inst m hp hexec hne
    have hmay := mayEnter_of_exec_vectorEntry hp hexec hne
    refine ⟨State.mayEnter_data hmay, State.mayEnter_edge hmay, fun hfirst hl => ?_, fun hfirst => ?_⟩
    · obtain ⟨hbank, hload, hstaged, hrows, -⟩ := State.mayEnter_first hmay hfirst
      obtain ⟨hfrom, hall⟩ := Me.le_of_loadTerm hload hl
      exact ⟨Me.le_of_bankTerm hbank hl, hstaged hl, hfrom, fun hw => ⟨hrows hl hw, hall hw⟩⟩
    · obtain ⟨-, -, -, -, hseg⟩ := State.mayEnter_first hmay hfirst
      exact hseg
  case rows =>
    intro s core me bank row cycle inst m
    refine ⟨exec_stationaryRowWrite_of_mayWrite, exec_stationaryRowWrite_of_not_mayWrite,
      fun hmay => ⟨fun h0 => ?_, fun h0 => ?_, fun h0 => ?_⟩⟩
    · exact Me.mayWrite_zero (h0 ▸ hmay)
    · obtain ⟨hdone, hle, -⟩ := Me.mayWrite_succ hmay h0
      exact ⟨hdone, hle⟩
    · obtain ⟨-, -, heq⟩ := Me.mayWrite_succ hmay h0
      exact heq

end Sys2Proof.Laws

/-! # The tenon engine (R153 to R174)

What the engine takes and counts before it computes keeps memory, so its values are those of the state after the skip mask is written. -/

namespace Sys2Proof.Machine

open Sys2Proof.Safety

/-! ## Fields of a record -/

/-- A field that was replaced reads as the value that it got, cut to its width. -/
theorem field_withField (x hi lo v : Nat) : field (withField x hi lo v) hi lo = v % 2 ^ (hi + 1 - lo) := by
  simp only [field, withField, Nat.shiftRight_eq_div_pow]
  have hlow : x / 2 ^ lo % 2 ^ (hi + 1 - lo) * 2 ^ lo ≤ x :=
    Nat.le_trans (Nat.mul_le_mul_right _ (Nat.mod_le ..)) (Nat.div_mul_le_self ..)
  have hdiv : (x - x / 2 ^ lo % 2 ^ (hi + 1 - lo) * 2 ^ lo) / 2 ^ lo = x / 2 ^ lo - x / 2 ^ lo % 2 ^ (hi + 1 - lo) := by
    rw [Nat.mul_comm, Nat.sub_mul_div_of_le]
    rwa [Nat.mul_comm]
  rw [Nat.add_mul_div_right _ _ (Nat.two_pow_pos lo), hdiv, Nat.add_mod, Nat.mod_mod,
    Nat.mod_eq_zero_of_dvd (Nat.dvd_sub_mod _), Nat.zero_add, Nat.mod_mod]

/-- A field below bit n does not see a cut to n bits. -/
theorem field_mod {n hi : Nat} (h : hi < n) (x lo : Nat) : field (x % 2 ^ n) hi lo = field x hi lo := by
  refine Nat.eq_of_testBit_eq fun i => ?_
  simp only [field, Nat.testBit_mod_two_pow, Nat.testBit_shiftRight]
  by_cases hi' : i < hi + 1 - lo
  · simp [hi', show lo + i < n by omega]
  · simp [hi']

theorem fld_withFld {n hi : Nat} (h : hi < n) (d : BitVec n) (lo v : Nat) : fld (withFld d hi lo v) hi lo = v % 2 ^ (hi + 1 - lo) := by
  rw [fld, withFld, BitVec.toNat_ofNat, field_mod h, field_withField]

/-! ## Operations that issue -/

theorem State.markIssued_ops (s : State) (o : Op) : (s.markIssued o).ops = s.ops := by
  unfold markIssued
  split <;> rfl

theorem Op.is_ref (o : Op) : o.is o.ref = true := by simp [Op.is, Op.ref]

/-- A change of one operation shows wherever its reference stands. -/
theorem State.mem_ops_modOp {s : State} {r : OpRef} {z : Op} (hz : z ∈ s.ops) (hr : z.ref = r) (g : Op → Op) :
    g z ∈ (s.modOp r g).ops :=
  List.mem_map.mpr ⟨z, hz, if_pos (hr ▸ z.is_ref)⟩

theorem State.mem_ops_putOp {s : State} {z o : Op} (hz : z ∈ s.ops) (hr : z.ref = o.ref) : o ∈ (s.putOp o).ops :=
  mem_ops_modOp hz hr fun _ => o

end Sys2Proof.Machine

namespace Sys2Proof.Laws

open Sys2Proof.Machine Sys2Proof.Safety

section
variable {s b : State} {q : QueueId} {d : Desc} {o : Op}

/-- An operation that issues is in flight. -/
theorem Issues_inflight (h : Issues s q d o b) : o.stage = .inflight := by
  cases h with
  | direct _ => rfl
  | waited _ _ => rfl

/-- An operation that issues stands among the outstanding ones. -/
theorem Issues_mem (h : Issues s q d o b) : o ∈ b.ops := by
  cases h with
  | direct _ => rw [State.markIssued_ops]; exact List.mem_append_right _ (List.mem_singleton_self _)
  | waited o h =>
    rw [State.markIssued_ops]
    exact State.mem_ops_modOp (List.mem_of_find?_eq_some h.first) rfl fun _ => issued s o

end

/-- The second state has of the first all but outstanding operations and references, the contents of the tenon cache, counters, and of
one tenon engine what does not join: what a tenon operation touches before it has its results, but for the skip mask. -/
structure Runs (core : Nat) (s t : State) : Prop where
  rest : t = { s with fns := t.fns, dir := t.dir, ctxs := t.ctxs, ops := t.ops, tes := t.tes, regs := t.regs, fresh := t.fresh }
  seeds : ∀ f, (t.fn f).seed = (s.fn f).seed
  others : ∀ k, k ≠ core → t.te k = s.te k
  unjoined : (t.te core).unjoined = (s.te core).unjoined
  joined : (t.te core).joined = (s.te core).joined

/-- The outstanding operations and the contexts stay too: what the gather and the engine's own state touch. -/
structure Gathers (core : Nat) (s t : State) : Prop extends Runs core s t where
  ops : t.ops = s.ops
  ctxs : t.ctxs = s.ctxs

namespace Runs

variable {core : Nat} {s t u : State}

theorem refl (s : State) : Runs core s s := ⟨rfl, fun _ => rfl, fun _ _ => rfl, rfl, rfl⟩

theorem trans (h1 : Runs core s t) (h2 : Runs core t u) : Runs core s u where
  rest := h2.rest.trans (congrArg (fun x : State =>
    { x with fns := u.fns, dir := u.dir, ctxs := u.ctxs, ops := u.ops, tes := u.tes, regs := u.regs, fresh := u.fresh }) h1.rest)
  seeds f := (h2.seeds f).trans (h1.seeds f)
  others k hk := (h2.others k hk).trans (h1.others k hk)
  unjoined := h2.unjoined.trans h1.unjoined
  joined := h2.joined.trans h1.joined

theorem mem (h : Runs core s t) : t.mem = s.mem := by rw [h.rest]
theorem queues (h : Runs core s t) : t.queues = s.queues := by rw [h.rest]
theorem mes (h : Runs core s t) : t.mes = s.mes := by rw [h.rest]

theorem setCtxs (s : State) (cs : SMap (BitVec 1024)) : Runs core s { s with ctxs := cs } :=
  ⟨rfl, fun _ => rfl, fun _ _ => rfl, rfl, rfl⟩
theorem setOps (s : State) (os : List Op) : Runs core s { s with ops := os } := ⟨rfl, fun _ => rfl, fun _ _ => rfl, rfl, rfl⟩
theorem refCtx (s : State) (c : Nat) : Runs core s (s.refCtx c) := setCtxs ..
theorem modOp (s : State) (r : OpRef) (g : Op → Op) : Runs core s (s.modOp r g) := setOps ..
theorem putOp (s : State) (o : Op) : Runs core s (s.putOp o) := modOp ..

theorem refCtxs (s : State) (cs : List Nat) : Runs core s (cs.foldl State.refCtx s) :=
  List.foldlRecOn cs State.refCtx (refl s) fun t ht c _ => ht.trans (refCtx t c)

end Runs

namespace Gathers

variable {core : Nat} {s t u : State}

theorem refl (s : State) : Gathers core s s := ⟨.refl s, rfl, rfl⟩

theorem trans (h1 : Gathers core s t) (h2 : Gathers core t u) : Gathers core s u where
  toRuns := h1.toRuns.trans h2.toRuns
  ops := h2.ops.trans h1.ops
  ctxs := h2.ctxs.trans h1.ctxs

theorem ite {c : Prop} [Decidable c] (ht : Gathers core s t) (hu : Gathers core s u) : Gathers core s (if c then t else u) := by
  split
  · exact ht
  · exact hu

theorem foldl {α : Type} (step : State → α → State) (xs : List α) (s : State) (h : ∀ s x, Gathers core s (step s x)) :
    Gathers core s (xs.foldl step s) :=
  List.foldlRecOn xs step (refl s) fun t ht x _ => ht.trans (h t x)

/-! ## The operations -/

theorem setPage (s : State) (p : Nat) (x : BitVec 64) : Gathers core s (s.setPage p x) :=
  ⟨⟨rfl, fun _ => rfl, fun _ _ => rfl, rfl, rfl⟩, rfl, rfl⟩
theorem draw (s : State) : Gathers core s s.draw.2 := ⟨⟨rfl, fun _ => rfl, fun _ _ => rfl, rfl, rfl⟩, rfl, rfl⟩
theorem count (s : State) (off n : Nat) : Gathers core s (s.count off n) := ⟨⟨rfl, fun _ => rfl, fun _ _ => rfl, rfl, rfl⟩, rfl, rfl⟩
theorem wait (s : State) (off : Nat) : Gathers core s (s.wait off) := (draw s).trans (count ..)

theorem modFn (s : State) (f : FnId) {g : Fn → Fn} (h : (g (s.fn f)).seed = (s.fn f).seed) : Gathers core s (s.modFn f g) where
  rest := rfl
  seeds k := by
    by_cases hk : f = k
    · subst hk; rw [State.modFn, State.fn_setFn, h]
    · rw [State.modFn, State.fn_setFn_ne _ _ _ _ hk]
  others _ _ := rfl
  unjoined := rfl
  joined := rfl
  ops := rfl
  ctxs := rfl

theorem setTe (s : State) {x : Te} (hu : x.unjoined = (s.te core).unjoined) (hj : x.joined = (s.te core).joined) :
    Gathers core s (s.setTe core x) where
  rest := rfl
  seeds _ := rfl
  others k hk := State.te_setTe_ne _ _ _ _ (Ne.symm hk)
  unjoined := by rw [State.te_setTe, hu]
  joined := by rw [State.te_setTe, hj]
  ops := rfl
  ctxs := rfl

theorem setBanks (s : State) (ok : List Group) : Gathers core s (s.setBanks core ok) := by
  unfold State.setBanks
  dsimp only
  split
  · exact refl s
  · exact setTe s rfl rfl
  · exact setTe s rfl rfl

theorem refPage (s : State) (p : Nat) : Gathers core s (s.refPage p) := setPage ..

theorem installSlice (s : State) (f : FnId) (own : Option OpRef) (x : Slice) : Gathers core s (s.installSlice f own x).1 := by
  unfold State.installSlice
  extract_lets cap xs held free
  split
  · exact refl s
  · split
    · exact refl s
    · next n _ _ =>
      extract_lets gone t
      have ht : Gathers core s t := by
        simp only [t]; split
        · exact ite (refl s) (count ..)
        · exact refl s
      dsimp only
      exact ht.trans (modFn t f rfl)

theorem gatherSlice (s : State) (f : FnId) (k : Nat) (own : Option OpRef) (x : Slice) : Gathers core s (s.gatherSlice f k own x) := by
  unfold State.gatherSlice
  refine ite ((modFn s f rfl).trans (count ..)) ?_
  extract_lets t u
  have hu : Gathers core s u := (count ..).trans (by simp only [u]; split <;> exact wait ..)
  have hi : Gathers core u (u.installSlice f own x).1 := installSlice ..
  generalize u.installSlice f own x = r at hi ⊢
  split
  · exact hu.trans hi
  · exact (hu.trans hi).trans (count ..)

end Gathers

end Sys2Proof.Laws

namespace Sys2Proof.Machine

open Sys2Proof.Safety

section
variable (b : State) (o : Op) (c : CoreId)

/-! ## An operation that runs -/

/-- The pages that an operation's slices are read from, but for those in the cache (R205). -/
def State.tnPages : List Nat :=
  (((tnSlices b o c).filter (fun x => !b.sliceCached o.fn x)).flatMap (fun x => pagesOf x.addr x.bytes)).filter
    (fun p => decide (pgTier (b.page p) = 1 ∨ pgTier (b.page p) = 2))

/-- The bad groups are marked. -/
def State.tnMarked : State := b.markSkips c.val o.desc (tnSkips b o c)

/-- The slices are gathered, each page with its reference. -/
def State.tnGathered : State :=
  (b.tnPages o c).foldl State.refPage ((tnSlices b o c).foldl (fun s x => s.gatherSlice o.fn c.val (some o.ref) x) (b.tnMarked o c))

/-- The operation with all that it holds while it runs. -/
def tnOp : Op :=
  { o with
    pages := b.tnPages o c, ctxs := (tnGroups b o c).map (·.ctx), count := (tnSkips b o c).length
    holds := (tnReadRanges (b.frame (tnFrame o.desc)) o.desc (b.groups c.val o.desc) (tnGroups b o c)).map
      (fun r => (spKey c.val r.1, r.2)) }

/-- The contexts have their references too. -/
def State.tnReferred : State := ((tnGroups b o c).map (·.ctx)).foldl State.refCtx (b.tnGathered o c)

/-- Is every group a single row? -/
def State.tnSingle : Bool := (b.groups c.val o.desc).all (fun g => decide (g.rows = 1))

/-- The engine's banks are loaded and the run is counted. -/
def State.tnRunning : State :=
  let s := ((b.tnReferred o c).putOp (tnOp b o c)).setBanks c.val (tnGroups b o c)
  (if b.tnSingle o c then s.count (pageTe c.val + 0x5C) else s).draw.2

/-- What the operation joins with, of the values that stand once the bad groups are marked. -/
def State.tnJoin : TenonJoin :=
  (b.tnMarked o c).joinOf c.val (tnOp b o c) (b.frame (tnFrame o.desc)) (tnFirst b o c) (tnGroups b o c) none false

/-- The operation stands unjoined behind those of its core. -/
def State.tnJoined : State :=
  let s := b.tnRunning o c
  (s.setTe c.val { s.te c.val with unjoined := (s.te c.val).unjoined ++ [b.tnJoin o c] }).setTile c.val (b.tnSingle o c)
    ((b.tnJoin o c).contrib.map (·.2))

/-- The results are written. -/
def State.tnWritten : State :=
  (b.tnRunning o c).tenonWrite c.val (tnOp b o c) (b.frame (tnFrame o.desc)) (tnFirst b o c) (tnGroups b o c)

/-- The operation has written its results. -/
def State.tnStored : State :=
  ((b.tnWritten o c).setTile c.val (b.tnSingle o c) []).modOp o.ref (fun x => { x with stage := .stored })

end

section
variable {s b : State} {o : Op} {c : CoreId}

/-! ## What a run leaves as it is -/

/-- The skip mask is memory. -/
theorem State.tnMarked_rest : b.tnMarked o c = { b with mem := (b.tnMarked o c).mem, poison := (b.tnMarked o c).poison } := by
  unfold tnMarked markSkips
  dsimp only
  split <;> rfl

theorem State.tnGathered_gathers : Laws.Gathers c.val (b.tnMarked o c) (b.tnGathered o c) :=
  (Laws.Gathers.foldl _ _ _ fun s x => .gatherSlice s o.fn c.val (some o.ref) x).trans (.foldl _ _ _ fun s p => .refPage s p)

theorem State.tnRunning_gathers : Laws.Gathers c.val ((b.tnReferred o c).putOp (tnOp b o c)) (b.tnRunning o c) :=
  .trans (.trans (.setBanks _ (tnGroups b o c)) (.ite (.count ..) (.refl _))) (.draw _)

theorem State.tnReferred_runs : Laws.Runs c.val (b.tnMarked o c) (b.tnReferred o c) :=
  tnGathered_gathers.toRuns.trans (.refCtxs ..)

theorem State.tnRunning_runs : Laws.Runs c.val (b.tnMarked o c) (b.tnRunning o c) :=
  (tnReferred_runs.trans (.putOp ..)).trans tnRunning_gathers.toRuns

theorem State.tnRunning_mem : (b.tnRunning o c).mem = (b.tnMarked o c).mem := tnRunning_runs.mem

theorem State.tnRunning_queues : (b.tnRunning o c).queues = b.queues := by rw [tnRunning_runs.queues, tnMarked_rest]

theorem State.tnRunning_mes : (b.tnRunning o c).mes = b.mes := by rw [tnRunning_runs.mes, tnMarked_rest]

theorem State.tnRunning_seed (f : FnId) : ((b.tnRunning o c).fn f).seed = (b.fn f).seed := by
  rw [tnRunning_runs.seeds, tnMarked_rest]; rfl

theorem State.tnRunning_te_ne {k : Nat} (h : k ≠ c.val) : (b.tnRunning o c).te k = b.te k := by
  rw [tnRunning_runs.others k h, tnMarked_rest]; rfl

theorem State.tnRunning_unjoined : ((b.tnRunning o c).te c.val).unjoined = (b.te c.val).unjoined := by
  rw [tnRunning_runs.unjoined, tnMarked_rest]; rfl

theorem State.tnRunning_joined : ((b.tnRunning o c).te c.val).joined = (b.te c.val).joined := by
  rw [tnRunning_runs.joined, tnMarked_rest]; rfl

/-! ## The operation and its references -/

theorem State.foldl_refCtx_ops (cs : List Nat) (s : State) : (cs.foldl refCtx s).ops = s.ops :=
  List.foldlRecOn (motive := fun t => t.ops = s.ops) cs refCtx rfl fun _ ht _ _ => (setCtx_ops ..).trans ht

theorem State.tnReferred_ops : (b.tnReferred o c).ops = b.ops := by
  rw [tnReferred, foldl_refCtx_ops, tnGathered_gathers.ops, tnMarked_rest]

/-- The operation that runs stands with what it holds among the outstanding ones. -/
theorem State.tnOp_mem_tnRunning (h : o ∈ b.ops) : tnOp b o c ∈ (b.tnRunning o c).ops := by
  rw [tnRunning_gathers.ops]
  exact mem_ops_putOp (z := o) (by rwa [tnReferred_ops]) rfl

theorem State.refCtx_ctx_ne {k j : Nat} (h : k ≠ j) : (s.refCtx k).ctx j = s.ctx j := ctx_setCtx_ne _ _ _ _ h

/-- A context whose count has room counts one reference more. -/
theorem State.cxRefs_refCtx {k : Nat} (h : cxRefs (s.ctx k) < 65535) : cxRefs ((s.refCtx k).ctx k) = cxRefs (s.ctx k) + 1 := by
  rw [refCtx, ctx_setCtx, cxRefs, fld_withFld (by decide)]
  exact Nat.mod_eq_of_lt (Nat.succ_lt_succ h)

/-- Each context of a list without repeats gets one reference. -/
theorem State.cxRefs_foldl_refCtx {cs : List Nat} {k : Nat} (hk : k ∈ cs) (hnodup : cs.Nodup) (h : cxRefs (s.ctx k) < 65535) :
    cxRefs ((cs.foldl refCtx s).ctx k) = cxRefs (s.ctx k) + 1 :=
  foldl_meets_once (before := fun t : State => t.ctx k = s.ctx k) (after := fun t : State => cxRefs (t.ctx k) = cxRefs (s.ctx k) + 1)
    (fun _ _ hj ht => (refCtx_ctx_ne hj).trans ht) (fun t ht => by rw [cxRefs_refCtx (by rwa [ht]), ht])
    (fun _ _ hj ht => (congrArg cxRefs (refCtx_ctx_ne hj)).trans ht) hnodup hk rfl

theorem State.tnRunning_cxRefs {g : Group} (hg : g ∈ tnGroups b o c) (hnodup : ((tnGroups b o c).map (·.ctx)).Nodup)
    (h : cxRefs (b.ctx g.ctx) < 65535) : cxRefs ((b.tnRunning o c).ctx g.ctx) = cxRefs (b.ctx g.ctx) + 1 := by
  have hctx : ∀ k, (b.tnGathered o c).ctx k = b.ctx k := fun k => by rw [ctx, tnGathered_gathers.ctxs, tnMarked_rest]; rfl
  rw [ctx, tnRunning_gathers.ctxs, ← hctx]
  exact cxRefs_foldl_refCtx (List.mem_map_of_mem hg) hnodup (by rwa [hctx])

/-! ## Values (R159, R160, R174) -/

section
variable {t : State} (h : t.mem = s.mem)
include h

/-- The values of a tenon operation depend on memory alone. -/
theorem State.downRow_congr : t.downRow = s.downRow := congrArg (fun m => State.downRow { s with mem := m }) h
theorem State.downTRow_congr : t.downTRow = s.downTRow := congrArg (fun m => State.downTRow { s with mem := m }) h
theorem State.upRows_congr : t.upRows = s.upRows := congrArg (fun m => State.upRows { s with mem := m }) h
theorem State.gradBlock_congr : t.gradBlock = s.gradBlock := congrArg (fun m => State.gradBlock { s with mem := m }) h

/-- Writing depends on memory alone. -/
theorem State.writeAll_mem_congr (runs : List (Nat × List Byte)) : (t.writeAll runs).mem = (s.writeAll runs).mem := by
  induction runs generalizing s t with
  | nil => exact h
  | cons r rs ih => exact ih (congrArg (fun m => memWrite m r.1 r.2) h)

end

/-- The V row of a group holds nothing where the group has no part of the target. -/
theorem State.downTRow_eq (core : Nat) (fr : FrameState) (d : Desc) : s.downTRow core fr d = fun g q => match targetPart fr d g with
    | none => []
    | some pc => (List.range pc.1.r).map (fun col =>
      (bf16.rne (tnSat d) (val24 (teSum (exactPair d) 512 ((List.range (min pc.1.n (xElems fr d))).map (fun n =>
        (s.xElem core fr d q n).mul (s.bElem d g pc.1 col n)))))).code) := by
  funext g q
  rw [downTRow]
  cases targetPart fr d g <;> rfl

/-- Result rows of some groups at U_ADDR, row j of a group behind the first covered row by its batch row (R153). -/
def uRuns (core : Nat) (d : Desc) (f0 : Nat) (ok : List Group) (row : Group → Nat → List Nat) : List (Nat × List Byte) :=
  ok.flatMap (fun g => (List.range g.rows).map (fun j =>
    (spKey core (tnUAddr d + (g.first + j - f0) * tnUPitch d * 128), (row g (g.first + j - f0)).flatMap (leBytes 2))))

section
variable {core : Nat} {fr : FrameState} {f0 : Nat} {ok : List Group}

theorem State.tenonWrite_of_down (h : tnMode o.desc = 0) :
    s.tenonWrite core o fr f0 ok = s.writeAll (uRuns core o.desc f0 ok (s.downRow core fr o.desc)) := by
  simp only [tenonWrite, h, uRuns, List.map_map]
  rfl

theorem State.tenonWrite_of_downT (h : tnMode o.desc = 2) :
    s.tenonWrite core o fr f0 ok = s.writeAll (uRuns core o.desc f0 ok (s.downTRow core fr o.desc)) := by
  simp only [tenonWrite, h, uRuns, List.map_map]
  rfl

theorem State.tenonWrite_of_wgrad (h : 4 ≤ tnMode o.desc) :
    s.tenonWrite core o fr f0 ok = s.write (spKey core (tnDstAddr o.desc)) (ok.flatMap (fun g =>
      (s.gradBlock core fr o.desc (s.fn o.fn).seed.toNat f0 g).flatMap
        (fun r => r.flatMap (leBytes (if tnWFmt o.desc = 1 then 2 else 1))))) := by
  rw [← List.flatMap_assoc]
  dsimp only [tenonWrite]
  split
  · next h0 => omega
  · next h2 => omega
  · rfl

/-- Writing touches memory alone. -/
theorem State.writeAll_rest (runs : List (Nat × List Byte)) (s : State) :
    s.writeAll runs = { s with mem := (s.writeAll runs).mem, poison := (s.writeAll runs).poison } := by
  induction runs generalizing s with
  | nil => rfl
  | cons r rs ih => exact ih (s.write r.1 r.2)

theorem State.tenonWrite_rest : s.tenonWrite core o fr f0 ok
    = { s with mem := (s.tenonWrite core o fr f0 ok).mem, poison := (s.tenonWrite core o fr f0 ok).poison } := by
  dsimp only [tenonWrite]
  split
  · exact writeAll_rest ..
  · exact writeAll_rest ..
  · rfl

end

/-! ## What a run comes to -/

/-- DOWN writes its packed rows, of the values that stand once the bad groups are marked. -/
theorem State.tnWritten_mem_of_down (h : tnMode o.desc = 0) : (b.tnWritten o c).mem
    = ((b.tnMarked o c).writeAll (uRuns c.val o.desc (tnFirst b o c) (tnGroups b o c)
        ((b.tnMarked o c).downRow c.val (b.frame (tnFrame o.desc)) o.desc))).mem := by
  rw [tnWritten, tenonWrite_of_down (o := tnOp b o c) h, downRow_congr tnRunning_mem]
  exact writeAll_mem_congr tnRunning_mem _

theorem State.tnWritten_mem_of_downT (h : tnMode o.desc = 2) : (b.tnWritten o c).mem
    = ((b.tnMarked o c).writeAll (uRuns c.val o.desc (tnFirst b o c) (tnGroups b o c)
        ((b.tnMarked o c).downTRow c.val (b.frame (tnFrame o.desc)) o.desc))).mem := by
  rw [tnWritten, tenonWrite_of_downT (o := tnOp b o c) h, downTRow_congr tnRunning_mem]
  exact writeAll_mem_congr tnRunning_mem _

/-- The gradients are drawn with the seed of the function as it stood at issue. -/
theorem State.tnWritten_mem_of_wgrad (h : 4 ≤ tnMode o.desc) : (b.tnWritten o c).mem
    = ((b.tnMarked o c).write (spKey c.val (tnDstAddr o.desc)) ((tnGroups b o c).flatMap (fun g =>
        ((b.tnMarked o c).gradBlock c.val (b.frame (tnFrame o.desc)) o.desc (b.fn o.fn).seed.toNat (tnFirst b o c) g).flatMap
          (fun r => r.flatMap (leBytes (if tnWFmt o.desc = 1 then 2 else 1)))))).mem := by
  rw [tnWritten, tenonWrite_of_wgrad (o := tnOp b o c) h, gradBlock_congr tnRunning_mem]
  rw [show ((b.tnRunning o c).fn (tnOp b o c).fn).seed = (b.fn o.fn).seed from tnRunning_seed o.fn]
  exact congrArg (fun m => memWrite m _ _) tnRunning_mem

/-- Writing the results touches memory alone. -/
theorem State.tnWritten_rest : b.tnWritten o c
    = { b.tnRunning o c with mem := (b.tnWritten o c).mem, poison := (b.tnWritten o c).poison } :=
  tenonWrite_rest

theorem State.tnStored_queues : (b.tnStored o c).queues = b.queues := by
  rw [tnStored, modOp, setTile, setTe_queues, tnWritten_rest, tnRunning_queues]

theorem State.tnStored_ctx (k : Nat) : (b.tnStored o c).ctx k = (b.tnRunning o c).ctx k := by
  rw [ctx, tnStored, modOp, setTile, setTe_ctxs, tnWritten_rest, ctx]

/-- The operation stands stored among the outstanding ones. -/
theorem State.tnOp_mem_tnStored (h : o ∈ b.ops) : { tnOp b o c with stage := .stored } ∈ (b.tnStored o c).ops := by
  refine mem_ops_modOp (z := tnOp b o c) ?_ rfl fun x => { x with stage := .stored }
  rw [setTile, setTe_ops, tnWritten_rest]
  exact tnOp_mem_tnRunning h

theorem State.tnRunning_join : (b.tnRunning o c).joinOf c.val (tnOp b o c) (b.frame (tnFrame o.desc)) (tnFirst b o c) (tnGroups b o c)
    none false = b.tnJoin o c := by
  rw [tnJoin, joinOf, joinOf, upRows_congr tnRunning_mem]

/-- A run without an error joins or stores. -/
theorem State.tenonRun_of_no_error : b.tenonRun c o (b.groups c.val o.desc) (tnGroups b o c) .none
    = if tnMode o.desc = 1 ∨ tnMode o.desc = 3 then b.tnJoined o c else b.tnStored o c := by
  simp only [tenonRun, reduceCtorEq, false_and, or_self, decide_false, if_false, Bool.false_eq_true, decide_eq_true_eq]
  rw [tnJoined, ← tnRunning_join]
  rfl

theorem State.tnJoined_mem : (b.tnJoined o c).mem = (b.tnMarked o c).mem := by
  rw [tnJoined, setTile, setTe_mem, setTe_mem, tnRunning_mem]

theorem State.tnJoined_queues : (b.tnJoined o c).queues = b.queues := by
  rw [tnJoined, setTile, setTe_queues, setTe_queues, tnRunning_queues]

theorem State.tnJoined_me (k : Nat) : (b.tnJoined o c).me k = b.me k :=
  me_congr (by rw [tnJoined, setTile, setTe_mes, setTe_mes, tnRunning_mes]) k

theorem State.tnOp_mem_tnJoined (h : o ∈ b.ops) : tnOp b o c ∈ (b.tnJoined o c).ops := by
  rw [tnJoined, setTile, setTe_ops, setTe_ops]
  exact tnOp_mem_tnRunning h

theorem State.tnJoined_unjoined : ((b.tnJoined o c).te c.val).unjoined = (b.te c.val).unjoined ++ [b.tnJoin o c] := by
  rw [tnJoined, setTile, te_setTe, te_setTe, tnRunning_unjoined]

theorem State.tnJoined_joined : ((b.tnJoined o c).te c.val).joined = (b.te c.val).joined := by
  rw [tnJoined, setTile, te_setTe, te_setTe, tnRunning_joined]

theorem State.tnJoined_te_ne {k : Nat} (h : k ≠ c.val) : (b.tnJoined o c).te k = b.te k := by
  rw [tnJoined, setTile, te_setTe_ne _ _ _ _ (Ne.symm h), te_setTe_ne _ _ _ _ (Ne.symm h), tnRunning_te_ne h]

end

end Sys2Proof.Machine

namespace Sys2Proof.Laws

open Sys2Proof.Machine Sys2Proof.Safety

section
variable {s b : State} {i : Sys2Proof.Instr} {q : QueueId} {o : Op} {c : CoreId} {sel : Bool}

/-- A ready tenon operation without an error runs on its groups. -/
theorem exec_tenon_of_ready (h : Issues s q o.desc o b) (ht : TenonReady b o c) (hexec : exec i s = .next (s.tenonIssue i .none))
    (hi : carried i = some (q, o.desc, 2, 0, sel)) (hsel : sel = true) :
    exec i s = .next (if tnMode o.desc = 1 ∨ tnMode o.desc = 3 then b.tnJoined o c else b.tnStored o c) := by
  have hissue := issueOnCore_of h ht.toOnCore hi ht.cls ht.op hsel
  refine hexec.trans (congrArg Host.Outcome.next ((hissue _).trans ?_))
  exact (if_neg (not_not_intro ht.checks)).trans <| (if_neg (not_not_intro ht.gather)).trans <|
    (if_neg (ne_true_of_eq_false ht.pages)).trans <| (if_neg (ne_true_of_eq_false ht.slots)).trans <|
    (if_neg (ne_true_of_eq_false ht.decided)).trans State.tenonRun_of_no_error

/-- An operation of a mode that does not join stands stored, with its count of skipped groups. -/
theorem exec_tenon_stores (h : Issues s q o.desc o b) (ht : TenonReady b o c) (hexec : exec i s = .next (s.tenonIssue i .none))
    (hi : carried i = some (q, o.desc, 2, 0, sel)) (hsel : sel = true) (hmode : ¬ (tnMode o.desc = 1 ∨ tnMode o.desc = 3))
    {mem : List Host.Cell} (hmem : (b.tnWritten o c).mem = mem) :
    ∃ t, exec i s = .next t ∧ t.mem = mem ∧ t.queues = b.queues
      ∧ ∃ z ∈ t.ops, z.ref = o.ref ∧ z.stage = .stored ∧ z.count = (tnSkips b o c).length :=
  ⟨b.tnStored o c, (exec_tenon_of_ready h ht hexec hi hsel).trans (by rw [if_neg hmode]), hmem, State.tnStored_queues,
    _, State.tnOp_mem_tnStored (Issues_mem h), rfl, rfl, rfl⟩

end

/-- Settles O8: an operation that runs joins with values of memory, and takes one reference of each context; a timeout is a failure. -/
theorem tenonJoins : Obligations.TenonJoins := by
  refine ⟨fun s b q d o c h ht => ?joins, fun s b t q d o c h ht hmode hexec hnodup g hg hroom => ?refs,
    fun s q opId o c hfind hcore hj => ?timeout⟩
  case joins =>
    obtain rfl : o.desc = d := (Issues_desc h).1
    intro m join joins
    have hjoins : ∀ i sel, exec i s = .next (s.tenonIssue i .none) → carried i = some (q, o.desc, 2, 0, sel) → sel = true →
        tnMode o.desc = 1 ∨ tnMode o.desc = 3 → joins i := fun i sel hexec hi hsel hmode =>
      ⟨b.tnJoined o c, (exec_tenon_of_ready h ht hexec hi hsel).trans (by rw [if_pos hmode]), State.tnJoined_mem, State.tnJoined_queues,
        State.tnJoined_unjoined, State.tnJoined_joined, fun k hk => State.tnJoined_te_ne hk, State.tnJoined_me,
        tnOp b o c, State.tnOp_mem_tnJoined (Issues_mem h), rfl, Issues_inflight (o := o) h⟩
    exact ⟨fun hup => hjoins _ _ rfl rfl (decide_eq_true hup) (.inl hup),
      fun hupT => hjoins _ _ rfl rfl (decide_eq_true hupT) (.inr hupT)⟩
  case refs =>
    obtain rfl : o.desc = d := (Issues_desc h).1
    have ht' : t = b.tnStored o c := by
      rw [exec_tenon_of_ready h ht rfl rfl (by simp [hmode]), if_neg (by simp [hmode])] at hexec
      exact (Host.Outcome.next.inj hexec).symm
    rw [ht', State.tnStored_ctx]
    exact State.tnRunning_cxRefs hg hnodup hroom
  case timeout =>
    have hany : ((s.te c.val).unjoined.any (fun j => decide (j.op = o.ref))) = true := by simpa using hj
    simp only [exec, execJoinTimeout, hfind, hcore, hany, if_true]

/-- Settles O7: the mode's write, of values of memory once the bad groups are marked. -/
theorem tenonResults : Obligations.TenonResults := by
  refine ⟨fun s b q d o c h ht => ?rows, fun s b q d o c h ht => ?blocks⟩
  case rows =>
    obtain rfl : o.desc = d := (Issues_desc h).1
    intro fr m row ends
    refine ⟨fun hmode => ?down, fun hmode => ?downT⟩
    case down => exact exec_tenon_stores h ht rfl rfl (by simp [hmode]) (by simp [hmode]) (State.tnWritten_mem_of_down hmode)
    case downT =>
      refine exec_tenon_stores h ht rfl rfl (by simp [hmode]) (by simp [hmode]) ((State.tnWritten_mem_of_downT hmode).trans ?_)
      rw [State.downTRow_eq]
      rfl
  case blocks =>
    obtain rfl : o.desc = d := (Issues_desc h).1
    intro fr m block ends
    have hends : ∀ i sel, exec i s = .next (s.tenonIssue i .none) → carried i = some (q, o.desc, 2, 0, sel) → sel = true →
        4 ≤ tnMode o.desc → ends i := fun i sel hexec hi hsel hmode => by
      obtain ⟨t, ht, hmem, hqueues, z, hz, href, hstored, -⟩ :=
        exec_tenon_stores h ht hexec hi hsel (by omega) (State.tnWritten_mem_of_wgrad hmode)
      refine ⟨t, ht, hmem.trans ?_, hqueues, z, hz, href, hstored⟩
      refine congrArg (fun bytes => (m.write _ ((tnGroups b o c).flatMap bytes)).mem) (funext fun g => ?_)
      rw [State.gradBlock]
      cases targetPart (b.frame (tnFrame o.desc)) o.desc g with
      | none => rfl
      | some pc => simp only [List.flatMap_map]; rfl
    exact ⟨fun ha => hends _ _ rfl rfl (decide_eq_true ha) (by omega), fun hb => hends _ _ rfl rfl (decide_eq_true hb) (by omega)⟩

end Sys2Proof.Laws

/-! # Frames, mortise ranges, apertures and the extension (R170, R223, R224, R242, R497, R498) -/

namespace Sys2Proof.Machine

/-- A context bound to the frame by the function becomes stale where it is configured, active or in training. -/
def staleBy (f : FnId) (id : Nat) (c : Nat × BitVec 1024) : Nat × BitVec 1024 :=
  if cxFrame c.2 = id ∧ cxOwner c.2 = f.val ∧ cxState c.2 ∈ [1, 2, 3] then (c.1, withFld c.2 34 32 4) else c

/-- The state in which a function is bound to a frame no more (R170). -/
def State.unbound (s : State) (f : FnId) (id : Nat) : State :=
  { s.modFn f (fun x => { x with frames := x.frames.filter (· ≠ id), serving := x.serving.filter (· ≠ id) }) with
    ctxs := s.ctxs.map (staleBy f id) }

end Sys2Proof.Machine

namespace Sys2Proof.Laws

open Sys2Proof.Machine Sys2Proof.Safety

section
variable {s b : State} {q : QueueId} {d : Desc} {o : Op}

/-- A command that shares its operation code issues where its selecting bit stands as it should. -/
theorem control_issue_sel {i : Sys2Proof.Instr} {code : Nat} {sel : Bool} (h : Control s q d code o b)
    (hi : carried i = some (q, d, 6, code, sel)) (hsel : sel = true) (k : Op → State → State) : s.issue i k = k o b :=
  issue_of h.issues hi h.cls h.op hsel k

theorem exec_bindFrame_of_control (h : Control s q d 0x57 o b) (hflag : flag d 144 = false) :
    exec (.bindFrame q d) s = .next (
      if (b.frame (bfFrame d)).defined = false then b.faultOp o 0x5A
      else if bfFrame d ∉ (b.fn (ctFn d)).frames ∧ 8 ≤ (b.fn (ctFn d)).frames.length then b.faultOp o 0x91
      else (b.setFn (ctFn d) { b.fn (ctFn d) with
        frames := if bfFrame d ∈ (b.fn (ctFn d)).frames then (b.fn (ctFn d)).frames else (b.fn (ctFn d)).frames ++ [bfFrame d]
        serving := if flag d 145 then some (bfFrame d) else (b.fn (ctFn d)).serving }).done o) := by
  refine (congrArg Host.Outcome.next (control_issue_sel h rfl (by rw [hflag]; rfl) _)).trans ?_
  simp only [Bool.not_eq_true', List.contains_eq_mem, decide_eq_false_iff_not, decide_eq_true_eq, State.modFn]

theorem exec_unbind_of_control (h : Control s q d 0x57 o b) (hflag : flag d 144 = true) :
    exec (.unbind q d) s = .next (
      if bfFrame d ∉ (b.fn (ctFn d)).frames then b.faultOp o 0x5A else (b.unbound (ctFn d) (bfFrame d)).done o) := by
  refine (congrArg Host.Outcome.next (control_issue_sel h rfl hflag _)).trans ?_
  simp only [Bool.not_eq_true', List.contains_eq_mem, decide_eq_false_iff_not]
  rfl

theorem exec_setMortiseRange_of_control (h : Control s q d 0x58 o b) :
    exec (.setMortiseRange q d) s = .next (
      if 64 < mrCount d ∨ 64 < mrBase d + mrCount d then b.faultOp o 0xC0
      else if b.mortiseMeets (ctFn d) (bfFrame d) (mrBase d) (mrCount d) then b.refuseOpen o
      else (b.setFn (ctFn d) { b.fn (ctFn d) with
        mortises := SMap.put (0, 0) (b.fn (ctFn d)).mortises (bfFrame d) (mrBase d, mrCount d) }).done o) :=
  congrArg Host.Outcome.next (control_issue h rfl _)

theorem exec_setAperture_of_control (h : Control s q d 0x59 o b) (hflag : flag d 180 = false) :
    exec (.setAperture q d) s = .next (
      if b.apertureCause (ctFn d) d ≠ 0 then b.faultOp o (b.apertureCause (ctFn d) d)
      else (b.setFn (ctFn d) { b.fn (ctFn d) with
        apertures := SMap.put Aperture.reset (b.fn (ctFn d)).apertures (saIndex d) (apertureOf d) }).done o) :=
  congrArg Host.Outcome.next (control_issue_sel h rfl (by rw [hflag]; rfl) _)

theorem exec_extension_of_control (h : Control s q d 0x59 o b) (hflag : flag d 180 = true) :
    exec (.extension q d) s = .next (
      if region (ctAddr d) ≠ .companion then b.faultOp o 0xC0
      else if aperturesBad (b.apertures.map (fun y => y.2.2)) (some (ctAddr d - 2 ^ 43)) then b.faultOp o 0x9C
      else { b with extension := some (ctAddr d - 2 ^ 43) }.done o) :=
  congrArg Host.Outcome.next (control_issue_sel h rfl hflag _)

end

/-- Settles O40: each command comes to its own effect by the outcome of its checks. -/
theorem functionSettings : Obligations.FunctionSettings := by
  intro s b q d o f x id
  refine ⟨fun h hflag => ?bind, fun h hflag => ?unbind, fun h => ?range, fun h hflag => ?aperture, fun h hflag hregion => ?extension⟩
  case bind =>
    have hexec := exec_bindFrame_of_control h hflag
    have hdefined (hdef : (b.frame id).defined = true) : ¬(b.frame id).defined = false := by simp [hdef]
    refine ⟨fun hundef => ?undefined, fun hdef hnew hfull => ?full, fun hdef hroom => ?bound⟩
    case undefined => exact hexec.trans (congrArg _ (if_pos hundef))
    case full => exact hexec.trans (congrArg _ ((if_neg (hdefined hdef)).trans (if_pos ⟨hnew, hfull⟩)))
    case bound =>
      have hfits : ¬(id ∉ x.frames ∧ 8 ≤ x.frames.length) := fun ⟨hnew, hfull⟩ => hroom.elim hnew (Nat.not_lt.mpr hfull)
      exact hexec.trans (congrArg _ ((if_neg (hdefined hdef)).trans (if_neg hfits)))
  case unbind =>
    have hexec := exec_unbind_of_control h hflag
    refine ⟨fun hno => hexec.trans (congrArg _ (if_pos hno)), fun hbound => ⟨b.unbound f id,
      hexec.trans (congrArg _ (if_neg (not_not_intro hbound))), State.fn_setFn .., fun c v hc hframe howner hstate => ?stale,
      fun c v hc hother => ?kept, rfl, rfl⟩⟩
    case stale => exact List.mem_map.mpr ⟨(c, v), hc, if_pos ⟨hframe, howner, hstate⟩⟩
    case kept =>
      refine List.mem_map.mpr ⟨(c, v), hc, if_neg fun ⟨hframe, howner, hstate⟩ => ?_⟩
      exact hother.elim (· hframe) (Or.elim · (· howner) (· hstate))
  case range =>
    have hexec := exec_setMortiseRange_of_control h
    refine ⟨fun hbeyond => hexec.trans (congrArg _ (if_pos hbeyond)), fun hfits hfree => ?_⟩
    have hwithin : ¬(64 < mrCount d ∨ 64 < mrBase d + mrCount d) := by
      have : mrBase d + mrCount d ≤ 64 := hfits
      omega
    exact hexec.trans (congrArg _ ((if_neg hwithin).trans (if_neg (Bool.eq_false_iff.mp hfree))))
  case aperture =>
    have hexec := exec_setAperture_of_control h hflag
    exact ⟨fun hcause => hexec.trans (congrArg _ (if_pos hcause)),
      fun hfine => hexec.trans (congrArg _ (if_neg (not_not_intro hfine))), rfl⟩
  case extension =>
    have hexec := exec_extension_of_control h hflag
    rw [if_neg (not_not_intro hregion)] at hexec
    exact ⟨fun hbad => hexec.trans (congrArg _ (if_pos hbad)),
      fun hfine => hexec.trans (congrArg _ (if_neg (Bool.eq_false_iff.mp hfine)))⟩

end Sys2Proof.Laws

/-! # The watch table (R177 to R179, R188, R190, R192, R193) -/

namespace Sys2Proof.Machine

/-! ## Fields that a change leaves -/

theorem field_mul_two_pow_le (x hi lo : Nat) : field x hi lo * 2 ^ lo ≤ x := by
  rw [field, Nat.shiftRight_eq_div_pow]
  exact Nat.le_trans (Nat.mul_le_mul_right _ (Nat.mod_le ..)) (Nat.div_mul_le_self ..)

/-- Replacing a field replaces the low bits of what starts at its low end. -/
theorem withField_div_two_pow (x hi lo v : Nat) :
    withField x hi lo v / 2 ^ lo = x / 2 ^ lo - x / 2 ^ lo % 2 ^ (hi + 1 - lo) + v % 2 ^ (hi + 1 - lo) := by
  have hle := field_mul_two_pow_le x hi lo
  rw [Nat.mul_comm] at hle
  rw [withField, Nat.add_mul_div_right _ _ (Nat.two_pow_pos lo), Nat.mul_comm, Nat.sub_mul_div_of_le _ _ _ hle, field,
    Nat.shiftRight_eq_div_pow]

/-- The bits below a replaced field stay. -/
theorem withField_mod_two_pow (x hi lo v : Nat) : withField x hi lo v % 2 ^ lo = x % 2 ^ lo := by
  rw [withField, Nat.add_mul_mod_self_right]
  conv => rhs; rw [← Nat.sub_add_cancel (field_mul_two_pow_le x hi lo), Nat.add_mul_mod_self_right]

/-- The bits above a replaced field stay. -/
theorem withField_div_above (x hi lo v : Nat) (h : lo ≤ hi + 1) : withField x hi lo v / 2 ^ (hi + 1) = x / 2 ^ (hi + 1) := by
  have hpow : 2 ^ (hi + 1) = 2 ^ lo * 2 ^ (hi + 1 - lo) := by rw [← Nat.pow_add, Nat.add_sub_cancel' h]
  have hpos := Nat.two_pow_pos (hi + 1 - lo)
  rw [hpow, ← Nat.div_div_eq_div_mul, ← Nat.div_div_eq_div_mul, withField_div_two_pow]
  have hq := Nat.div_add_mod (x / 2 ^ lo) (2 ^ (hi + 1 - lo))
  rw [show x / 2 ^ lo - x / 2 ^ lo % 2 ^ (hi + 1 - lo) = 2 ^ (hi + 1 - lo) * (x / 2 ^ lo / 2 ^ (hi + 1 - lo)) by omega,
    Nat.mul_add_div hpos, Nat.div_eq_of_lt (Nat.mod_lt _ hpos), Nat.add_zero]

theorem field_withField_of_disjoint {hi lo hi' lo' : Nat} (h : hi < lo' ∨ hi' < lo) (hlo : lo ≤ hi + 1) (x v : Nat) :
    field (withField x hi lo v) hi' lo' = field x hi' lo' := by
  rcases h with h | h
  · have above (y : Nat) : y >>> lo' = y / 2 ^ (hi + 1) / 2 ^ (lo' - (hi + 1)) := by
      rw [Nat.shiftRight_eq_div_pow, Nat.div_div_eq_div_mul, ← Nat.pow_add, Nat.add_sub_cancel' h]
    simp only [field, above, withField_div_above x hi lo v hlo]
  · rw [← field_mod h, withField_mod_two_pow, field_mod h]

theorem fld_withFld_of_disjoint {n hi lo hi' lo' : Nat} (hn : hi' < n) (h : hi < lo' ∨ hi' < lo) (hlo : lo ≤ hi + 1) (d : BitVec n)
    (v : Nat) : fld (withFld d hi lo v) hi' lo' = fld d hi' lo' := by
  rw [fld, withFld, BitVec.toNat_ofNat, field_mod hn, field_withField_of_disjoint h hlo, fld]

theorem fld_lt {n : Nat} (d : BitVec n) (hi lo : Nat) : fld d hi lo < 2 ^ (hi + 1 - lo) := Nat.mod_lt _ (Nat.two_pow_pos _)

/-- A field set to a value that fits reads as that value. -/
theorem fld_withFld_of_lt {n hi lo v : Nat} (hn : hi < n) (hv : v < 2 ^ (hi + 1 - lo)) (d : BitVec n) :
    fld (withFld d hi lo v) hi lo = v := by
  rw [fld_withFld hn, Nat.mod_eq_of_lt hv]

theorem fld_withFld_fld {n hi lo : Nat} (hn : hi < n) (d e : BitVec n) : fld (withFld d hi lo (fld e hi lo)) hi lo = fld e hi lo :=
  fld_withFld_of_lt hn (fld_lt ..) d

/-- A field is the part of it below a bit and the part from that bit on. -/
theorem fld_split {n : Nat} (d : BitVec n) {hi mid lo : Nat} (h : lo ≤ mid) (h' : mid ≤ hi) :
    fld d hi lo = fld d mid lo + 2 ^ (mid + 1 - lo) * fld d hi (mid + 1) := by
  simp only [fld, field, Nat.shiftRight_eq_div_pow]
  rw [show hi + 1 - lo = (mid + 1 - lo) + (hi + 1 - (mid + 1)) by omega, Nat.pow_add, Nat.mod_mul, Nat.div_div_eq_div_mul, ← Nat.pow_add,
    show lo + (mid + 1 - lo) = mid + 1 by omega]

/-! ## Numbers in memory -/

theorem length_leBytes (n v : Nat) : (leBytes n v).length = n := by
  induction n generalizing v with
  | zero => rfl
  | succ n ih => rw [leBytes, List.length_cons, ih]

theorem ofBytes_leBytes (n v : Nat) : ofBytes (leBytes n v) = v % 2 ^ (8 * n) := by
  induction n generalizing v with
  | zero => exact (Nat.mod_one v).symm
  | succ n ih => rw [leBytes, ofBytes, ih, BitVec.toNat_ofNat, Nat.mul_succ, Nat.add_comm (8 * n), Nat.pow_add, Nat.mod_mul (a := 2 ^ 8)]

theorem ofBytes_leBytes_toNat {w n : Nat} (h : w = 8 * n) (e : BitVec w) : ofBytes (leBytes n e.toNat) = e.toNat := by
  subst h
  rw [ofBytes_leBytes, Nat.mod_eq_of_lt e.isLt]

theorem memWrite_append (m : List Host.Cell) (a : Nat) (xs ys : List Byte) :
    memWrite m a (xs ++ ys) = memWrite (memWrite m a xs) (a + xs.length) ys := by
  induction xs generalizing m a with
  | nil => rfl
  | cons x xs ih => rw [List.cons_append, memWrite, ih, memWrite, List.length_cons, Nat.add_right_comm, Nat.add_assoc]

theorem memBytes_write_same (m : List Host.Cell) (a : Nat) (bs : List Byte) : memBytes (memWrite m a bs) a bs.length = bs := by
  refine List.ext_getElem (by rw [memBytes, List.length_map, List.length_range]) fun i h1 h2 => ?_
  simp only [memBytes, List.getElem_map, List.getElem_range]
  exact memByte_write_in m a bs i h2

theorem memBytes_write_out (m : List Host.Cell) {a b n : Nat} (bs : List Byte) (h : b + n ≤ a ∨ a + bs.length ≤ b) :
    memBytes (memWrite m a bs) b n = memBytes m b n :=
  List.map_congr_left fun i hi => memByte_write_out m a bs _ (by have := List.mem_range.mp hi; omega)

/-- Copies of one run of bytes, one behind another, each read as that run. -/
theorem memBytes_write_replicate {i n : Nat} (h : i < n) (m : List Host.Cell) (a : Nat) (bs : List Byte) :
    memBytes (memWrite m a (List.replicate n bs).flatten) (a + bs.length * i) bs.length = bs := by
  induction i generalizing n m a with
  | zero =>
    obtain ⟨n, rfl⟩ := Nat.exists_eq_succ_of_ne_zero (Nat.ne_zero_of_lt h)
    rw [List.replicate_succ, List.flatten_cons, memWrite_append, Nat.mul_zero, Nat.add_zero, memBytes_write_out _ _ (.inl (Nat.le_refl _)),
      memBytes_write_same]
  | succ i ih =>
    obtain ⟨n, rfl⟩ := Nat.exists_eq_succ_of_ne_zero (Nat.ne_zero_of_lt h)
    rw [List.replicate_succ, List.flatten_cons, memWrite_append, Nat.mul_succ, Nat.add_comm (bs.length * i), ← Nat.add_assoc]
    exact ih (Nat.lt_of_succ_lt_succ h) ..

/-! ## Watch entries in memory -/

theorem State.watchRead_watchWrite (s : State) (a : Nat) (e : BitVec 1024) : (s.watchWrite a e).watchRead a = e := by
  have h := memBytes_write_same s.mem a (leBytes 128 e.toNat)
  rw [length_leBytes] at h
  rw [watchRead, watchWrite, State.nat, write_mem, h, ofBytes_leBytes_toNat rfl,
    BitVec.ofNat_toNat, BitVec.setWidth_eq]

theorem State.watchRead_watchWrite_of_disjoint (s : State) {a c : Nat} (h : a + 128 ≤ c ∨ c + 128 ≤ a) (e : BitVec 1024) :
    (s.watchWrite c e).watchRead a = s.watchRead a := by
  rw [watchRead, watchWrite, State.nat, write_mem, memBytes_write_out _ _ (by rwa [length_leBytes])]
  rfl

/-- Two entries of a table do not meet. -/
theorem Fn.watchEntry?_disjoint {x : Fn} {i j a c : Nat} (ha : x.watchEntry? i = some a) (hc : x.watchEntry? j = some c) (h : i ≠ j) :
    a + 128 ≤ c ∨ c + 128 ≤ a := by
  unfold watchEntry? at ha hc
  cases hw : x.watch with
  | none => rw [hw] at ha; cases ha
  | some w =>
    obtain ⟨part, off, n⟩ := w
    simp only [hw, Option.ite_none_right_eq_some, Option.some.injEq] at ha hc
    omega

/-- Change one entry of a function's table. -/
def State.changeEntry (t : State) (x : Fn) (id : Nat) (g : BitVec 1024 → BitVec 1024) : State :=
  match x.watchEntry? id with
  | some a => t.watchWrite a (g (t.watchRead a))
  | none => t

/-- Change n entries from `first` on, each by its own function. -/
def State.changeEntries (s : State) (x : Fn) (first n : Nat) (g : Nat → BitVec 1024 → BitVec 1024) : State :=
  (List.range n).foldl (fun t i => t.changeEntry x (first + i) (g i)) s

section
variable {s : State} {x : Fn} {a id first n : Nat}

theorem State.changeEntry_rest (s : State) (x : Fn) (id : Nat) (g : BitVec 1024 → BitVec 1024) :
    s.changeEntry x id g = { s with mem := (s.changeEntry x id g).mem, poison := (s.changeEntry x id g).poison } := by
  unfold changeEntry
  cases x.watchEntry? id <;> rfl

theorem State.watchRead_changeEntry (h : x.watchEntry? id = some a) (g : BitVec 1024 → BitVec 1024) :
    (s.changeEntry x id g).watchRead a = g (s.watchRead a) := by
  rw [changeEntry, h]
  exact watchRead_watchWrite ..

theorem State.watchRead_changeEntry_ne {j : Nat} (h : x.watchEntry? id = some a) (hne : id ≠ j) (g : BitVec 1024 → BitVec 1024) :
    (s.changeEntry x j g).watchRead a = s.watchRead a := by
  unfold changeEntry
  cases hj : x.watchEntry? j with
  | none => rfl
  | some c => exact watchRead_watchWrite_of_disjoint s (Fn.watchEntry?_disjoint h hj hne) _

theorem State.changeEntries_succ (s : State) (x : Fn) (first n : Nat) (g : Nat → BitVec 1024 → BitVec 1024) :
    s.changeEntries x first (n + 1) g = (s.changeEntries x first n g).changeEntry x (first + n) (g n) := by
  simp only [changeEntries, List.range_succ, List.foldl_append, List.foldl_cons, List.foldl_nil]

/-- Changing entries touches memory alone. -/
theorem State.changeEntries_rest (s : State) (x : Fn) (first n : Nat) (g : Nat → BitVec 1024 → BitVec 1024) :
    s.changeEntries x first n g
      = { s with mem := (s.changeEntries x first n g).mem, poison := (s.changeEntries x first n g).poison } := by
  induction n with
  | zero => rfl
  | succ n ih =>
    rw [changeEntries_succ, changeEntry_rest, ih]

theorem State.watchRead_changeEntries_of_le {i : Nat} (h : x.watchEntry? (first + i) = some a) (hi : n ≤ i)
    (g : Nat → BitVec 1024 → BitVec 1024) : (s.changeEntries x first n g).watchRead a = s.watchRead a := by
  induction n with
  | zero => rfl
  | succ n ih => rw [changeEntries_succ, watchRead_changeEntry_ne h (by omega), ih (by omega)]

/-- Each entry of the range is changed once, from what stood there before. -/
theorem State.watchRead_changeEntries {i : Nat} (h : x.watchEntry? (first + i) = some a) (hi : i < n)
    (g : Nat → BitVec 1024 → BitVec 1024) : (s.changeEntries x first n g).watchRead a = g i (s.watchRead a) := by
  induction n with
  | zero => omega
  | succ n ih =>
    rw [changeEntries_succ]
    by_cases hin : i = n
    · subst hin
      rw [watchRead_changeEntry h, watchRead_changeEntries_of_le h (Nat.le_refl _)]
    · rw [watchRead_changeEntry_ne h (by omega), ih (by omega)]

end

theorem State.mapWatch_append (s : State) (f : FnId) (xs ys : List Nat) (g : BitVec 1024 → BitVec 1024) :
    s.mapWatch f (xs ++ ys) g = (s.mapWatch f xs g).mapWatch f ys g := List.foldl_append ..

theorem State.mapWatch_singleton (s : State) (f : FnId) (id : Nat) (g : BitVec 1024 → BitVec 1024) :
    s.mapWatch f [id] g = s.changeEntry (s.fn f) id g := rfl

/-- The table stays where it is while its entries change, so a range of ids is changed as the entries are. -/
theorem State.mapWatch_range (s : State) (f : FnId) (first n : Nat) (g : BitVec 1024 → BitVec 1024) :
    s.mapWatch f ((List.range n).map (· + first)) g = s.changeEntries (s.fn f) first n (fun _ => g) := by
  induction n with
  | zero => rfl
  | succ n ih =>
    have hfn : (s.changeEntries (s.fn f) first n (fun _ => g)).fn f = s.fn f := by rw [changeEntries_rest]; rfl
    rw [List.range_succ, List.map_append, mapWatch_append, ih, List.map_singleton, mapWatch_singleton, hfn, changeEntries_succ,
      Nat.add_comm n]

theorem State.takeImages_eq (s : State) (o : Op) (g : BitVec 1024 → BitVec 1024 → BitVec 1024) :
    s.takeImages o g = s.changeEntries (s.fn o.fn) (wtFirst o.desc) (wtCount o.desc) (fun i => g (s.watchImage o i)) := rfl

theorem State.takeImages_rest (s : State) (o : Op) (g : BitVec 1024 → BitVec 1024 → BitVec 1024) :
    s.takeImages o g = { s with mem := (s.takeImages o g).mem, poison := (s.takeImages o g).poison } := by
  rw [takeImages_eq]
  exact changeEntries_rest ..

theorem State.watchRead_takeImages {s : State} {o : Op} {i a : Nat} (hi : i < wtCount o.desc)
    (h : (s.fn o.fn).watchEntry? (wtFirst o.desc + i) = some a) (g : BitVec 1024 → BitVec 1024 → BitVec 1024) :
    (s.takeImages o g).watchRead a = g (s.watchImage o i) (s.watchRead a) := by
  rw [takeImages_eq]
  exact watchRead_changeEntries h hi _

/-- The bytes of an entry, none where the table has no such entry. -/
def State.watchBytes (s : State) (x : Fn) (id : Nat) : List Byte :=
  match x.watchEntry? id with
  | some a => s.bytes a 128
  | none => []

/-- The bytes of n entries from `first` on. -/
def State.rangeBytes (s : State) (x : Fn) (first n : Nat) : List Byte := (List.range n).flatMap (fun i => s.watchBytes x (first + i))

/-! ## A table at its reset values -/

section
variable (s : State) (f : FnId) (part off n : Nat)

theorem State.placeWatch_watch : ((s.placeWatch f part off n).fn f).watch = some (part, off, n) := by
  rw [placeWatch, modFn, fn_setFn]

theorem toNat_watchReset : watchReset.toNat = 16 * 2 ^ 240 + 2 ^ 258 + 12 * 2 ^ 262 + 16 * 2 ^ 292 := by decide +kernel

theorem State.nat_placeWatch {i : Nat} (h : i < n) :
    (s.placeWatch f part off n).nat (llmAddr part off + 128 * i) 128 = 16 * 2 ^ 240 + 2 ^ 258 + 12 * 2 ^ 262 + 16 * 2 ^ 292 := by
  have hentry := memBytes_write_replicate h s.mem (llmAddr part off) (leBytes 128 watchReset.toNat)
  rw [length_leBytes] at hentry
  refine (congrArg ofBytes hentry).trans ?_
  rw [ofBytes_leBytes_toNat rfl, toNat_watchReset]

theorem State.memByte_placeWatch {a : Nat} (h : a < llmAddr part off ∨ llmAddr part off + 128 * n ≤ a) :
    memByte (s.placeWatch f part off n).mem a = memByte s.mem a := by
  refine memByte_write_out s.mem _ _ a ?_
  rwa [List.length_flatten, List.map_replicate, List.sum_replicate_nat, length_leBytes, Nat.mul_comm n]

end

/-! ## Results delivered to a scratchpad or to device memory (R431) -/

section
variable {s : State} {o : Op} {bs : List Byte}

theorem State.deliver_core {c : CoreId} (haddr : ctAddr o.desc < 2 ^ 24) (hend : ctAddr o.desc + bs.length ≤ spSize)
    (hcore : s.coreOf o = some c) (hfree : s.heldBy o.fn (some o.ref) (spKey c.val (ctAddr o.desc)) bs.length = false) (i : Sys2Proof.Instr)
    (k : State → State) : s.deliver i o true bs k = k (s.write (spKey c.val (ctAddr o.desc)) bs) := by
  have hoff : ctOff o.desc = ctAddr o.desc := by
    rw [ctAddr, fld_split (mid := 87) _ (by omega) (by omega)] at haddr ⊢
    rw [ctOff]
    omega
  have hfits : ¬(ctAddr o.desc / 2 ^ 24 ≠ 0 ∨ (!spOk (ctOff o.desc) bs.length) = true) := by
    simp only [spOk, hoff, hend, Nat.div_eq_of_lt haddr]
    decide
  unfold deliver
  simp only [hcore, if_true, if_neg hfits]
  simp only [hoff, hfree, Bool.false_eq_true, if_false]

theorem State.deliver_dev (hcause : s.ctlWriteCause o (ctAddr o.desc) bs.length = 0)
    (hdecided : s.decideHold o.fn [(ctAddr o.desc, bs.length)] = false) (i : Sys2Proof.Instr) (k : State → State) :
    s.deliver i o false bs k = k (s.writeDev (s.writeAddr o.fn (ctAddr o.desc)) bs) := by
  simp only [deliver, hcause, hdecided, Bool.false_eq_true, ne_eq, not_true_eq_false, if_false, ctlWrite]

end

/-! ## What becomes of an entry -/

/-- The writable fields of an image in an entry (Table 7-1). -/
def copyWritable (image e : BitVec 1024) : BitVec 1024 :=
  withFld (withFld (withFld (withFld e 278 256 (fld image 278 256)) 307 292 (fld image 307 292)) 313 308 (fld image 313 308))
    344 320 (fld image 344 320)

section
variable (image e : BitVec 1024)

theorem writeEntry_eq : writeEntry image e
    = if weEnable e = 0 ∧ weEnable image = 1 then loseHistory (copyWritable image e) else copyWritable image e := rfl

theorem fld_copyWritable_of_outside {hi lo : Nat} (hhi : hi < 1024)
    (h : hi < 256 ∨ 278 < lo ∧ hi < 292 ∨ 344 < lo) : fld (copyWritable image e) hi lo = fld e hi lo := by
  simp (disch := omega) only [copyWritable, fld_withFld_of_disjoint]

theorem fld_copyWritable : fld (copyWritable image e) 278 256 = fld image 278 256
    ∧ fld (copyWritable image e) 307 292 = fld image 307 292 ∧ fld (copyWritable image e) 313 308 = fld image 313 308
    ∧ fld (copyWritable image e) 344 320 = fld image 344 320 := by
  simp (disch := omega) only [copyWritable, fld_withFld_of_disjoint, fld_withFld_fld, and_self]

theorem fld_loseHistory_of_outside {hi lo : Nat} (hhi : hi < 1024) (h : hi < 240 ∨ 255 < lo ∧ hi < 280 ∨ 288 < lo) :
    fld (loseHistory e) hi lo = fld e hi lo := by
  simp (disch := omega) only [loseHistory, fld_withFld_of_disjoint]

theorem fld_loseHistory_hist : fld (loseHistory e) 288 280 = 0 := by
  rw [fld_split (mid := 283) _ (by omega) (by omega)]
  simp (disch := omega) only [loseHistory, fld_withFld_of_disjoint, fld_withFld_of_lt, Nat.mul_zero]

theorem weBootLeft_loseHistory : weBootLeft (loseHistory e) = weBootN e := by
  have hfits : weBootN e < 65536 := fld_lt e 307 292
  exact fld_withFld_of_lt (by omega) (by omega) _

/-- Enabling changes only the history's pointer and count and BOOT_LEFT beyond the writable fields (R190). -/
theorem fld_writeEntry_of_outside {hi lo : Nat} (hhi : hi < 1024) (h : hi < 240 ∨ 255 < lo ∧ hi < 280 ∨ 288 < lo) :
    fld (writeEntry image e) hi lo = fld (copyWritable image e) hi lo := by
  rw [writeEntry_eq]
  split
  · exact fld_loseHistory_of_outside _ hhi h
  · rfl

theorem fld_writeEntry_writable : fld (writeEntry image e) 278 256 = fld image 278 256
    ∧ fld (writeEntry image e) 307 292 = fld image 307 292 ∧ fld (writeEntry image e) 313 308 = fld image 313 308
    ∧ fld (writeEntry image e) 344 320 = fld image 344 320 := by
  simp (disch := omega) only [fld_writeEntry_of_outside]
  exact fld_copyWritable image e

/-- The counts, AMAX_RUN and the history's values stay at a write. -/
theorem fld_writeEntry_kept {hi lo : Nat} (hhi : hi < 1024) (h : hi < 240 ∨ 344 < lo) :
    fld (writeEntry image e) hi lo = fld e hi lo := by
  rw [fld_writeEntry_of_outside image e hhi (by omega), fld_copyWritable_of_outside image e hhi (by omega)]

theorem fld_writeEntry_of_enables (h : weEnable e = 0 ∧ weEnable image = 1) :
    fld (writeEntry image e) 288 280 = 0 ∧ fld (writeEntry image e) 255 240 = fld image 307 292 := by
  obtain ⟨-, hboot, -, -⟩ := fld_copyWritable image e
  rw [writeEntry_eq, if_pos h]
  exact ⟨fld_loseHistory_hist _, (weBootLeft_loseHistory _).trans hboot⟩

theorem fld_writeEntry_of_not_enables (h : ¬(weEnable e = 0 ∧ weEnable image = 1)) :
    fld (writeEntry image e) 288 280 = fld e 288 280 ∧ fld (writeEntry image e) 255 240 = fld e 255 240 := by
  rw [writeEntry_eq, if_neg h]
  exact ⟨fld_copyWritable_of_outside image e (by omega) (by omega), fld_copyWritable_of_outside image e (by omega) (by omega)⟩

/-- Each change of a roll reads what stood in the entry before it. -/
theorem rollEntry_eq : rollEntry e
    = withFld (withFld (withFld (withFld (withFld e (399 + 16 * weHistPtr e) (384 + 16 * weHistPtr e) (weAmaxRun e))
        283 280 ((weHistPtr e + 1) % 16)) 288 284 (min 16 (weHistN e + 1))) 239 224 0) 255 240 (weBootLeft e - 1) := by
  simp (disch := omega) only [rollEntry, weHistN, weBootLeft, fld_withFld_of_disjoint]

/-- The fields a roll sets (R188). -/
theorem fld_rollEntry : let p := fld e 283 280
    fld (rollEntry e) (399 + 16 * p) (384 + 16 * p) = fld e 239 224 ∧ fld (rollEntry e) 283 280 = (p + 1) % 16
    ∧ fld (rollEntry e) 288 284 = min 16 (fld e 288 284 + 1) ∧ fld (rollEntry e) 239 224 = 0
    ∧ fld (rollEntry e) 255 240 = fld e 255 240 - 1 := by
  intro p
  have hp : p < 16 := fld_lt e 283 280
  have hamax : weAmaxRun e < 2 ^ (399 + 16 * p + 1 - (384 + 16 * p)) := by
    rw [show 399 + 16 * p + 1 - (384 + 16 * p) = 16 by omega]
    exact fld_lt e 239 224
  have hboot : weBootLeft e - 1 < 2 ^ (255 + 1 - 240) := Nat.lt_of_le_of_lt (Nat.sub_le ..) (fld_lt e 255 240)
  rw [rollEntry_eq, show weHistPtr e = p from rfl]
  refine ⟨?amax, ?pointer, ?count, ?run, fld_withFld_of_lt (by omega) hboot _⟩
  case amax =>
    simp (disch := omega) only [fld_withFld_of_disjoint]
    exact fld_withFld_of_lt (by omega) hamax _
  all_goals simp (disch := omega) only [fld_withFld_of_disjoint, fld_withFld_of_lt]
  case count => rfl

theorem fld_rollEntry_counts : fld (rollEntry e) 223 0 = fld e 223 0 := by
  simp (disch := omega) only [rollEntry_eq, fld_withFld_of_disjoint]

/-- The other places of the history stay at a roll. -/
theorem fld_rollEntry_history {j : Nat} (hj : j < 16) (hne : j ≠ fld e 283 280) :
    fld (rollEntry e) (399 + 16 * j) (384 + 16 * j) = fld e (399 + 16 * j) (384 + 16 * j) := by
  have hplace : 399 + 16 * weHistPtr e < 384 + 16 * j ∨ 399 + 16 * j < 384 + 16 * weHistPtr e := by
    rw [weHistPtr]
    omega
  simp (disch := omega) only [rollEntry_eq, fld_withFld_of_disjoint]

theorem fld_loadEntry : fld (loadEntry image e) 639 384 = fld image 639 384 ∧ fld (loadEntry image e) 288 280 = fld image 288 280
    ∧ fld (loadEntry image e) 255 240 = 0 := by
  simp (disch := omega) only [loadEntry, weHistory, fld_withFld_of_disjoint, fld_withFld_fld, fld_withFld_of_lt, and_self]

theorem fld_loadEntry_of_outside {hi lo : Nat} (hhi : hi < 1024) (h : hi < 240 ∨ 255 < lo ∧ hi < 280 ∨ 288 < lo ∧ hi < 384) :
    fld (loadEntry image e) hi lo = fld e hi lo := by
  simp (disch := omega) only [loadEntry, fld_withFld_of_disjoint]

end

end Sys2Proof.Machine

namespace Sys2Proof.Laws

open Sys2Proof.Machine Sys2Proof.Safety

section
variable {s b : State} {q : QueueId} {d : Desc} {o : Op}

theorem exec_setWatch_of_control (h : Control s q d 0x10 o b) (hcause : b.setWatchCause o = 0)
    (hfree : ∀ x ∈ b.ops, x.fn = o.fn → x.flying = true → x.watched = false) :
    exec (.setWatch q d) s = .next ((b.placeWatch o.fn (swPart d) (swOff d) (swCount d)).done o) := by
  have hunwatched : ¬b.ops.any (fun x => decide (x.fn = o.fn) && x.flying && x.watched) = true := by
    simp only [List.any_eq_true, Bool.and_eq_true, decide_eq_true_eq]
    rintro ⟨x, hx, ⟨hf, hfly⟩, hw⟩
    exact Bool.false_ne_true ((hfree x hx hf hfly).symm.trans hw)
  refine (congrArg Host.Outcome.next (control_issue h rfl _)).trans ?_
  rw [if_neg (not_not_intro hcause), if_neg hunwatched]

theorem exec_writeWatch_of_control (h : Control s q d 0x11 o b) (hcause : b.imagesCause o = 0) :
    exec (.writeWatch q d) s = .next ((b.takeImages o writeEntry).done o) :=
  (congrArg Host.Outcome.next (control_issue h rfl _)).trans (congrArg _ (if_neg (not_not_intro hcause)))

theorem exec_rollHistory_of_control (h : Control s q d 0x13 o b) (hrange : b.watchRangeBad o = false) :
    exec (.rollHistory q d) s = .next ((b.mapWatch o.fn (wtIds o.desc) rollEntry).done o) := by
  rw [(Issues_desc h.issues).1]
  exact (congrArg Host.Outcome.next (control_issue h rfl _)).trans (congrArg _ (if_neg (Bool.eq_false_iff.mp hrange)))

theorem exec_loadHistory_of_control (h : Control s q d 0x14 o b) (hcause : b.imagesCause o = 0)
    (hcounts : ∀ i < wtCount d, weHistN (b.watchImage o i) ≤ 16) :
    exec (.loadHistory q d) s = .next ((b.takeImages o loadEntry).done o) := by
  have hfits : ¬(List.range (wtCount d)).any (fun i => decide (16 < weHistN (b.watchImage o i))) = true := by
    simp only [List.any_eq_true, List.mem_range, decide_eq_true_eq]
    exact fun ⟨i, hi, hover⟩ => Nat.not_lt.mpr (hcounts i hi) hover
  refine (congrArg Host.Outcome.next (control_issue h rfl _)).trans ?_
  rw [if_neg (not_not_intro hcause), if_neg hfits]


/-- A read delivers the range's bytes, then clears the counts of its entries where CLEAR is set (R193). -/
theorem exec_readWatch_of_control (h : Control s q d 0x12 o b) (hrange : b.watchRangeBad o = false) :
    exec (.readWatch q d) s = .next (b.deliver (.readWatch q d) o (flag d 152) (b.rangeBytes (b.fn o.fn) (wtFirst d) (wtCount d))
      (fun u => (if flag d 153 then u.mapWatch o.fn (wtIds d) clearEntry else u).done o)) := by
  have hbytes : (wtIds d).flatMap (b.watchBytes (b.fn o.fn)) = b.rangeBytes (b.fn o.fn) (wtFirst d) (wtCount d) := by
    simp only [wtIds, State.rangeBytes, List.flatMap_map, Nat.add_comm _ (wtFirst d)]
  refine (congrArg Host.Outcome.next (control_issue h rfl _)).trans (congrArg _ ?_)
  rw [if_neg (Bool.eq_false_iff.mp hrange)]
  exact congrArg (fun bs => b.deliver (.readWatch q d) o (flag d 152) bs _) hbytes

end

/-- Settles O19: each operation changes the entries of its range once, and an entry's fields follow from the one change made to it. -/
theorem watchTables : Obligations.WatchTables := by
  refine ⟨fun s b q d o => ⟨fun h hcause hfree => ?set, fun h hcause => ?write⟩, fun s b q d o => ?_⟩
  case set =>
    exact ⟨_, exec_setWatch_of_control h hcause hfree, State.placeWatch_watch .., rfl, rfl, fun i hi => State.nat_placeWatch _ _ _ _ _ hi,
      fun a ha => State.memByte_placeWatch _ _ _ _ _ ha⟩
  case write =>
    obtain rfl : o.desc = d := (Issues_desc h.issues).1
    refine ⟨_, exec_writeWatch_of_control h hcause, fun i hi a ha => ?_, by rw [State.takeImages_rest]; exact ⟨rfl, rfl, rfl⟩⟩
    intro image e x
    have hx : x = writeEntry image e := State.watchRead_takeImages hi ha _
    rw [hx]
    obtain ⟨hpolicy, hboot, hpart, hoff⟩ := fld_writeEntry_writable image e
    exact ⟨hpolicy, hboot, hpart, hoff, fld_writeEntry_kept _ _ (by omega) (by omega), fld_writeEntry_kept _ _ (by omega) (by omega),
      fld_writeEntry_of_enables _ _, fld_writeEntry_of_not_enables _ _⟩
  intro n first
  refine ⟨fun h hrange => ?roll, fun h hcause hcounts => ?load, fun h hrange => ?read⟩
  all_goals obtain rfl : o.desc = d := (Issues_desc h.issues).1
  case roll =>
    have hexec := exec_rollHistory_of_control h hrange
    rw [wtIds, State.mapWatch_range] at hexec
    refine ⟨_, hexec, by rw [State.changeEntries_rest], fun i hi a ha => ?_⟩
    intro e x p
    have hx : x = rollEntry e := State.watchRead_changeEntries ha hi _
    rw [hx]
    obtain ⟨hamax, hptr, hcount, hrun, hboot⟩ := fld_rollEntry e
    exact ⟨hamax, hptr, hcount, hrun, hboot, fld_rollEntry_counts e, fun j hj hne => fld_rollEntry_history e hj hne⟩
  case load =>
    refine ⟨_, exec_loadHistory_of_control h hcause hcounts, by rw [State.takeImages_rest], fun i hi a ha => ?_⟩
    intro image e x
    have hx : x = loadEntry image e := State.watchRead_takeImages hi ha _
    rw [hx]
    obtain ⟨hhist, hptr, hboot⟩ := fld_loadEntry image e
    exact ⟨hhist, hptr, hboot, fld_loadEntry_of_outside _ _ (by omega) (by omega), fld_loadEntry_of_outside _ _ (by omega) (by omega),
      fld_loadEntry_of_outside _ _ (by omega) (by omega)⟩
  case read =>
    have hexec := exec_readWatch_of_control h hrange
    refine ⟨fun hsp haddr hend c hcore hfree => ?core, fun hdev hcause hdecided => ?device⟩
    case core =>
      rw [hsp] at hexec
      exact hexec.trans (congrArg _ (State.deliver_core haddr hend hcore hfree _ _))
    case device =>
      rw [hdev] at hexec
      exact hexec.trans (congrArg _ (State.deliver_dev hcause hdecided _ _))

end Sys2Proof.Laws

/-! # The HBM4 stacks: row repair and page replacement (R232, R237, R239)

What a repair announces goes to companion memory, in messages shorter than a burst: device memory and poison stay as the repair itself
leaves them. -/

namespace Sys2Proof.Machine

/-! ## Poison -/

/-- A write shorter than a burst covers none whole. -/
theorem unpoison_of_short {n : Nat} (h : n < 64) (p : List Nat) (a : Nat) : unpoison p a n = p :=
  List.filter_eq_self.mpr fun b _ => by
    simp only [Bool.not_eq_true', Bool.and_eq_false_iff, decide_eq_false_iff_not]
    omega

theorem mem_unpoison_of_outside {p : List Nat} {a n b : Nat} (hb : b ∈ p) (h : b * 64 < a ∨ a + n < b * 64 + 64) : b ∈ unpoison p a n :=
  List.mem_filter.mpr ⟨hb, by
    simp only [Bool.not_eq_true', Bool.and_eq_false_iff, decide_eq_false_iff_not]
    omega⟩

/-- A burst is poison: it is listed and its 64 bytes are zero (R232). -/
def State.Poisoned (s : State) (b : Nat) : Prop := b ∈ s.poison ∧ ∀ k < 64, memByte s.mem (64 * b + k) = 0

theorem memByte_write_zeros_of_zero {m : List Host.Cell} {x : Nat} (h : memByte m x = 0) (a n : Nat) :
    memByte (memWrite m a (List.replicate n 0)) x = 0 := by
  by_cases hx : x < a ∨ a + n ≤ x
  · rw [memByte_write_out _ _ _ _ (by rwa [List.length_replicate]), h]
  · have hin := memByte_write_in m a (List.replicate n 0) (x - a) (by rw [List.length_replicate]; omega)
    rwa [List.getElem_replicate, Nat.add_sub_cancel' (by omega)] at hin

theorem State.poisonBurst_eq (s : State) (b : Nat) : s.poisonBurst b =
    { s with mem := memWrite s.mem (64 * b) (List.replicate 64 0), poison := if s.poison.contains b then s.poison else s.poison ++ [b] } := by
  unfold poisonBurst
  generalize memWrite s.mem (64 * b) (List.replicate 64 0) = m
  dsimp only
  split <;> rfl

theorem State.poisonBurst_poison (s : State) (b : Nat) :
    (s.poisonBurst b).poison = if s.poison.contains b then s.poison else s.poison ++ [b] := by
  rw [poisonBurst_eq]

theorem State.poisonBurst_mem (s : State) (b : Nat) : (s.poisonBurst b).mem = memWrite s.mem (64 * b) (List.replicate 64 0) := by
  rw [poisonBurst_eq]

theorem State.poisoned_poisonBurst (s : State) (b : Nat) : (s.poisonBurst b).Poisoned b := by
  refine ⟨?_, fun k hk => ?_⟩
  · rw [poisonBurst_poison]
    split
    · next h => exact List.contains_iff_mem.mp h
    · exact List.mem_append_right _ (List.mem_singleton_self b)
  · rw [poisonBurst_mem, memByte_write_in _ _ _ k (by rwa [List.length_replicate]), List.getElem_replicate]

theorem State.Poisoned.poisonBurst {s : State} {c : Nat} (h : s.Poisoned c) (b : Nat) : (s.poisonBurst b).Poisoned c := by
  refine ⟨?_, fun k hk => ?_⟩
  · rw [poisonBurst_poison]
    split
    · exact h.1
    · exact List.mem_append_left _ h.1
  · rw [poisonBurst_mem, memByte_write_zeros_of_zero (h.2 k hk)]

/-- A burst of a row: those of one row lie 4 KiB apart in their page. -/
def rowBurst (addr : BitVec 44) (b : Fin 16) : Nat :=
  (addr.toNat / 65536 * 65536 + rowOf addr.toNat % 64 * 64 + b.val * 4096) / 64

/-- The bursts of a row that fail are poisoned. -/
def State.poisonRow (s : State) (addr : BitVec 44) (failed : List (Fin 16)) : State :=
  failed.foldl (fun s b => s.poisonBurst (rowBurst addr b)) s

theorem State.poisoned_poisonRow {addr : BitVec 44} {b : Fin 16} {failed : List (Fin 16)} (hb : b ∈ failed) (s : State) :
    (s.poisonRow addr failed).Poisoned (rowBurst addr b) := by
  induction failed generalizing s with
  | nil => exact absurd hb List.not_mem_nil
  | cons c failed ih =>
    rcases List.mem_cons.mp hb with rfl | hb
    · exact List.foldlRecOn (motive := fun t : State => t.Poisoned (rowBurst addr b)) failed _ (s.poisoned_poisonBurst _)
        fun _ ht c _ => ht.poisonBurst (rowBurst addr c)
    · exact ih hb _

end Sys2Proof.Machine

namespace Sys2Proof.Laws

open Sys2Proof.Machine

theorem Notices.hbms {s t : State} (h : Notices s t) : t.hbms = s.hbms := by rw [h.rest]; rfl
theorem Notices.scrubs {s t : State} (h : Notices s t) : t.scrubs = s.scrubs := by rw [h.rest]; rfl

theorem Notices.poisonBurst (s : State) (b : Nat) : Notices s (s.poisonBurst b) := by
  have hform := memWf_write s.mem (64 * b) (List.replicate 64 0)
  rw [State.poisonBurst_eq]
  generalize memWrite s.mem (64 * b) (List.replicate 64 0) = m at hform ⊢
  exact ⟨rfl, hform⟩

theorem Notices.poisonRow (s : State) (addr : BitVec 44) (failed : List (Fin 16)) : Notices s (s.poisonRow addr failed) :=
  foldl _ _ _ fun s b => poisonBurst s (rowBurst addr b)

/-- The second state has the device memory and the poison of the first: what is written goes to companion memory or a scratchpad. -/
structure DeviceKept (s t : State) : Prop where
  bytes : ∀ a < 2 ^ 43, memByte t.mem a = memByte s.mem a
  poison : t.poison = s.poison

namespace DeviceKept

variable {s t u : State}

theorem of_eq (hm : t.mem = s.mem) (hp : t.poison = s.poison) : DeviceKept s t := ⟨fun _ _ => by rw [hm], hp⟩

theorem refl (s : State) : DeviceKept s s := of_eq rfl rfl

theorem trans (h1 : DeviceKept s t) (h2 : DeviceKept t u) : DeviceKept s u :=
  ⟨fun a ha => (h2.bytes a ha).trans (h1.bytes a ha), h2.poison.trans h1.poison⟩

theorem ite {c : Prop} [Decidable c] (ht : DeviceKept s t) (hu : DeviceKept s u) : DeviceKept s (if c then t else u) := by
  split
  · exact ht
  · exact hu

theorem foldl {α : Type} (step : State → α → State) (xs : List α) (s : State) (h : ∀ s x, DeviceKept s (step s x)) :
    DeviceKept s (xs.foldl step s) :=
  List.foldlRecOn xs step (refl s) fun t ht x _ => ht.trans (h t x)

theorem poisoned {b : Nat} (h : DeviceKept s t) (hb : 64 * b + 64 ≤ 2 ^ 43) (hs : s.Poisoned b) : t.Poisoned b :=
  ⟨h.poison ▸ hs.1, fun k hk => (h.bytes _ (by omega)).trans (hs.2 k hk)⟩

/-! ## The operations -/

theorem setReg (s : State) (win off v : Nat) : DeviceKept s (s.setReg win off v) := of_eq rfl rfl
theorem addReg (s : State) (win off n : Nat) : DeviceKept s (s.addReg win off n) := of_eq rfl rfl
theorem setPage (s : State) (p : Nat) (x : BitVec 64) : DeviceKept s (s.setPage p x) := of_eq rfl rfl
theorem setStack (s : State) (i : Nat) (x : Stack) : DeviceKept s (s.setStack i x) := of_eq rfl rfl
theorem storeRecord (s : State) (type scope : Nat) (payload : List Byte) : DeviceKept s (s.storeRecord type scope payload) := by
  unfold State.storeRecord; exact of_eq rfl rfl

theorem message (s : State) (addr : Nat) (data : Word) : DeviceKept s (s.message addr data) := by
  refine ite (refl s) ⟨fun a ha => s.write_out _ _ a (.inl ?_), ?_⟩
  · simp only [compKey]; omega
  · exact unpoison_of_short (by rw [length_leBytes]; decide) ..

theorem eventTo (s : State) (win page bit : Nat) : DeviceKept s (s.eventTo win page bit) :=
  ite (ite (message ..) (message ..)) (refl s)

theorem raise (s : State) (page bit : Nat) : DeviceKept s (s.raise page bit) := by
  have hevent : DeviceKept s ((s.setReg 0 (page + 0x18) (s.reg 0 (page + 0x18) + 2 ^ bit)).eventTo 0 page bit) :=
    (setReg ..).trans (eventTo ..)
  refine ite (refl s) ?_
  split
  · exact hevent.trans (eventTo ..)
  · exact hevent

theorem raiseLog (s : State) (win bit : Nat) : DeviceKept s (s.raiseLog win bit) := ite (refl s) ((setReg ..).trans (eventTo ..))

theorem errorIn (s : State) (win page code fn : Nat) (mgmt : Bool) : DeviceKept s (s.errorIn win page code fn mgmt) := by
  unfold State.errorIn; exact ite (addReg ..) ((((addReg ..).trans (setReg ..)).trans (setReg ..)).trans (setReg ..))

theorem pageError (s : State) (page code : Nat) (fn : Option FnId) (mgmt : Bool) : DeviceKept s (s.pageError page code fn mgmt) := by
  unfold State.pageError
  dsimp only
  split
  · exact ite (errorIn ..) ((errorIn ..).trans (errorIn ..))
  · exact errorIn ..

theorem logEvent (s : State) (code : Nat) (fn : Option FnId) (inst : Nat) (core : Option CoreId) (d0 d1 : Nat) :
    DeviceKept s (s.logEvent code fn inst core d0 d1) := by
  refine ite (refl s) ?_
  extract_lets cls fnField urgent t general views last
  have ht : DeviceKept s t := by
    refine ite ?_ (refl s)
    split
    · exact pageError ..
    · exact refl s
  refine ite (ht.trans (of_eq rfl rfl)) (ite ?placed ?lost)
  case placed =>
    have hd : DeviceKept t t.draw.2 := of_eq rfl rfl
    generalize t.draw = d at hd
    split
    extract_lets bits e next v w
    have hv : DeviceKept t v := hd.trans (of_eq rfl rfl)
    have hw : DeviceKept v w := ite ((raiseLog ..).trans (foldl _ _ _ fun s x => raiseLog s _ _)) (refl v)
    exact (ht.trans (hv.trans hw)).trans (ite (raiseLog ..) (refl w))
  case lost =>
    have hlast : DeviceKept t last := (addReg ..).trans (raiseLog ..)
    split
    · exact (ht.trans hlast).trans ((addReg ..).trans (raiseLog ..))
    · exact ht.trans hlast

theorem logPkg (s : State) (code inst d0 d1 : Nat) : DeviceKept s (s.logPkg code inst d0 d1) := logEvent ..

/-- A retirement is recorded and announced. -/
theorem announceRetired (s : State) (stack page code d1 : Nat) (fs : List FnId) :
    DeviceKept s (s.announceRetired stack page code d1 fs) :=
  have h := (storeRecord s ..).trans (raise ..)
  ite (h.trans (logPkg ..)) (h.trans (foldl _ _ _ fun s _ => logEvent s ..))

theorem retireRow (s : State) (stack page : Nat) : DeviceKept s (s.retireRow stack page) := by
  unfold State.retireRow
  have hfree : DeviceKept s ({ s with scrubs := s.scrubs.filter (· ≠ page) }.setPage page (dirReset ||| 3)) := of_eq rfl rfl
  exact ite (refl s) (ite (hfree.trans (announceRetired ..)) (ite (refl s) (setPage ..)))

end DeviceKept

end Sys2Proof.Laws

namespace Sys2Proof.Machine

/-! ## Pages and stacks -/

theorem State.stack_congr {s t : State} (h : t.hbms = s.hbms) (i : Nat) : t.stack i = s.stack i := by simp only [stack, h]

theorem State.page_congr {s t : State} {p : Nat} (hdir : SMap.get dirReset t.dir p = SMap.get dirReset s.dir p)
    (hhbms : t.hbms = s.hbms) : t.page p = s.page p := by
  simp only [page, hdir, stack_congr hhbms]

theorem State.page_of_inService {s : State} {p st : Nat} (hst : stackOfPage p = some st) (hin : (s.stack st).inService = true) :
    s.page p = SMap.get dirReset s.dir p := by
  simp only [page, hst, hin, if_true]

theorem State.page_setPage_same {s : State} {p st : Nat} (hst : stackOfPage p = some st) (hin : (s.stack st).inService = true)
    (x : BitVec 64) : (s.setPage p x).page p = x :=
  (page_of_inService (s := s.setPage p x) hst hin).trans (SMap.get_put_same ..)

theorem State.page_setPage_ne {s : State} {p k : Nat} (h : p ≠ k) (x : BitVec 64) : (s.setPage p x).page k = s.page k :=
  page_congr (SMap.get_put_ne _ _ _ _ _ h) rfl

/-- An entry with the low two bits set is TIER 3. -/
theorem pgTier_or_three (e : BitVec 64) : pgTier (e ||| 3) = 3 := by
  have hlow : ∀ low < 2 ^ 2, low ||| 3 = 3 := by decide
  simp only [pgTier, fld, field, BitVec.toNat_or, Nat.shiftRight_zero]
  rw [show 1 + 1 - 0 = 2 from rfl, Nat.or_mod_two_pow]
  exact hlow _ (Nat.mod_lt _ (by decide))

/-- Every page of a stack out of service is retired (R235). -/
theorem State.inService_of_tier {s : State} {p st : Nat} (hst : stackOfPage p = some st) (h : pgTier (s.page p) ≠ 3) :
    (s.stack st).inService = true := by
  refine eq_true_of_ne_false fun hout => h ?_
  simp only [page, hst, hout, Bool.false_eq_true, if_false]
  exact pgTier_or_three _

theorem region_hbm {a st : Nat} (h : region a = .hbm st) : a < 0x18000000000 ∧ a / 2 ^ 36 = st := by
  unfold region at h
  split at h
  · next ha =>
    split at h
    · exact ⟨ha, Region.hbm.inj h⟩
    · exact nomatch h
  · split at h
    · exact nomatch h
    · split at h <;> exact nomatch h

theorem stackOfPage_pageOf {a st : Nat} (h : region a = .hbm st) : stackOfPage (pageOf a) = some st := by
  obtain ⟨ha, rfl⟩ := region_hbm h
  rw [stackOfPage, if_pos (by simp only [pageOf]; omega), pageOf]
  exact congrArg some (by omega)

theorem stackOfPage_some {p st : Nat} (h : stackOfPage p = some st) : p < 24 * 2 ^ 20 ∧ p / 2 ^ 20 = st := by
  unfold stackOfPage at h
  split at h
  · next hp => exact ⟨hp, Option.some.inj h⟩
  · exact nomatch h

/-! ## Row repair -/

theorem Stack.nextRepair_eq (x : Stack) (row : Nat) : x.nextRepair row =
    if SMap.get 0 x.repairs row = 0 then (if x.bankUsed (bankOf row) < 4 then some 1 else if x.pool2Used < 512 then some 2 else none)
    else if SMap.get 0 x.repairs row = 1 then (if x.pool2Used < 512 then some 3 else none) else none := by
  unfold nextRepair
  dsimp only
  split
  · next h => simp only [h, if_true]
  · next h => simp only [h, if_true, Nat.one_ne_zero, if_false]
  · next h0 h1 => rw [if_neg h0, if_neg h1]

theorem State.announceRetired_notices (s : State) (stack page code d1 : Nat) (fs : List FnId) :
    Laws.Notices (s.storeRecord 0x20 stack (repairPayload (page % 2 ^ 20 * 64) 0 0)) (s.announceRetired stack page code d1 fs) :=
  (Laws.Notices.raise ..).trans (.ite (.logPkg ..) (.foldl _ _ _ fun s f => .logFn s code f ..))

@[simp] theorem State.storeRecord_hbms (s : State) (type scope : Nat) (payload : List Byte) :
    (s.storeRecord type scope payload).hbms = s.hbms := by simp only [storeRecord]

@[simp] theorem State.storeRecord_dir (s : State) (type scope : Nat) (payload : List Byte) :
    (s.storeRecord type scope payload).dir = s.dir := by simp only [storeRecord]

@[simp] theorem State.announceRetired_hbms (s : State) (stack page code d1 : Nat) (fs : List FnId) :
    (s.announceRetired stack page code d1 fs).hbms = s.hbms := (s.announceRetired_notices ..).hbms.trans (s.storeRecord_hbms ..)

@[simp] theorem State.announceRetired_dir (s : State) (stack page code d1 : Nat) (fs : List FnId) :
    (s.announceRetired stack page code d1 fs).dir = s.dir := (s.announceRetired_notices ..).dir.trans (s.storeRecord_dir ..)

@[simp] theorem State.retireRow_hbms (s : State) (stack page : Nat) : (s.retireRow stack page).hbms = s.hbms := by
  unfold retireRow
  dsimp only
  split
  · rfl
  · split
    · rw [announceRetired_hbms, setPage_hbms]
    · split
      · rfl
      · exact setPage_hbms ..

theorem State.retireRow_of_claimed {s : State} {page : Nat} (htier : pgTier (s.page page) = 1) (hscrub : page ∉ s.scrubs)
    (hmove : pgMove (s.page page) ≠ 2) (stack : Nat) : s.retireRow stack page = s.setPage page (withFld (s.page page) 28 26 3) := by
  have hclaimed : ¬(pgTier (s.page page) = 0 ∨ s.scrubs.contains page = true) := by simp [htier, hscrub]
  unfold retireRow
  rw [if_neg (by rw [htier]; decide), if_neg hclaimed, if_neg hmove]

section
variable {s : State} {addr : BitVec 44} {st : Nat} (hregion : region addr.toNat = .hbm st) (hin : (s.stack st).inService = true)
include hregion hin

/-- A row with a spare left takes it; the repair is recorded and logged, and the failing bursts are poison. -/
theorem exec_rowRepair_of_spare {r : Nat} (h : (s.stack st).nextRepair (rowOf addr.toNat) = some r) (failed : List (Fin 16)) :
    ∃ t, exec (.rowRepair addr failed) s = .next t ∧ Laws.DeviceKept (s.poisonRow addr failed) t ∧ t.dir = s.dir
      ∧ t.hbms = (s.setStack st { s.stack st with repairs := SMap.put 0 (s.stack st).repairs (rowOf addr.toNat) r }).hbms := by
  have hrow : Laws.Notices s (s.poisonRow addr failed) := .poisonRow ..
  simp only [exec, execRowRepair, hregion, hin, h, Bool.not_true, Bool.false_eq_true, if_false]
  refine ⟨_, rfl, ((Laws.DeviceKept.setStack ..).trans (.storeRecord ..)).trans (.logPkg ..), ?_, ?_⟩
  · rw [(Laws.Notices.logPkg ..).dir, State.storeRecord_dir, State.setStack_dir]
    exact hrow.dir
  · rw [(Laws.Notices.logPkg ..).hbms, State.storeRecord_hbms]
    exact congrArg (SMap.put Stack.reset · st _) hrow.hbms

/-- With no spare left, the page of the row is retired or is to be replaced. -/
theorem exec_rowRepair_of_no_spare (h : (s.stack st).nextRepair (rowOf addr.toNat) = none) (failed : List (Fin 16)) :
    exec (.rowRepair addr failed) s = .next ((s.poisonRow addr failed).retireRow st (pageOf addr.toNat)) := by
  simp only [exec, execRowRepair, hregion, hin, h, Bool.not_true, Bool.false_eq_true, if_false]
  rfl

end

/-! ## Page replacement -/

/-- The page found is free, and no page before it is. -/
theorem freeFrom_some {s : State} {n p new : Nat} (h : freeFrom s n p = some new) :
    (p ≤ new ∧ new < p + n) ∧ pgTier (s.page new) = 0 ∧ ∀ k, p ≤ k → k < new → pgTier (s.page k) ≠ 0 ∨ k ∈ s.scrubs := by
  induction n generalizing p with
  | zero => exact nomatch h
  | succ n ih =>
    rw [freeFrom] at h
    split at h
    · next hfree =>
      obtain rfl := Option.some.inj h
      exact ⟨by omega, hfree.1, fun k hk hlt => absurd hk (by omega)⟩
    · next hfree =>
      obtain ⟨hrange, htier, hbefore⟩ := ih h
      refine ⟨by omega, htier, fun k hk hlt => ?_⟩
      by_cases hkp : k = p
      · subst hkp
        exact Decidable.not_or_of_imp (by simpa using hfree)
      · exact hbefore k (by omega) hlt

theorem State.freePage_some {s : State} {st new : Nat} (h : s.freePage st = some new) :
    (st * 2 ^ 20 ≤ new ∧ new < st * 2 ^ 20 + 2 ^ 20) ∧ pgTier (s.page new) = 0
      ∧ ∀ k, st * 2 ^ 20 ≤ k → k < new → pgTier (s.page k) ≠ 0 ∨ k ∈ s.scrubs := by
  obtain ⟨hrange, hfree⟩ := freeFrom_some h
  exact ⟨by omega, hfree⟩

theorem State.stackOfPage_freePage {s : State} {page st new : Nat} (hst : stackOfPage page = some st) (h : s.freePage st = some new) :
    stackOfPage new = some st := by
  obtain ⟨hpage, rfl⟩ := stackOfPage_some hst
  obtain ⟨hrange, -⟩ := freePage_some h
  rw [stackOfPage, if_pos (by omega)]
  exact congrArg some (by omega)

/-- What is copied to the new page, and the poison that goes with it. -/
theorem State.copyPage_eq (s : State) (old new : Nat) : ∃ bs ps, bs = s.bytes (old * 65536) 65536
    ∧ ps = (unpoison s.poison (new * 65536) bs.length).filter (fun b => decide (b / 1024 = old))
    ∧ s.copyPage old new = { s.write (new * 65536) bs with
        poison := unpoison s.poison (new * 65536) bs.length ++ (ps.map (fun b => b - old * 1024 + new * 1024)).filter
          (fun b => !(unpoison s.poison (new * 65536) bs.length).contains b) } := ⟨_, _, rfl, rfl, rfl⟩

theorem State.length_bytes (s : State) (a n : Nat) : (s.bytes a n).length = n := by
  rw [bytes, memBytes, List.length_map, List.length_range]

theorem State.copyPage_notices (s : State) (old new : Nat) : Laws.Notices s (s.copyPage old new) := by
  obtain ⟨bs, ps, -, -, h⟩ := s.copyPage_eq old new
  rw [h]
  exact ⟨rfl, s.write_wf _ _⟩

theorem State.memByte_copyPage (s : State) (old new : Nat) {k : Nat} (h : k < 65536) :
    memByte (s.copyPage old new).mem (new * 65536 + k) = memByte s.mem (old * 65536 + k) := by
  obtain ⟨bs, ps, hbs, -, heq⟩ := s.copyPage_eq old new
  have hk : k < bs.length := by rwa [hbs, length_bytes]
  rw [heq, write_mem, memByte_write_in _ _ _ k hk]
  simp only [hbs, bytes, memBytes, List.getElem_map, List.getElem_range]

/-- A poisoned burst of the page is poison in the copy. -/
theorem State.mem_poison_copyPage {s : State} {old new k : Nat} (hne : old ≠ new) (hk : k < 1024) (h : old * 1024 + k ∈ s.poison) :
    new * 1024 + k ∈ (s.copyPage old new).poison := by
  obtain ⟨bs, ps, hbs, hps, heq⟩ := s.copyPage_eq old new
  rw [heq]
  have hkept : old * 1024 + k ∈ unpoison s.poison (new * 65536) bs.length :=
    mem_unpoison_of_outside h (by rw [hbs, length_bytes]; omega)
  have hcopied : new * 1024 + k ∈ ps.map (fun b => b - old * 1024 + new * 1024) :=
    List.mem_map.mpr ⟨_, hps ▸ List.mem_filter.mpr ⟨hkept, decide_eq_true (by omega)⟩, by omega⟩
  by_cases hthere : new * 1024 + k ∈ unpoison s.poison (new * 65536) bs.length
  · exact List.mem_append_left _ hthere
  · exact List.mem_append_right _ (List.mem_filter.mpr ⟨hcopied, by simpa using hthere⟩)

/-- An entry of a layer map is shorter than a burst: naming a page in it clears no poison. -/
theorem State.remapLayers_writes (s : State) (frame old new : Nat) :
    Laws.Notices s (s.remapLayers frame old new) ∧ (s.remapLayers frame old new).poison = s.poison := by
  unfold remapLayers
  dsimp only
  split
  · exact ⟨.refl s, rfl⟩
  · refine List.foldlRecOn (motive := fun t : State => Laws.Notices s t ∧ t.poison = s.poison) _ _ ⟨.refl s, rfl⟩ fun t ht i _ => ?_
    split
    · exact ⟨ht.1.trans (.write ..), (unpoison_of_short (by rw [length_leBytes]; decide) ..).trans ht.2⟩
    · exact ht

/-- A page goes to a new page of its stack, with its entry, and is retired (R239). -/
def State.replacePage (s : State) (page new : Nat) : State :=
  ((s.copyPage page new).setPage new (withFld (withFld (s.page page) 28 26 0) 63 36 0)).setPage page (dirReset ||| 3)

/-- The layer maps of a shared page's frame follow. -/
def State.replaceMapped (s : State) (page new : Nat) : State :=
  if pgShared (s.page page) then (s.replacePage page new).remapLayers (pgFrame (s.page page)) page new else s.replacePage page new

/-- A RELOCATING page that nobody refers to or waits for is replaced while its stack has a free page. -/
theorem exec_pageReplacement_of_free {s : State} {page st new : Nat} (hst : stackOfPage page = some st)
    (hmove : pgMove (s.page page) = 3) (href : pgRef (s.page page) = 0) (htier : pgTier (s.page page) = 1)
    (hwait : ∀ o ∈ s.ops, s.awaits page o = false) (hfree : s.freePage st = some new) :
    exec (.pageReplacement page) s = .next ((s.replaceMapped page new).announceRetired st page 0x4243 new (s.pageAudience (s.page page))) := by
  have hnone : s.ops.filter (s.awaits page) = [] := List.filter_eq_nil_iff.mpr fun o ho => by rw [hwait o ho]; exact Bool.false_ne_true
  simp only [exec, execPageReplacement, hst, hmove, href, htier, hnone, List.foldl_nil, hfree, ne_eq, not_true_eq_false, or_self, if_false]
  rfl

section
variable {s : State} {page st new : Nat}

theorem State.replaceMapped_writes (s : State) (page new : Nat) :
    Laws.Notices (s.replacePage page new) (s.replaceMapped page new) ∧ (s.replaceMapped page new).poison = (s.replacePage page new).poison := by
  unfold replaceMapped
  split
  · exact remapLayers_writes ..
  · exact ⟨.refl _, rfl⟩

theorem State.copyPage_hbms (s : State) (old new : Nat) : (s.copyPage old new).hbms = s.hbms := (s.copyPage_notices ..).hbms

theorem State.copyPage_page (s : State) (old new p : Nat) : (s.copyPage old new).page p = s.page p :=
  page_congr (congrArg (SMap.get dirReset · p) (s.copyPage_notices ..).dir) (s.copyPage_hbms ..)

theorem State.replacePage_mem (s : State) (page new : Nat) : (s.replacePage page new).mem = (s.copyPage page new).mem := by
  rw [replacePage, setPage_mem, setPage_mem]

theorem State.replacePage_poison (s : State) (page new : Nat) : (s.replacePage page new).poison = (s.copyPage page new).poison := by
  rw [replacePage, setPage_poison, setPage_poison]

theorem State.replacePage_page_new (hne : page ≠ new) (hst : stackOfPage new = some st) (hin : (s.stack st).inService = true) :
    (s.replacePage page new).page new = withFld (withFld (s.page page) 28 26 0) 63 36 0 := by
  rw [← stack_congr (s.copyPage_hbms page new)] at hin
  rw [replacePage, page_setPage_ne hne, page_setPage_same hst hin]

theorem State.replacePage_page_old (hst : stackOfPage page = some st) (hin : (s.stack st).inService = true) :
    (s.replacePage page new).page page = dirReset ||| 3 := by
  have hhbms (x : BitVec 64) : ((s.copyPage page new).setPage new x).hbms = s.hbms := (setPage_hbms ..).trans (s.copyPage_hbms ..)
  rw [replacePage]
  exact page_setPage_same hst (by rwa [stack_congr (hhbms _)]) _

theorem State.replacePage_page_ne {p : Nat} (hpage : p ≠ page) (hnew : p ≠ new) : (s.replacePage page new).page p = s.page p := by
  rw [replacePage, page_setPage_ne hpage.symm, page_setPage_ne hnew.symm, copyPage_page]

/-- Where a replaced page is announced, the directory, the stacks and the poison are those of the replacement. -/
theorem State.announced_page (s : State) (page new code d1 : Nat) (fs : List FnId) (st p : Nat) :
    ((s.replaceMapped page new).announceRetired st page code d1 fs).page p = (s.replacePage page new).page p := by
  obtain ⟨hmapped, -⟩ := s.replaceMapped_writes page new
  exact page_congr (congrArg (SMap.get dirReset · p) ((announceRetired_dir ..).trans hmapped.dir))
    ((announceRetired_hbms ..).trans hmapped.hbms)

end

end Sys2Proof.Machine

namespace Sys2Proof.Laws

open Sys2Proof.Machine

/-- A burst of a row of HBM lies in device memory. -/
theorem rowBurst_lt {addr : BitVec 44} {st : Nat} (h : region addr.toNat = .hbm st) (b : Fin 16) : 64 * rowBurst addr b + 64 ≤ 2 ^ 43 := by
  have haddr := (region_hbm h).1
  have hb := b.isLt
  simp only [rowBurst]
  omega

/-- Settles O13: a repair is its step and what it poisons, a replacement the copy and the two entries; what they announce leaves device
memory, directory and stacks. -/
theorem rowRepair : Obligations.RowRepair := by
  refine ⟨fun s addr failed st hregion hin => ?repair, fun s page st new => ?replace⟩
  case repair =>
    intro row x burst step
    have hstep : x.nextRepair row = step := x.nextRepair_eq row
    have hrow : Notices s (s.poisonRow addr failed) := .poisonRow ..
    have hpoison (t : State) (ht : DeviceKept (s.poisonRow addr failed) t) :
        ∀ b ∈ failed, burst b ∈ t.poison ∧ ∀ k < 64, memByte t.mem (64 * burst b + k) = 0 :=
      fun b hb => ht.poisoned (rowBurst_lt hregion b) (s.poisoned_poisonRow hb)
    generalize step = spare at hstep ⊢
    cases spare with
    | some r =>
      obtain ⟨t, hexec, hkept, hdir, hhbms⟩ := exec_rowRepair_of_spare hregion hin hstep failed
      refine ⟨t, hexec, hpoison t hkept, ?_, nofun, fun k hk => ?_⟩
      · rintro _ ⟨⟩
        exact ⟨by rw [State.stack_congr hhbms, State.stack_setStack], hdir⟩
      · rw [State.stack_congr hhbms, State.stack_setStack_ne _ _ _ _ hk.symm]
    | none =>
      have hstack (k : Nat) : ((s.poisonRow addr failed).retireRow st (pageOf addr.toNat)).stack k = s.stack k :=
        State.stack_congr ((State.retireRow_hbms ..).trans hrow.hbms) k
      have hpage := State.page_congr (p := pageOf addr.toNat) (congrArg (SMap.get dirReset · _) hrow.dir) hrow.hbms
      refine ⟨_, exec_rowRepair_of_no_spare hregion hin hstep failed, hpoison _ (.retireRow ..), nofun,
        fun _ => ⟨congrArg Stack.repairs (hstack st), fun htier hscrub hmove => ?_⟩, fun k _ => hstack k⟩
      rw [← hpage] at htier hmove ⊢
      rw [← hrow.scrubs] at hscrub
      rw [State.retireRow_of_claimed htier hscrub hmove]
      exact State.page_setPage_same (stackOfPage_pageOf hregion) (by rwa [State.stack_congr hrow.hbms]) _
  case replace =>
    intro e hst hmove href htier hwait hfree
    have hin : (s.stack st).inService = true := State.inService_of_tier hst (by rw [show pgTier (s.page page) = 1 from htier]; decide)
    obtain ⟨-, hnewfree, hlowest⟩ := State.freePage_some hfree
    have hne : page ≠ new := fun h => absurd (htier.symm.trans ((congrArg (fun p => pgTier (s.page p)) h).trans hnewfree)) (by decide)
    have hstnew := State.stackOfPage_freePage hst hfree
    have hnewlt := (stackOfPage_some hstnew).1
    have hkept : DeviceKept (s.replaceMapped page new) _ :=
      .announceRetired _ st page 0x4243 new (s.pageAudience (s.page page))
    refine ⟨_, exec_pageReplacement_of_free hst hmove href htier hwait hfree, ?new, ?old, fun hshared k hk => ?bytes, fun k hk hpoison => ?poison,
      hlowest, fun p hpage hnew => ?rest⟩
    case new => rw [State.announced_page, State.replacePage_page_new hne hstnew hin]
    case old =>
      rw [State.announced_page, State.replacePage_page_old hst hin]
      exact pgTier_or_three _
    case bytes =>
      rw [hkept.bytes _ (by omega), State.replaceMapped, hshared, if_neg Bool.false_ne_true, State.replacePage_mem]
      exact s.memByte_copyPage page new hk
    case poison =>
      rw [hkept.poison, (s.replaceMapped_writes page new).2, State.replacePage_poison]
      exact State.mem_poison_copyPage hne hk hpoison
    case rest => rw [State.announced_page, State.replacePage_page_ne hpage hnew]

end Sys2Proof.Laws

/-! # Operations and temperature of a stack (R234, R236, R240)

A device fault withdraws all work, and the steps that fail with it may be decided. None of this touches a stack or a pin of the package;
that is said once for every operation that a withdrawal may reach. -/

namespace Sys2Proof.Laws

open Sys2Proof.Machine

/-- The second state has the stacks and the package state of the first. -/
structure StacksKept (s t : State) : Prop where
  hbms : t.hbms = s.hbms
  boot : t.boot = s.boot

namespace StacksKept

variable {s t u : State}

theorem refl (s : State) : StacksKept s s := ⟨rfl, rfl⟩

theorem trans (h1 : StacksKept s t) (h2 : StacksKept t u) : StacksKept s u := ⟨h2.hbms.trans h1.hbms, h2.boot.trans h1.boot⟩

theorem notices (h : Notices s t) : StacksKept s t := ⟨h.hbms, h.boot⟩

theorem ite {c : Prop} [Decidable c] (ht : StacksKept s t) (hu : StacksKept s u) : StacksKept s (if c then t else u) := by
  split
  · exact ht
  · exact hu

theorem foldl {α : Type} (step : State → α → State) (xs : List α) (s : State) (h : ∀ s x, StacksKept s (step s x)) :
    StacksKept s (xs.foldl step s) :=
  List.foldlRecOn xs step (refl s) fun t ht x _ => ht.trans (h t x)

theorem modStep (s : State) (f : FnId) (g : StepState → StepState) : StacksKept s (s.modStep f g) := ⟨rfl, rfl⟩
theorem modJob (s : State) (f : FnId) (g : JobState → JobState) : StacksKept s (s.modJob f g) := ⟨rfl, rfl⟩
theorem setJob (s : State) (j : Nat) (x : MasterJob) : StacksKept s (s.setJob j x) := ⟨rfl, rfl⟩
theorem modMe (s : State) (i : Nat) (g : Me → Me) : StacksKept s (s.modMe i g) := ⟨rfl, rfl⟩
theorem modSlot (s : State) (i k : Nat) (g : Slot → Slot) : StacksKept s (s.modSlot i k g) := ⟨rfl, rfl⟩
theorem setCtx (s : State) (c : Nat) (x : BitVec 1024) : StacksKept s (s.setCtx c x) := ⟨rfl, rfl⟩
theorem setLink (s : State) (i : Nat) (x : LinkSlot) : StacksKept s (s.setLink i x) := ⟨rfl, rfl⟩
theorem setPort (s : State) (p : Nat) (x : Port) : StacksKept s (s.setPort p x) := ⟨rfl, rfl⟩
theorem count (s : State) (off n : Nat) : StacksKept s (s.count off n) := ⟨rfl, rfl⟩
theorem raise (s : State) (page bit : Nat) : StacksKept s (s.raise page bit) := notices (.raise ..)
theorem logFn (s : State) (code : Nat) (f : FnId) (inst d0 d1 : Nat) : StacksKept s (s.logFn code f inst d0 d1) := notices (.logFn ..)

/-! ## Operations that end -/

theorem complete (s : State) (o : Op) (status cause n detail : Nat) : StacksKept s (s.complete o status cause n detail) :=
  ⟨(Notices.postRecord ..).hbms, (Notices.postRecord ..).boot⟩

theorem kill (s : State) (o : Op) (status cause : Nat) : StacksKept s (s.kill o status cause) :=
  have hparked : StacksKept s { s with parked := (takeFirst (parkedFor o) s.parked).2 } := ⟨rfl, rfl⟩
  hparked.trans (complete ..)

theorem killAll (s : State) (os : List Op) (status : Nat) : StacksKept s (s.killAll os status) := foldl _ _ _ fun s o => kill s o status 0

/-! ## Frames that go out -/

theorem sendOn (s : State) (p : Nat) (fr : Frame) : StacksKept s (s.sendOn p fr) :=
  ite (refl s) (ite (ite ((setPort ..).trans (notices (.wait ..))) (setPort ..)) (refl s))

theorem sendDown (s : State) (msg : BitVec 256) : StacksKept s (s.sendDown msg) := foldl _ _ _ fun s p => sendOn s p _

theorem sendUpTree (s : State) (msg : BitVec 256) : StacksKept s (s.sendUpTree msg) := by
  unfold State.sendUpTree; split
  · exact sendOn ..
  · exact refl s

theorem sendMgmt (s : State) (chip : Nat) (payload : List Byte) : StacksKept s (s.sendMgmt chip payload) := by
  unfold State.sendMgmt; dsimp only; split
  · exact sendOn ..
  · exact refl s

/-! ## Decisions and the step boundary -/

theorem offsetOf (s : State) (j : MasterJob) (chip : Nat) : StacksKept s (s.offsetOf j chip).2 := by
  unfold State.offsetOf; split
  · exact refl s
  · split
    · exact refl s
    · split
      · exact ⟨rfl, rfl⟩
      · exact refl s

theorem shiftMember (s : State) (job chip : Nat) (w : Int) : StacksKept s (s.shiftMember job chip w) := by
  unfold State.shiftMember
  extract_lets j
  have hoff : StacksKept s (s.offsetOf j chip).2 := offsetOf ..
  generalize s.offsetOf j chip = r at hoff
  obtain ⟨old, t⟩ := r
  exact (hoff.trans (setJob ..)).trans (ite (ite ⟨rfl, rfl⟩ (refl _)) (sendMgmt ..))

theorem shiftPower (s : State) (job step : Nat) : StacksKept s (s.shiftPower job step) :=
  ite (refl s) (foldl _ _ _ fun s _ => (shiftMember s ..).trans (shiftMember ..))

theorem spoilScarf (s : State) (f : FnId) : StacksKept s (s.spoilScarf f) := by
  unfold State.spoilScarf; split
  · exact refl s
  · exact foldl _ _ _ fun _ _ => ⟨rfl, rfl⟩

theorem breakJob (s : State) (f : FnId) : StacksKept s (s.breakJob f) := ite (refl s) ((modJob ..).trans (raise ..))

theorem allWatch (s : State) (f : FnId) (g : BitVec 1024 → BitVec 1024) : StacksKept s (s.allWatch f g) := by
  unfold State.allWatch; split
  · refine foldl _ _ _ fun s id => ?_
    split
    · exact ⟨rfl, rfl⟩
    · exact refl s
  · exact refl s

theorem endTrainings (s : State) (f : FnId) : StacksKept s (s.endTrainings f) :=
  (foldl _ _ _ fun s _ => ite (setCtx ..) (refl s)).trans (modStep ..)

theorem endScarf (s : State) (f : FnId) : StacksKept s (s.endScarf f) := by
  unfold State.endScarf; split
  · exact refl s
  · dsimp only; split
    · exact (modJob ..).trans (complete ..)
    · exact modJob ..

theorem discardStages (s : State) (f : FnId) : StacksKept s (s.discardStages f) := (killAll ..).trans (ite (refl _) (count ..))

theorem dropLinks (s : State) (job : Nat) : StacksKept s (s.dropLinks job) :=
  ite (foldl _ _ _ fun s _ => ite (setLink ..) (refl s)) (refl s)

theorem sendHellos (s : State) : StacksKept s s.sendHellos := foldl _ _ _ fun s _ => ite (refl s) (sendOn ..)

theorem takeMap (s : State) (f : FnId) (m : BitVec 512) : StacksKept s (s.takeMap f m) :=
  ((modJob ..).trans (dropLinks ..)).trans (sendHellos _)

theorem runSave (s : State) (o : Op) (d : Desc) : StacksKept s (s.runSave o d) := by
  unfold State.runSave; dsimp only; split
  · exact complete ..
  · exact ((notices (.write ..)).trans ((modJob ..).trans (complete ..))).trans (raise ..)

theorem boundary (s : State) (f : FnId) : StacksKept s (s.boundary f) := by
  unfold State.boundary
  extract_lets t u v w job openNow x
  have hv : StacksKept s v := ⟨rfl, rfl⟩
  have hw : StacksKept v w := by
    subst w; split
    · exact takeMap ..
    · exact refl v
  have hx : StacksKept w x := foldl _ _ _ fun s _ => ite (setLink ..) (refl s)
  refine (hv.trans (hw.trans hx)).trans ?_
  split
  · split
    · exact runSave ..
    · exact refl x
  · exact refl x

theorem applyDecision (s : State) (f : FnId) (d : Decision) : StacksKept s (s.applyDecision f d) := by
  unfold State.applyDecision
  extract_lets job j t u ctxs v w x y u' v' w' x' y' z' e'
  have ht : StacksKept s t := setJob ..
  refine ite ?commit ?abort
  case commit =>
    have hv : StacksKept t v := ⟨rfl, rfl⟩
    have hw : StacksKept v w := (endTrainings ..).trans (endScarf ..)
    exact ((ht.trans (hv.trans hw)).trans ((allWatch ..).trans (count ..))).trans ((discardStages ..).trans (boundary ..))
  case abort =>
    have hw : StacksKept t w' := ((modStep t f _).trans (endTrainings ..)).trans (allWatch ..)
    have hx : StacksKept w' x' := ⟨rfl, rfl⟩
    have hz : StacksKept x' z' := ((count ..).trans (raise ..)).trans (logFn ..)
    have he : StacksKept z' e' := ite (((breakJob ..).trans (raise ..)).trans (logFn ..)) (refl z')
    exact (ht.trans (hw.trans (hx.trans (hz.trans he)))).trans (boundary ..)

theorem holdDecision (s : State) (job : Nat) (d : Decision) : StacksKept s (s.holdDecision job d) := by
  refine foldl _ _ _ fun s f => ite (refl s) ?_
  extract_lets t scarf u v w
  have hu : StacksKept t u := (⟨rfl, rfl⟩ : StacksKept t { t with reduces := t.reduces.filter (fun r => decide (r.fn ≠ f)) }).trans
    (foldl _ _ _ fun s p => setPort s p _)
  have hw : StacksKept t w := ite (refl t) ((hu.trans (killAll ..)).trans (ite ((spoilScarf ..).trans (breakJob ..)) (refl v)))
  exact ((modStep s f _).trans hw).trans (ite (applyDecision ..) (refl w))

theorem decideStep (s : State) (job step : Nat) (isCommit : Bool) (cause : Nat) : StacksKept s (s.decideStep job step isCommit cause) :=
  ((setJob ..).trans (ite (shiftPower ..) (refl _))).trans (ite (sendMgmt ..) ((sendDown ..).trans (holdDecision ..)))

theorem toMaster (s : State) (kind step job arg2 : Nat) : StacksKept s (s.toMaster kind step job arg2) :=
  ite (ite (ite (refl s) ((setJob ..).trans (ite (decideStep ..) (refl _)))) (ite (refl s) (decideStep ..))) (sendUpTree ..)

/-- A failure leaves the stacks, and so do the vote and the decisions that come of it. -/
theorem fail (s : State) (o : Op) (cause detail : Nat) : StacksKept s (s.fail o cause detail) :=
  (complete ..).trans (ite (ite (refl _) ((modStep ..).trans (ite ((modStep ..).trans (toMaster ..)) (refl _)))) (refl _))

/-! ## Work that is withdrawn -/

theorem addArrival (s : State) (inst slot : Nat) (d : Desc) (a : Arrival) : StacksKept s (s.addArrival inst slot d a) :=
  (modSlot s ..).trans (ite ⟨rfl, rfl⟩ (refl _))

theorem drainRows (inst slot : Nat) (as : List Arrival) (s : State) : StacksKept s (drainRows inst slot as s) := by
  induction as generalizing s with
  | nil => exact modSlot ..
  | cons a rest ih =>
    unfold Machine.drainRows
    refine ite (modSlot ..) ?_
    split
    · exact (addArrival ..).trans (ih _)
    · exact ih s

theorem openSlot (s : State) (core inst slot : Nat) (d : Desc) : StacksKept s (s.openSlot core inst slot d) := by
  unfold State.openSlot; exact modSlot ..

theorem reopen (s : State) (inst slot : Nat) : StacksKept s (s.reopen inst slot) := by
  unfold State.reopen; dsimp only; split
  · exact refl s
  · split
    · exact modSlot ..
    · exact ((modSlot ..).trans (openSlot ..)).trans (drainRows ..)

theorem freeSlot (s : State) (inst slot : Nat) : StacksKept s (s.freeSlot inst slot) :=
  ((modSlot s inst slot _).trans (modMe _ inst _)).trans (reopen ..)

theorem forgetWork (s : State) (c : Nat) (r : OpRef) (status : Option Nat) : StacksKept s (s.forgetWork c r status) := by
  unfold State.forgetWork
  extract_lets clean t x gone u
  have hu : StacksKept s u := ⟨rfl, rfl⟩
  refine hu.trans (foldl _ _ _ fun s j => ?_)
  split
  · exact kill ..
  · exact fail ..
  · exact refl s

theorem forgetTruss (s : State) (o : Op) : StacksKept s (s.forgetTruss o) := foldl _ _ _ fun s _ => modSlot s ..

theorem loseSlot (s : State) (c : Nat) (r : OpRef) : StacksKept s (s.loseSlot c r) := by
  unfold State.loseSlot; split
  · exact (ite (forgetTruss ..) (forgetWork ..)).trans (fail ..)
  · exact refl s

theorem discardOne (s : State) (x : Contents) (newest : Bool) : StacksKept s (s.discardOne x newest) := by
  unfold State.discardOne
  extract_lets k t u ended ops
  have hu : StacksKept s u := (ite (modSlot ..) (refl s)).trans (count ..)
  have hended : StacksKept u { u with heldOps := u.heldOps.filter (fun h => !h.added.contains k), ops := ops } := ⟨rfl, rfl⟩
  exact hu.trans (ite (refl u) (hended.trans (freeSlot ..)))

theorem discardBy (s : State) (plan : List (Contents × Bool) × List (Nat × OpRef)) : StacksKept s (s.discardBy plan) :=
  ((foldl _ _ _ fun s _ => loseSlot s ..).trans (foldl _ _ _ fun s _ => discardOne s ..)).trans (foldl _ _ _ fun _ _ => ⟨rfl, rfl⟩)

theorem cancelCore (s : State) (c status : Nat) : StacksKept s (s.cancelCore c status) := by
  refine foldl _ _ _ fun s o => ?_
  split
  · exact ite (((forgetTruss ..).trans (kill ..)).trans (discardBy ..)) ((forgetWork ..).trans (kill ..))
  · exact refl s

end StacksKept

end Sys2Proof.Laws

namespace Sys2Proof.Machine

/-! ## A device fault (R433) -/

/-- A device fault leaves the stacks, and of the pins THERM_N. -/
theorem State.deviceFault_stacks (s : State) (code inst d0 d1 : Nat) :
    (s.deviceFault code inst d0 d1).hbms = s.hbms ∧ (s.deviceFault code inst d0 d1).boot.thermN = s.boot.thermN := by
  unfold deviceFault
  extract_lets t boot u v
  have ht : Laws.StacksKept s t := .notices (.logPkg ..)
  have hpin : t.boot.thermN = s.boot.thermN := congrArg Boot.thermN ht.boot
  split
  · exact ⟨ht.hbms, hpin⟩
  · have hu : u.hbms = s.hbms ∧ u.boot.thermN = s.boot.thermN := ⟨ht.hbms, hpin⟩
    have hv (os : List Op) : Laws.StacksKept u (v.killAll os 2) :=
      (Laws.StacksKept.foldl _ _ _ fun s c => .cancelCore s ..).trans (.killAll v os 2)
    exact ⟨(hv _).hbms.trans hu.1, (congrArg Boot.thermN (hv _).boot).trans hu.2⟩

/-! ## Temperature (R236, Table 9-3) -/

/-- A fall leaves a state only 2 °C below its lower bound and ends in the first state that it does not leave. -/
theorem refreshFall_spec (st t : Nat) : refreshFall st t ≤ st
    ∧ (∀ k, refreshFall st t < k → k ≤ st → t + 2 ≤ refreshBound k)
    ∧ (refreshFall st t ≠ 0 → refreshBound (refreshFall st t) < t + 2) := by
  induction st with
  | zero => exact ⟨Nat.le_refl 0, fun k hk hle => absurd hk (Nat.not_lt.mpr hle), absurd rfl⟩
  | succ st ih =>
    obtain ⟨hle, hleft, hstay⟩ := ih
    rw [refreshFall]
    split
    · next hfall =>
      refine ⟨Nat.le_succ_of_le hle, fun k hk hkst => ?_, hstay⟩
      rcases Nat.lt_or_eq_of_le hkst with hlt | rfl
      · exact hleft k hk (Nat.le_of_lt_succ hlt)
      · exact hfall
    · next hstays => exact ⟨Nat.le_refl _, fun k hk hkst => absurd hk (Nat.not_lt.mpr hkst), fun _ => Nat.not_le.mp hstays⟩

/-- The state a reading leads to: a hotter one at once, a cooler one by the fall. -/
def Stack.nextRefresh (x : Stack) (t : Nat) : Nat := if x.refresh ≤ refreshAt t then refreshAt t else refreshFall x.refresh t

theorem Stack.nextRefresh_of_rise {x : Stack} {t : Nat} (h : x.refresh ≤ refreshAt t) : x.nextRefresh t = refreshAt t := if_pos h

theorem Stack.nextRefresh_of_fall {x : Stack} {t : Nat} (h : refreshAt t < x.refresh) : x.nextRefresh t = refreshFall x.refresh t :=
  if_neg (Nat.not_le.mpr h)

/-- A reading sets the temperature and the state of its stack. -/
def State.readTemperature (s : State) (k : StackId) (temp : Byte) : State :=
  s.setStack k.val { s.stack k.val with temp := temp, refresh := (s.stack k.val).nextRefresh temp.toNat }

/-- What a reading tells: throttled beats are counted, and the change to throttled is raised and logged. -/
theorem exec_stackTemperatureRead (s : State) (k : StackId) (temp : Byte) : ∃ u, Laws.Notices (s.readTemperature k temp) u
    ∧ exec (.stackTemperatureRead k temp) s = .next (if 112 ≤ temp.toNat then
        { u with boot := { u.boot with thermN := true } }.deviceFault 0x7247 k.val temp.toNat 0 else u) := by
  let t := s.readTemperature k temp
  let w := if (s.stack k.val).nextRefresh temp.toNat = 3 then t.wait (pageHbm k.val + 0x6C) else t
  have hw : Laws.Notices t w := .ite (.wait ..) (.refl t)
  refine ⟨if (s.stack k.val).nextRefresh temp.toNat = 3 ∧ (s.stack k.val).refresh ≠ 3
    then (w.raise (pageHbm k.val) 2).logPkg 0xA241 k.val temp.toNat 0 else w,
    hw.trans (.ite ((Laws.Notices.raise ..).trans (.logPkg ..)) (.refl w)), ?_⟩
  rw [apply_ite Host.Outcome.next]
  rfl

/-- A reading changes its own stack, asserts THERM_N from 112 °C on, and below leaves the package and the outstanding operations. -/
theorem exec_stackTemperatureRead_stacks (s : State) (k : StackId) (temp : Byte) : ∃ t, exec (.stackTemperatureRead k temp) s = .next t
    ∧ t.hbms = (s.readTemperature k temp).hbms ∧ (112 ≤ temp.toNat → t.boot.thermN = true)
    ∧ (temp.toNat < 112 → t.boot = s.boot ∧ t.ops = s.ops) := by
  obtain ⟨u, hu, hexec⟩ := exec_stackTemperatureRead s k temp
  by_cases hhot : 112 ≤ temp.toNat
  · rw [if_pos hhot] at hexec
    obtain ⟨hhbms, hpin⟩ := State.deviceFault_stacks { u with boot := { u.boot with thermN := true } } 0x7247 k.val temp.toNat 0
    exact ⟨_, hexec, hhbms.trans hu.hbms, fun _ => hpin, fun hcool => absurd hhot (Nat.not_le.mpr hcool)⟩
  · rw [if_neg hhot] at hexec
    exact ⟨u, hexec, hu.hbms, fun h => absurd h hhot, fun _ => ⟨hu.boot, hu.ops⟩⟩

/-! ## Training (R234, R240) -/

theorem State.any_stackPages (s : State) (st : Nat) (p : Nat × BitVec 64 → Bool) :
    (s.stackPages st).any p = true ↔ ∃ x ∈ s.dir, x.1 / 2 ^ 20 = st ∧ p x = true := by
  simp only [stackPages, List.any_eq_true, List.mem_filter, decide_eq_true_eq, and_assoc]

theorem State.stackConfidential_eq_false {s : State} {st : Nat} (h : ∀ f, (s.fn f).sec.confidential = true → (s.fn f).granules st = 0) :
    s.stackConfidential st = false := by
  simp only [stackConfidential, List.any_eq_false, Bool.and_eq_true, decide_eq_true_eq, not_and, ne_eq, Decidable.not_not]
  exact fun f _ => h f

end Sys2Proof.Machine

namespace Sys2Proof.Laws

open Sys2Proof.Machine Sys2Proof.Safety

section
variable {s b : State} {q : QueueId} {d : Desc} {o : Op} {rate : BitVec 2} {spared : Nat}

theorem exec_retrainStack_of_control (h : Control s q d 0x72 o b) (hst : fld d 132 128 < 24) : exec (.retrainStack q d rate spared) s =
    .next (if (b.stackPages (fld d 132 128)).any (fun x => decide (pgRef x.2 ≠ 0)) then b.faultOp o 0x51
      else (b.trained (fld d 132 128) rate spared).done o) :=
  (congrArg Host.Outcome.next (control_issue h rfl _)).trans (congrArg _ (if_neg (Nat.not_le.mpr hst)))

theorem exec_marginSweep_of_control {w h : Byte} (hc : Control s q d 0x73 o b) (hst : fld d 132 128 < 24)
    (hfree : b.stackClaimed (fld d 132 128) = false) (hopen : b.stackConfidential (fld d 132 128) = false) :
    exec (.marginSweep q d w h rate spared) s = .next (((b.sweepResult (fld d 132 128) w h).trained (fld d 132 128) rate spared).done o) := by
  refine (congrArg Host.Outcome.next (control_issue hc rfl _)).trans (congrArg _ ((if_neg (Nat.not_le.mpr hst)).trans (if_neg ?_)))
  simp only [hfree, hopen, Bool.false_eq_true, or_self, not_false_eq_true]

end

/-- Settles O14: the operations are training behind their checks, and a reading sets its own stack; what it tells, and the device fault
of 112 °C, leave the stacks. -/
theorem stackState : Obligations.StackState := by
  refine ⟨fun s b q d o rate spared w h => ?operations, fun s k temp => ?temperature⟩
  case operations =>
    intro st hst trained
    refine ⟨fun hc hidle => ?idle, fun hc hreferred => ?referred, fun hc hunclaimed hopen => ?sweep⟩
    case idle =>
      refine (exec_retrainStack_of_control hc hst).trans (congrArg _ (if_neg ?_))
      rw [State.any_stackPages]
      rintro ⟨x, hx, hxst, href⟩
      exact of_decide_eq_true href (hidle x hx hxst)
    case referred =>
      obtain ⟨x, hx, hxst, href⟩ := hreferred
      exact (exec_retrainStack_of_control hc hst).trans (congrArg _ (if_pos
        ((State.any_stackPages ..).mpr ⟨x, hx, hxst, decide_eq_true href⟩)))
    case sweep =>
      have hfree : b.stackClaimed st = false := by
        rw [State.stackClaimed, Bool.eq_false_iff, ne_eq, State.any_stackPages]
        rintro ⟨x, hx, hxst, htier⟩
        exact (of_decide_eq_true htier).elim (hunclaimed x hx hxst).1 (hunclaimed x hx hxst).2
      refine (exec_marginSweep_of_control hc hst hfree (State.stackConfidential_eq_false hopen)).trans ?_
      rw [State.sweepResult, pageHbm, Nat.add_right_comm]
      rfl
  case temperature =>
    intro x r bound
    obtain ⟨t, hexec, hhbms, hpin, hcool⟩ := exec_stackTemperatureRead_stacks s k temp
    have hself : t.stack k.val = { x with temp := temp, refresh := x.nextRefresh temp.toNat } :=
      (State.stack_congr hhbms _).trans (State.stack_setStack ..)
    refine ⟨t, hexec, congrArg Stack.temp hself, ?_⟩
    have hrefresh : (t.stack k.val).refresh = x.nextRefresh temp.toNat := congrArg Stack.refresh hself
    rw [hrefresh]
    refine ⟨fun hrise => Stack.nextRefresh_of_rise hrise, fun hfall _ => ?_, hpin, hcool, fun j hj => ?_⟩
    · rw [Stack.nextRefresh_of_fall hfall]
      exact refreshFall_spec x.refresh temp.toNat
    · exact (State.stack_congr hhbms _).trans (State.stack_setStack_ne _ _ _ _ hj.symm)

end Sys2Proof.Laws

/-! # Frames and the passes of a queue (R242, R243, R252, R253, R353, R354, R424) -/

namespace Sys2Proof.Machine

/-- DETAIL of one word alone (R424). -/
theorem packDetail_word (n : Nat) : packDetail [(32, n)] = n % 2 ^ 32 := by
  simp only [packDetail, List.foldl_cons, List.foldl_nil, Nat.zero_add]
  omega

section
variable {s : State} {f : FnId} {n : Nat}

theorem State.cutNow_eq_false {r : Replace} (hpolicy : (s.fn f).swapCut = false) (hlimit : f ∉ r.cut) : s.cutNow r f = false := by
  rw [cutNow, hpolicy, Bool.false_or, List.contains_eq_mem, decide_eq_false hlimit]

theorem State.beginGen_of_no_replace (h : (s.frame n).replace = none) (first : Bool) :
    s.beginGen f n first = some (frGen (s.frame n).record) := by
  simp only [beginGen, h]

/-- Behind a replacement the swapped layers, the pass and the function's policy decide on the generation (R253). -/
theorem State.beginGen_of_replace {r : Replace} (h : (s.frame n).replace = some r) (first : Bool) :
    s.beginGen f n first = if r.swapped ≠ 0 then some (frGen (s.frame n).record)
      else if first || s.cutNow r f then none else some ((frGen (s.frame n).record + 65535) % 65536) := by
  simp only [beginGen, h]

/-- The overrun of a request whose class is loaded. -/
theorem State.overrun_of_class {cls beat passes : Nat} (h : SMap.get 0 (s.fn f).classes cls ≠ 0) :
    s.overrun f (cls, beat, passes) = (s.beatNow - (beat + fld (SMap.get 0 (s.fn f).classes cls) 95 64
      + passes * fld (SMap.get 0 (s.fn f).classes cls) 127 96), s) := by
  simp only [overrun, if_neg h]

end

end Sys2Proof.Machine

namespace Sys2Proof.Laws

open Sys2Proof.Machine Sys2Proof.Safety

section
variable {s b : State} {q : QueueId} {d : Desc} {o : Op}

theorem exec_defineFrame_of_control {r : BitVec 512} (h : Control s q d 0x30 o b) (hrec : b.recordCause o (ctAddr d) 64 = 0)
    (hr : BitVec.ofNat 512 (b.nat (b.readAddr o.fn (ctAddr d)) 64) = r) (hcause : b.defineCause r = 0) :
    exec (.defineFrame q d) s = .next ((b.defineFrame r).done o) := by
  refine (congrArg Host.Outcome.next (control_issue h rfl _)).trans ?_
  rw [← (Issues_desc h.issues).1] at hr hrec ⊢
  simp only [State.record, hrec, hr, hcause, ne_eq, not_true_eq_false, if_false]

theorem exec_measureFrame_of_control (h : Control s q d 0x3E o b) (hdefined : (b.frame (ctFrame d)).defined = true)
    (howner : frOwner (b.frame (ctFrame d)).record = o.fn.val) :
    exec (.measureFrame q d) s = .next ((b.setFrame (ctFrame d) { b.frame (ctFrame d) with digestState := 1 }).done o) := by
  refine (congrArg Host.Outcome.next (control_issue h rfl _)).trans ?_
  simp only [hdefined, howner, Bool.not_true, Bool.false_eq_true, ne_eq, not_true_eq_false, if_false]

/-- A pass of a bound frame begins under its generation, or waits where it has none (R252, R253). -/
theorem exec_passBegin_of_control (h : Control s q d 0x3B o b) (hdefined : (b.frame (ctFrame d)).defined = true)
    (hbound : ctFrame d ∈ (b.fn o.fn).frames) (hidle : (b.queue q.val).pass = none) :
    exec (.passBegin q d) s = .next ((b.beginGen o.fn (ctFrame d) (flag d 136)).elim (b.park (.passBegin q d) o)
      (fun gen => (b.setQueue q.val ((b.queue q.val).beginPass o (ctFrame d) gen)).done o)) := by
  refine (congrArg Host.Outcome.next (control_issue h rfl _)).trans (congrArg _ ?_)
  simp only [hdefined, State.bound, hbound, hidle, Bool.not_true, decide_true, Bool.false_eq_true, or_self, Option.isSome_none, if_false]
  cases b.beginGen o.fn (ctFrame d) (flag d 136) <;> rfl

theorem exec_passEnd_of_control (h : Control s q d 0x3C o b) (hpass : (b.queue q.val).pass.map (·.1) = some (ctFrame d))
    (hreq : (b.queue q.val).request = none) :
    exec (.passEnd q d) s = .next ((b.setQueue q.val ((b.queue q.val).endPass (flag d 137))).done o) := by
  refine (congrArg Host.Outcome.next (control_issue h rfl _)).trans ?_
  simp only [hpass, hreq, ne_eq, not_true_eq_false, if_false]
  rfl

/-- The end of a pass of a request reports by how many beats it is late (R424). -/
theorem exec_passEnd_of_request {cls beat passes late : Nat} (h : Control s q d 0x3C o b)
    (hpass : (b.queue q.val).pass.map (·.1) = some (ctFrame d)) (hreq : (b.queue q.val).request = some (cls, beat, passes))
    (hlate : b.overrun o.fn (cls, beat, passes) = (late, b)) :
    exec (.passEnd q d) s
      = .next ((b.setQueue q.val ((b.queue q.val).endPass (flag d 137))).complete o 0 0 0 (late % 2 ^ 32)) := by
  refine (congrArg Host.Outcome.next (control_issue h rfl _)).trans ?_
  simp only [hpass, hreq, hlate, packDetail_word, ne_eq, not_true_eq_false, if_false]

theorem exec_setSwapPolicy_of_control (h : Control s q d 0x3D o b) (hpolicy : flag d 128 = true ∨ fld d 191 160 ≠ 0) :
    exec (.setSwapPolicy q d) s
      = .next ((b.setFn o.fn { b.fn o.fn with swapCut := flag d 128, drainLimit := fld d 191 160 }).done o) := by
  have hgood : ¬((!flag d 128) = true ∧ fld d 191 160 = 0) := fun ⟨hdrain, hzero⟩ =>
    hpolicy.elim (fun hcut => by simp [hcut] at hdrain) (· hzero)
  exact (congrArg Host.Outcome.next (control_issue h rfl _)).trans (congrArg _ (if_neg hgood))

end

/-- Settles O20: each command reaches its own effect, and a defined frame is read where it was written. -/
theorem frameDefined : Obligations.FrameDefined := by
  refine fun s b q d o n => ⟨fun h hrec => ?define, fun h hdefined howner => exec_measureFrame_of_control h hdefined howner,
    fun hdefined hpending => if_pos ⟨hdefined, hpending⟩⟩
  intro r hcause
  have hframe := State.frame_setFrame b.draw.2.draw.2 (fld r 7 0) { FrameState.reset with
    defined := true, record := withFld r 31 16 0, width := b.draw.1, ffWidth := b.draw.2.draw.1, digestState := 1 }
  refine ⟨b.defineFrame r, exec_defineFrame_of_control h hrec rfl hcause, congrArg FrameState.defined hframe,
    congrArg FrameState.record hframe, congrArg FrameState.digestState hframe, congrArg FrameState.mortises hframe,
    congrArg FrameState.replace hframe, fun k hk => State.frame_setFrame_ne _ _ _ _ hk.symm, rfl, rfl⟩

/-- Settles O22: a pass begins under the generation that its frame's replacement leaves it, and its end tells its lateness. -/
theorem passesRun : Obligations.PassesRun := by
  intro s b q d o x n gen began
  refine ⟨fun h hdefined hbound hidle => ?begins, fun h hreq hpass => ?ends, fun h cls beat passes hreq hpass hclass => ?request,
    fun h hpolicy => exec_setSwapPolicy_of_control h hpolicy⟩
  case begins =>
    have hexec {z : Option Nat} (hgen : b.beginGen o.fn n (flag d 136) = z) : exec (.passBegin q d) s
        = .next (z.elim (b.park (.passBegin q d) o) (fun g => (b.setQueue q.val (x.beginPass o n g)).done o)) :=
      hgen ▸ exec_passBegin_of_control h hdefined hbound hidle
    have hbegan {g : Nat} (hgen : b.beginGen o.fn n (flag d 136) = some g) : began g := by
      obtain rfl : o.desc = d := (Issues_desc h.issues).1
      exact hexec hgen
    refine ⟨fun hstill => hbegan (State.beginGen_of_no_replace hstill _), fun r hr => ?_⟩
    have hgen := State.beginGen_of_replace (f := o.fn) hr (flag d 136)
    refine ⟨fun hswapped => hbegan (hgen.trans (if_pos hswapped)), fun hnone hlater hpolicy hlimit => hbegan ?old,
      fun hnone hfirst => hexec (z := none) ?held⟩
    case old => rw [hgen, if_neg (not_not_intro hnone), hlater, State.cutNow_eq_false hpolicy hlimit]; rfl
    case held => rw [hgen, if_neg (not_not_intro hnone), hfirst]; rfl
  case ends =>
    obtain ⟨g, cur, hpass⟩ := hpass
    rw [exec_passEnd_of_control h (by rw [hpass]; rfl) hreq, Queue.endPass, hreq]
    simp only [Option.map_none, ite_self, x]
  case request =>
    obtain ⟨g, cur, hpass⟩ := hpass
    rw [exec_passEnd_of_request h (by rw [hpass]; rfl) hreq (State.overrun_of_class hclass), Queue.endPass, hreq]
    rfl

end Sys2Proof.Laws

/-! # Contexts: their states, their scrub and their checks (R173, R246, R248 to R251, R255, R256) -/

namespace Sys2Proof.SMap

variable {α : Type} {d : α} {m : SMap α}

/-- What a key reads is the default or a value that the map lists. -/
theorem get_cases (k : Nat) : get d m k = d ∨ ∃ p ∈ m, p.2 = get d m k := by
  induction m with
  | nil => exact .inl rfl
  | cons p m ih =>
    obtain ⟨a, v⟩ := p
    rw [get]
    split
    · exact .inr ⟨_, List.mem_cons_self, rfl⟩
    · exact ih.imp_right fun ⟨p, hp, hv⟩ => ⟨p, List.mem_cons_of_mem _ hp, hv⟩

/-- A change of every value shows in every read, where it keeps the default. -/
theorem get_map_value {g : α → α} (hd : g d = d) (k : Nat) : get d (m.map fun p => (p.1, g p.2)) k = g (get d m k) := by
  induction m with
  | nil => exact hd.symm
  | cons p m ih =>
    simp only [List.map_cons, get, ih]
    exact (apply_ite g ..).symm

end Sys2Proof.SMap

namespace Sys2Proof.Machine

/-- No check of a list fails. -/
theorem firstCause_eq_zero {checks : List (Bool × Nat)} (h : ∀ x ∈ checks, x.1 = false) : firstCause checks = 0 := by
  induction checks with
  | nil => rfl
  | cons x checks ih =>
    obtain ⟨hx, hrest⟩ := List.forall_mem_cons.mp h
    rw [firstCause, hx]
    exact ih hrest

/-! ## The scrub (R173, R251) -/

/-- A state in which a context holds no mortise and no cached slice. -/
def State.unclaimed (s : State) (c : Nat) : State := { s.freeMortises c with fns := s.fns.map fun y => y.dropSlices c }

section
variable (s : State) (c : Nat)

theorem State.frame_unclaimed (n : Nat) : (s.unclaimed c).frame n = (s.frame n).freed c :=
  SMap.get_map_value (d := FrameState.reset) (g := fun x : FrameState => x.freed c) rfl n

theorem FrameState.mortise_freed_ne (x : FrameState) (m : Nat) : SMap.get 0 (x.freed c).mortises m ≠ c + 1 := by
  rcases SMap.get_cases (d := 0) (m := (x.freed c).mortises) m with hfree | ⟨p, hp, hv⟩
  · rw [hfree]
    exact (Nat.succ_ne_zero c).symm
  · exact hv ▸ of_decide_eq_true (List.mem_filter.mp hp).2

theorem State.fn_unclaimed (f : FnId) : (s.unclaimed c).fn f = (s.fn f).dropSlices c := by
  simp only [fn, unclaimed, Fin.getElem_fin, Vector.getElem_map]

/-- Changing a range of watch entries touches memory alone. -/
theorem State.mapWatch_range_rest (f : FnId) (first n : Nat) (g : BitVec 1024 → BitVec 1024) :
    ∃ m p, s.mapWatch f ((List.range n).map (· + first)) g = { s with mem := m, poison := p } :=
  ⟨_, _, (mapWatch_range ..).trans (changeEntries_rest ..)⟩

theorem Fn.slices_dropSlices {x : Fn} {c : Nat} {z : Slice} (h : z ∈ (x.dropSlices c).slices) : z.ctx ≠ c :=
  of_decide_eq_true (List.mem_filter.mp h).2

end

/-- A change of the step state depends on what it makes of the present one alone. -/
theorem State.modStep_congr {s : State} {f : FnId} {g g' : StepState → StepState} (h : g (s.fn f).step = g' (s.fn f).step) :
    s.modStep f g = s.modStep f g' :=
  congrArg (fun st => s.setFn f { s.fn f with step := st }) h

/-! ## Probes (R256) -/

/-- Does a row of a fresh record agree with the stored one, in both of its values? -/
def State.rowAgrees (s : State) (f : FnId) (key : Nat) (x : BitVec 1024) (record : BitVec 512) (i : Nat) : Bool :=
  let v := s.nat (key + 4 * i) 4
  let w := s.nat (s.readAddr f (cxProbeAddr x) + 4 * i) 4
  probePass record (v % 65536) (w % 65536) && probePass record (v / 65536) (w / 65536)

section
variable {s : State} {f : FnId} {key : Nat} {x : BitVec 1024} {record : BitVec 512}

theorem State.probeFailRow_eq_none (h : ∀ i < cxProbeRows x, s.rowAgrees f key x record i = true) :
    s.probeFailRow f key x record = none :=
  List.find?_eq_none.mpr fun i hi hfail => Bool.false_ne_true ((congrArg Bool.not (h i (List.mem_range.mp hi))).symm.trans hfail)

theorem State.probeFailRow_eq_some {i : Nat} (hi : i < cxProbeRows x) (hfail : s.rowAgrees f key x record i = false)
    (hbefore : ∀ j < i, s.rowAgrees f key x record j = true) : s.probeFailRow f key x record = some i := by
  refine List.find?_range_eq_some.mpr ⟨?_, List.mem_range.mpr hi, fun j hj => ?_⟩
  · exact congrArg Bool.not hfail
  · exact (Bool.not_not _).trans (hbefore j hj)

end

/-! ## Promotion (R167, R248) -/

theorem State.installSlice_dir (s : State) (f : FnId) (own : Option OpRef) (x : Slice) : (s.installSlice f own x).1.dir = s.dir := by
  unfold installSlice
  dsimp only
  split
  · rfl
  · split
    · rfl
    · split
      · split <;> rfl
      · rfl

/-- Slices of a context enter the cache one after the other. -/
def State.installSlices (s : State) (f : FnId) (xs : List Slice) : State := xs.foldl (fun s x => (s.installSlice f none x).1) s

theorem State.installSlices_dir (s : State) (f : FnId) (xs : List Slice) : (s.installSlices f xs).dir = s.dir :=
  List.foldlRecOn (motive := fun t => t.dir = s.dir) xs _ rfl fun t ht x _ => (installSlice_dir t f none x).trans ht

/-! ## Read of a descriptor (R246) -/

theorem toNat_ofNat_mod {w : Nat} (x : BitVec w) (m : Nat) : (BitVec.ofNat w (x.toNat % m)).toNat = x.toNat % m := by
  rw [BitVec.toNat_ofNat, Nat.mod_eq_of_lt (Nat.lt_of_le_of_lt (Nat.mod_le ..) x.isLt)]

theorem State.cxOwner_ctxImage (s : State) (c : Nat) : cxOwner (s.ctxImage c) = cxOwner (s.ctx c) :=
  fld_withFld_of_disjoint (by omega) (by omega) (by omega) _ _

theorem State.ctxShown_toNat (s : State) (mgmt : Bool) (c : Nat) : (s.ctxShown mgmt c).toNat
    = if mgmt = true ∧ (s.fn (fnId (cxOwner (s.ctx c)))).sec.confidential = true then (withFld (s.ctx c) 15 0 c).toNat % 2 ^ 35
      else (withFld (s.ctx c) 15 0 c).toNat := by
  simp only [ctxShown, cxOwner_ctxImage, Bool.and_eq_true]
  split
  · exact toNat_ofNat_mod ..
  · rfl

end Sys2Proof.Machine

namespace Sys2Proof.Laws

open Sys2Proof.Machine Sys2Proof.Safety

section
variable {s b : State} {q : QueueId} {d : Desc} {o : Op}

/-! ## Issue of a context operation (Table 10-3) -/

section
variable {i : Sys2Proof.Instr} {code : Nat} {states : List Nat} (h : Control s q d code o b) (hi : carried i = some (q, d, 6, code, true))
include h hi

theorem ctxIssue_of_control (k : Op → State → State) : s.ctxIssue i states k =
    if (b.fn o.fn).hasCtx (ctCtx d) = false then b.faultOp o 0x58
    else if cxState (b.ctx (ctCtx d)) ∉ states then b.faultOp o 0x59 else k o b := by
  obtain rfl : o.desc = d := (Issues_desc h.issues).1
  refine (control_issue h hi _).trans ?_
  simp only [Bool.not_eq_true', List.contains_eq_mem, decide_eq_false_iff_not]

theorem ctxIssue_of_state (hknown : (b.fn o.fn).hasCtx (ctCtx d) = true) (hstate : cxState (b.ctx (ctCtx d)) ∈ states)
    (k : Op → State → State) : s.ctxIssue i states k = k o b := by
  rw [ctxIssue_of_control h hi, hknown, if_neg Bool.true_eq_false.mp, if_neg (not_not_intro hstate)]

theorem ctxIssue_of_unknown (hunknown : (b.fn o.fn).hasCtx (ctCtx d) = false) (k : Op → State → State) :
    s.ctxIssue i states k = b.faultOp o 0x58 := by
  rw [ctxIssue_of_control h hi, if_pos hunknown]

theorem ctxIssue_of_other_state (hknown : (b.fn o.fn).hasCtx (ctCtx d) = true) (hstate : cxState (b.ctx (ctCtx d)) ∉ states)
    (k : Op → State → State) : s.ctxIssue i states k = b.faultOp o 0x59 := by
  rw [ctxIssue_of_control h hi, hknown, if_neg Bool.true_eq_false.mp, if_pos hstate]

end

/-! ## Changes of state -/

section
variable (hknown : (b.fn o.fn).hasCtx (ctCtx d) = true)
include hknown

theorem exec_beginTraining_of_control (h : Control s q d 0x33 o b) (hstate : cxState (b.ctx (ctCtx d)) ∈ [1, 2]) :
    exec (.beginTraining q d) s = .next (
      if cxSlice1 (b.ctx (ctCtx d)) = 0 ∨ cxOptAddr (b.ctx (ctCtx d)) = 0 then b.faultOp o 0x5B
      else (b.ctxState (ctCtx d) 3).done o) :=
  congrArg Host.Outcome.next (ctxIssue_of_state h rfl hknown hstate _)

theorem exec_endTraining_of_control (h : Control s q d 0x34 o b) (hstate : cxState (b.ctx (ctCtx d)) = 3) :
    exec (.endTraining q d) s = .next (
      if b.mapped o.fn = true then (b.modStep o.fn (fun st => { st with
        ending := if st.ending.contains (ctCtx d) then st.ending else st.ending ++ [ctCtx d] })).done o
      else (b.ctxState (ctCtx d) 2).done o) :=
  congrArg Host.Outcome.next (ctxIssue_of_state h rfl hknown (List.mem_singleton.mpr hstate) _)

/-- A training of a job ends at the step boundary (R250). -/
theorem exec_endTraining_of_job (h : Control s q d 0x34 o b) (hstate : cxState (b.ctx (ctCtx d)) = 3) (hjob : b.mapped o.fn = true)
    (hnew : ctCtx d ∉ (b.fn o.fn).step.ending) :
    exec (.endTraining q d) s
      = .next ((b.modStep o.fn (fun st => { st with ending := st.ending ++ [ctCtx d] })).done o) := by
  rw [exec_endTraining_of_control hknown h hstate, if_pos hjob]
  refine congrArg (fun t : State => Host.Outcome.next (t.done o)) (State.modStep_congr ?_)
  rw [if_neg (mt List.contains_iff_mem.mp hnew)]

/-! ## Checks -/

theorem exec_relocate_of_control (h : Control s q d 0x35 o b) (hstate : cxState (b.ctx (ctCtx d)) ∈ [1, 2, 4]) {fr : FrameState}
    (hfr : b.frame (cxFrame (b.ctx (ctCtx d))) = fr) (hdefined : fr.defined = true)
    (hbound : cxFrame (b.ctx (ctCtx d)) ∈ (b.fn o.fn).frames) (hshape : ctxShapeBad fr (relocated (b.ctx (ctCtx d)) d) = false)
    (hplaced : b.ctxPlaced o.fn fr (relocated (b.ctx (ctCtx d)) d) = true) :
    exec (.relocate q d) s = .next ((b.setCtx (ctCtx d) (relocated (b.ctx (ctCtx d)) d)).done o) := by
  have hframe : cxFrame (relocated (b.ctx (ctCtx d)) d) = cxFrame (b.ctx (ctCtx d)) := by
    simp (disch := omega) only [cxFrame, relocated, fld_withFld_of_disjoint]
  refine (congrArg Host.Outcome.next (ctxIssue_of_state h rfl hknown hstate _)).trans (congrArg _ (if_neg (not_not_intro ?_)))
  simp only [hframe, hfr, hdefined, hshape, hplaced, State.bound, hbound, decide_true, Bool.not_true, Bool.or_self, Bool.and_false]
  rfl

/-- A promotion that nothing refuses and nothing holds installs what the cache lacks (R248). -/
theorem exec_promote_of_control (h : Control s q d 0x36 o b) (hstate : cxState (b.ctx (ctCtx d)) ∈ [2, 3])
    (hrange : fld d 151 144 ≤ fld d 159 152)
    (hlayers : fld d 159 152 < frLayers (b.frame (cxFrame (b.ctx (ctCtx d)))).record)
    (hready : ∀ z ∈ b.layerSlices (ctCtx d) (fld d 151 144) (fld d 159 152), b.gatherCause o.fn z = 0 ∧ b.gatherWaits o.fn z = false) :
    exec (.promote q d) s = .next ((b.installSlices o.fn
      ((b.layerSlices (ctCtx d) (fld d 151 144) (fld d 159 152)).filter (fun x => !b.sliceCached o.fn x))).done o) := by
  generalize hslices : b.layerSlices (ctCtx d) (fld d 151 144) (fld d 159 152) = slices at hready
  have hcause : firstCause (slices.map (fun x => (decide (b.gatherCause o.fn x ≠ 0), b.gatherCause o.fn x))) = 0 := by
    refine firstCause_eq_zero fun y hy => ?_
    obtain ⟨z, hz, rfl⟩ := List.mem_map.mp hy
    exact decide_eq_false (not_not_intro (hready z hz).1)
  have hwaits : ¬slices.any (b.gatherWaits o.fn) = true := by
    rw [List.any_eq_true]
    exact fun ⟨z, hz, hw⟩ => Bool.false_ne_true ((hready z hz).2.symm.trans hw)
  have hfits : ¬(fld d 159 152 < fld d 151 144 ∨ frLayers (b.frame (cxFrame (b.ctx (ctCtx d)))).record ≤ fld d 159 152) := by omega
  refine (congrArg Host.Outcome.next (ctxIssue_of_state h rfl hknown hstate _)).trans (congrArg _ ?_)
  simp only [hslices, if_neg hfits, hcause, ne_eq, not_true_eq_false, if_false, if_neg hwaits]
  rfl

/-- A probe of a stale generation ends by the first row that does not agree (R256). -/
theorem exec_probeCheck_of_control {k : CoreId} (h : Control s q d 0x37 o b) (hstate : cxState (b.ctx (ctCtx d)) ∈ [1, 2])
    {fr : FrameState} (hfr : b.frame (cxFrame (b.ctx (ctCtx d))) = fr) (hstale : cxFrameGen (b.ctx (ctCtx d)) ≠ frGen fr.record)
    (hfits : fld d 167 144 + 4 * cxProbeRows (b.ctx (ctCtx d)) ≤ 0xC00000) (hcore : b.coreOf o = some k) :
    exec (.probeCheck q d) s = .next (
      (b.probeFailRow o.fn (spKey k.val (fld d 167 144)) (b.ctx (ctCtx d)) fr.record).elim
        ((b.setCtx (ctCtx d) (withFld (b.ctx (ctCtx d)) 115 100 (frGen fr.record))).done o)
        (fun row => (((b.ctxState (ctCtx d) 4).count 0x506C).raise 0x5000 1).complete o 1 0x5F 0 (row % 2 ^ 32))) := by
  have hok : spOk (fld d 167 144) (4 * cxProbeRows (b.ctx (ctCtx d))) = true := decide_eq_true hfits
  refine (congrArg Host.Outcome.next (ctxIssue_of_state h rfl hknown hstate _)).trans (congrArg _ ?_)
  simp only [hfr, if_neg hstale, hok, hcore, Bool.not_true, Bool.false_eq_true, if_false, packDetail_word]
  cases b.probeFailRow o.fn (spKey k.val (fld d 167 144)) (b.ctx (ctCtx d)) fr.record <;> rfl

end

theorem exec_readContext_of_control (h : Control s q d 0x39 o b) (hseen : b.isMgmt o = true ∨ (b.fn o.fn).hasCtx (ctCtx d) = true) :
    exec (.readContext q d) s = .next (b.deliver (.readContext q d) o false
      (leBytes 128 (b.ctxShown (b.isMgmt o) (ctCtx d)).toNat) (fun u => u.done o)) := by
  have hsees : ¬((!b.isMgmt o) = true ∧ (!(b.fn o.fn).hasCtx (ctCtx d)) = true) := fun ⟨hfn, hout⟩ =>
    hseen.elim (fun hm => by simp [hm] at hfn) (fun hk => by simp [hk] at hout)
  exact (congrArg Host.Outcome.next (control_issue h rfl _)).trans (congrArg _ (if_neg hsees))

end

/-- A clean scrub of a released context without references; its watch entries change memory alone (R251). -/
theorem exec_contextScrub_clean {s : State} {ctx : BitVec 16} (hstate : cxState (s.ctx ctx.toNat) = 5)
    (hrefs : cxRefs (s.ctx ctx.toNat) = 0) : ∃ m p, exec (.contextScrub ctx true) s
      = .next (({ s.unclaimed ctx.toNat with mem := m, poison := p }).setCtx ctx.toNat ctxReset) := by
  have hreleased : ¬(cxState (s.ctx ctx.toNat) ≠ 5 ∨ cxRefs (s.ctx ctx.toNat) ≠ 0) := by simp only [hstate, hrefs]; decide
  obtain ⟨m, p, hwatch⟩ := (s.unclaimed ctx.toNat).mapWatch_range_rest (fnId (cxOwner (s.ctx ctx.toNat)))
    (cxWatchFirst (s.ctx ctx.toNat)) (cxWatchCount (s.ctx ctx.toNat)) (fun _ => 0)
  exact ⟨m, p, (if_neg hreleased).trans (congrArg (fun t : State => Host.Outcome.next (t.setCtx ctx.toNat ctxReset)) hwatch)⟩

/-- Settles O23: each change of state stands behind the range of the function and the states it allows, and a clean scrub leaves a state
in which the context claims nothing. -/
theorem contextStates : Obligations.ContextStates := by
  refine ⟨fun s b q d o => ?states, fun s ctx => ?scrub⟩
  case states =>
    intro c x goes known
    refine ⟨fun h => ?activate, fun h hknown hstate => ?begins, fun h hknown hstate => ?ends, fun h hknown hlow hhigh => ?release⟩
    case activate =>
      refine ⟨fun hknown hstate => ?_, fun hunknown => ?_, fun hknown hstate => ?_⟩
      · exact congrArg Host.Outcome.next (ctxIssue_of_state h rfl hknown (List.mem_singleton.mpr hstate) _)
      · exact congrArg Host.Outcome.next (ctxIssue_of_unknown h rfl (Bool.eq_false_iff.mpr hunknown) _)
      · exact congrArg Host.Outcome.next (ctxIssue_of_other_state h rfl hknown (mt List.mem_singleton.mp hstate) _)
    case begins =>
      have hexec := exec_beginTraining_of_control hknown h (List.mem_cons.mpr (hstate.imp_right List.mem_singleton.mpr))
      exact ⟨fun hside hopt => hexec.trans (congrArg _ (if_neg (not_or.mpr ⟨hside, hopt⟩))),
        fun hlacks => hexec.trans (congrArg _ (if_pos hlacks))⟩
    case ends =>
      have hexec := exec_endTraining_of_control hknown h hstate
      exact ⟨fun hfree => hexec.trans (congrArg _ (if_neg (Bool.eq_false_iff.mp hfree))),
        exec_endTraining_of_job hknown h hstate⟩
    case release =>
      have hstate : cxState x ∈ [1, 2, 3, 4] := by
        simp only [List.mem_cons, List.not_mem_nil, or_false]
        omega
      exact congrArg Host.Outcome.next (ctxIssue_of_state h rfl hknown hstate _)
  case scrub =>
    intro c
    refine ⟨fun hstate hrefs => ?clean, fun hheld clean => if_pos hheld⟩
    obtain ⟨m, p, hexec⟩ := exec_contextScrub_clean hstate hrefs
    refine ⟨_, hexec, State.ctx_setCtx .., fun k hk => State.ctx_setCtx_ne _ _ _ _ hk.symm, fun n k => ?mortises, fun f z hz => ?slices,
      rfl, rfl⟩
    case mortises =>
      have hframe := s.frame_unclaimed c n
      exact fun hk => FrameState.mortise_freed_ne c (s.frame n) k (hframe ▸ hk)
    case slices =>
      have hfn := s.fn_unclaimed c f
      exact Fn.slices_dropSlices (hfn ▸ hz)

/-- Settles O25: each check comes to its own effect; what a promotion installs lies in the function's cache alone. -/
theorem contextChecks : Obligations.ContextChecks := by
  intro s b q d o c x fr known moved
  refine ⟨fun h hknown hstate hdefined hbound hshape hplaced => ?relocate, fun h hknown hstate hrange hlayers hready => ?promote,
    fun h hknown hstate hstale hfits k hcore => ?probe, fun h hseen hcause hdecided => ?read⟩
  case relocate => exact exec_relocate_of_control hknown h hstate rfl hdefined hbound hshape hplaced
  case promote =>
    refine ⟨_, exec_promote_of_control hknown h hstate hrange hlayers hready, ?_⟩
    have hkept {xs : List Slice} : Gathers 0 b (b.installSlices o.fn xs) := .foldl _ _ _ fun t z => .installSlice t o.fn none z
    exact ⟨hkept.ctxs, hkept.mem, State.installSlices_dir .., hkept.ops⟩
  case probe =>
    have hexec : exec (.probeCheck q d) s = .next ((b.probeFailRow o.fn (spKey k.val (fld d 167 144)) x fr.record).elim _ _) :=
      exec_probeCheck_of_control hknown h hstate rfl hstale hfits hcore
    intro agrees
    have hrow (i : Nat) : b.rowAgrees o.fn (spKey k.val (fld d 167 144)) x fr.record i = true ↔ agrees i :=
      Bool.and_eq_true_iff
    refine ⟨fun hall => ?agree, fun i hi hfail hbefore => ?fail⟩
    case agree =>
      rw [hexec, State.probeFailRow_eq_none fun i hi => (hrow i).mpr (hall i hi)]
      rfl
    case fail =>
      have hsmall : i < 2 ^ 32 := Nat.lt_trans hi (Nat.lt_trans (fld_lt x 434 428) (by decide))
      rw [hexec, State.probeFailRow_eq_some hi (Bool.eq_false_iff.mpr (mt (hrow i).mp hfail)) fun j hj => (hrow j).mpr (hbefore j hj)]
      simp only [Option.elim_some, Nat.mod_eq_of_lt hsmall]
      rfl
  case read =>
    obtain rfl : o.desc = d := (Issues_desc h.issues).1
    intro shown
    have hlength := length_leBytes 128 (b.ctxShown (b.isMgmt o) (ctCtx o.desc)).toNat
    rw [exec_readContext_of_control h hseen, State.deliver_dev (by rwa [hlength]) (by rwa [hlength]), State.ctxShown_toNat]
    rfl

end Sys2Proof.Laws

/-! # Links and steps along the operations of the package (R260, R263, R271, R327)

Whatever follows from a lost link, from a HELLO or from a decision, no port gains or loses its link by it: a frame that goes out, or
one that leaves a receive buffer, changes no link, and a port without a link takes no frame. That is said once for every operation
that these may reach. A step boundary leaves the steps themselves too. -/

namespace Sys2Proof.Machine

/-- What a link is: its state and width, the partner as its HELLO says, and the SEQ expected next. -/
def Port.link (x : Port) : Nat × Nat × Nat × BitVec 512 × Nat × Nat := (x.st, x.width, x.mismatch, x.hello, x.helloCount, x.rxSeq)

/-- The second port has the link of the first; without a link it has sent nothing more; frames kept may only have left. -/
structure Port.Keeps (x y : Port) : Prop where
  link : y.link = x.link
  replay : x.st < 2 → y.replay = x.replay
  kept : y.kept.Sublist x.kept

namespace Port.Keeps

variable {x y z : Port}

theorem refl (x : Port) : x.Keeps x := ⟨rfl, fun _ => rfl, List.Sublist.refl _⟩

theorem st (h : x.Keeps y) : y.st = x.st := congrArg (·.1) h.link
theorem width (h : x.Keeps y) : y.width = x.width := congrArg (·.2.1) h.link
theorem mismatch (h : x.Keeps y) : y.mismatch = x.mismatch := congrArg (·.2.2.1) h.link
theorem hello (h : x.Keeps y) : y.hello = x.hello := congrArg (·.2.2.2.1) h.link
theorem helloCount (h : x.Keeps y) : y.helloCount = x.helloCount := congrArg (·.2.2.2.2.1) h.link
theorem rxSeq (h : x.Keeps y) : y.rxSeq = x.rxSeq := congrArg (·.2.2.2.2.2) h.link

theorem trans (h1 : x.Keeps y) (h2 : y.Keeps z) : x.Keeps z where
  link := h2.link.trans h1.link
  replay hst := (h2.replay (h1.st ▸ hst)).trans (h1.replay hst)
  kept := h2.kept.trans h1.kept

end Port.Keeps

/-- What a decision sets in a function's step. -/
def StepState.settled (st : StepState) : Bool × BitVec 64 × Nat × Bool × Nat × Option Decision :=
  (st.epoch, st.step, st.aborts, st.fail, st.lastCause, st.decision)

theorem State.port_congr {s t : State} (h : t.ports = s.ports) (p : Nat) : t.port p = s.port p := by simp only [port, h]

theorem State.sendOn_fns (s : State) (p : Nat) (fr : Frame) : (s.sendOn p fr).fns = s.fns := by
  unfold sendOn
  dsimp only
  split_ifs <;> rfl

theorem State.port_sendOn_ne {s : State} {p k : Nat} (h : k ≠ p) (fr : Frame) : (s.sendOn p fr).port k = s.port k := by
  unfold sendOn
  extract_lets x
  split_ifs
  · rfl
  · exact (port_congr (Laws.Notices.wait ..).ports k).trans (port_setPort_ne _ _ _ _ h.symm)
  · exact port_setPort_ne _ _ _ _ h.symm
  · rfl

end Sys2Proof.Machine

namespace Sys2Proof.Laws

open Sys2Proof.Machine

/-- Every port keeps its link from the first state to the second. -/
structure LinksKept (s t : State) : Prop where
  ports : ∀ p, (s.port p).Keeps (t.port p)

namespace LinksKept

variable {s t u : State}

theorem of_ports (h : t.ports = s.ports) : LinksKept s t := ⟨fun p => State.port_congr h p ▸ .refl _⟩

theorem refl (s : State) : LinksKept s s := of_ports rfl

theorem trans (h1 : LinksKept s t) (h2 : LinksKept t u) : LinksKept s u := ⟨fun p => (h1.ports p).trans (h2.ports p)⟩

theorem notices (h : Notices s t) : LinksKept s t := of_ports h.ports

theorem ite {c : Prop} [Decidable c] (ht : LinksKept s t) (hu : LinksKept s u) : LinksKept s (if c then t else u) := by
  split
  · exact ht
  · exact hu

theorem foldl {α : Type} (step : State → α → State) (xs : List α) (s : State) (h : ∀ s x, LinksKept s (step s x)) :
    LinksKept s (xs.foldl step s) :=
  List.foldlRecOn xs step (refl s) fun t ht x _ => ht.trans (h t x)

/-! ## Ports -/

theorem setPort {p : Nat} {x : Port} (h : (s.port p).Keeps x) : LinksKept s (s.setPort p x) where
  ports k := by
    by_cases hk : p = k
    · subst hk; rwa [State.port_setPort]
    · rw [State.port_setPort_ne _ _ _ _ hk]; exact .refl _

/-- A frame that goes out changes no link; a port without one sends nothing. -/
theorem sendOn (s : State) (p : Nat) (fr : Frame) : LinksKept s (s.sendOn p fr) := by
  unfold State.sendOn
  extract_lets x
  have hqueue : LinksKept s (s.setPort p { x with queued := x.queued ++ [fr] }) := setPort ⟨rfl, fun _ => rfl, .refl _⟩
  refine ite (refl s) ?_
  split
  · next hlink =>
    have hsend : LinksKept s (s.setPort p (x.transmit fr)) := setPort ⟨rfl, fun (hdown : x.st < 2) => absurd hdown (by omega), .refl _⟩
    exact ite (hqueue.trans (notices (.wait ..))) hsend
  · exact refl s

/-- Frames that leave the receive buffer give their credits back. -/
theorem dropKept (s : State) (f : FnId) : LinksKept s (s.dropKept f) :=
  foldl _ _ _ fun _ _ => setPort ⟨rfl, fun _ => rfl, List.filter_sublist⟩

theorem freeKept (s : State) (f : FnId) (ch : Nat) : LinksKept s (s.freeKept f ch) :=
  foldl _ _ _ fun _ _ => setPort ⟨rfl, fun _ => rfl, List.filter_sublist⟩

theorem setStore (s : State) (p : Nat) (l : List (Nat × Nat × List Frame)) :
    LinksKept s (s.setPort p { s.port p with store := l }) := setPort ⟨rfl, fun _ => rfl, .refl _⟩

/-! ## Operations that end, and messages that go out -/

theorem complete (s : State) (o : Op) (status cause n detail : Nat) : LinksKept s (s.complete o status cause n detail) :=
  of_ports (Notices.postRecord ..).ports

theorem kill (s : State) (o : Op) (status cause : Nat) : LinksKept s (s.kill o status cause) :=
  have hparked : LinksKept s { s with parked := (takeFirst (parkedFor o) s.parked).2 } := of_ports rfl
  hparked.trans (complete ..)

theorem killAll (s : State) (os : List Op) (status : Nat) : LinksKept s (s.killAll os status) := foldl _ _ _ fun s o => kill s o status 0

theorem sendDown (s : State) (msg : BitVec 256) : LinksKept s (s.sendDown msg) := foldl _ _ _ fun s p => sendOn s p _

theorem sendUpTree (s : State) (msg : BitVec 256) : LinksKept s (s.sendUpTree msg) := by
  unfold State.sendUpTree; split
  · exact sendOn ..
  · exact refl s

theorem sendMgmt (s : State) (chip : Nat) (payload : List Byte) : LinksKept s (s.sendMgmt chip payload) := by
  unfold State.sendMgmt; dsimp only; split
  · exact sendOn ..
  · exact refl s

theorem sendHello (s : State) (p : Nat) : LinksKept s (s.sendHello p) := ite (refl s) (sendOn ..)

theorem sendHellos (s : State) : LinksKept s s.sendHellos := foldl _ _ _ sendHello

theorem helloIfChanged (s before : State) : LinksKept s (s.helloIfChanged before) := ite (refl s) (sendHellos s)

end LinksKept

/-- The links are kept, and of every function's step what a decision sets: what happens at a step boundary. -/
structure StepsKept (s t : State) : Prop extends LinksKept s t where
  steps : ∀ f, (t.fn f).step.settled = (s.fn f).step.settled

namespace StepsKept

variable {s t u : State}

theorem of_fns (h : LinksKept s t) (hf : t.fns = s.fns) : StepsKept s t :=
  ⟨h, fun f => congrArg (fun x => x.step.settled) (State.fn_congr hf f)⟩

theorem of_eq (hp : t.ports = s.ports) (hf : t.fns = s.fns) : StepsKept s t := of_fns (.of_ports hp) hf

theorem refl (s : State) : StepsKept s s := of_eq rfl rfl

theorem trans (h1 : StepsKept s t) (h2 : StepsKept t u) : StepsKept s u :=
  ⟨h1.toLinksKept.trans h2.toLinksKept, fun f => (h2.steps f).trans (h1.steps f)⟩

theorem notices (h : Notices s t) : StepsKept s t := of_eq h.ports h.fns

theorem ite {c : Prop} [Decidable c] (ht : StepsKept s t) (hu : StepsKept s u) : StepsKept s (if c then t else u) := by
  split
  · exact ht
  · exact hu

theorem foldl {α : Type} (step : State → α → State) (xs : List α) (s : State) (h : ∀ s x, StepsKept s (step s x)) :
    StepsKept s (xs.foldl step s) :=
  List.foldlRecOn xs step (refl s) fun t ht x _ => ht.trans (h t x)

theorem modFn (s : State) (f : FnId) {g : Fn → Fn} (h : ∀ x, (g x).step.settled = x.step.settled) : StepsKept s (s.modFn f g) where
  toLinksKept := .of_ports rfl
  steps k := by
    by_cases hk : f = k
    · subst hk; rw [State.modFn, State.fn_setFn, h]
    · rw [State.modFn, State.fn_setFn_ne _ _ _ _ hk]

theorem modStep (s : State) (f : FnId) {g : StepState → StepState} (h : ∀ st, (g st).settled = st.settled) :
    StepsKept s (s.modStep f g) := modFn s f fun x => h x.step

theorem modJob (s : State) (f : FnId) (g : JobState → JobState) : StepsKept s (s.modJob f g) := modFn s f fun _ => rfl
theorem setCtx (s : State) (c : Nat) (x : BitVec 1024) : StepsKept s (s.setCtx c x) := of_eq rfl rfl
theorem setLink (s : State) (i : Nat) (x : LinkSlot) : StepsKept s (s.setLink i x) := of_eq rfl rfl
theorem write (s : State) (a : Nat) (bs : List Byte) : StepsKept s (s.write a bs) := of_eq rfl rfl
theorem count (s : State) (off n : Nat) : StepsKept s (s.count off n) := of_eq rfl rfl
theorem raise (s : State) (page bit : Nat) : StepsKept s (s.raise page bit) := notices (.raise ..)

theorem complete (s : State) (o : Op) (status cause n detail : Nat) : StepsKept s (s.complete o status cause n detail) :=
  of_fns (.complete ..) (s.complete_fns ..)

theorem kill (s : State) (o : Op) (status cause : Nat) : StepsKept s (s.kill o status cause) :=
  of_fns (.kill ..) (State.complete_fns ..)

theorem sendHellos (s : State) : StepsKept s s.sendHellos :=
  foldl _ _ _ fun s _ => ite (refl s) (of_fns (.sendOn ..) (s.sendOn_fns ..))

/-! ## The step boundary -/

theorem breakJob (s : State) (f : FnId) : StepsKept s (s.breakJob f) := ite (refl s) ((modJob ..).trans (raise ..))

theorem allWatch (s : State) (f : FnId) (g : BitVec 1024 → BitVec 1024) : StepsKept s (s.allWatch f g) := by
  unfold State.allWatch; split
  · refine foldl _ _ _ fun s id => ?_
    split
    · exact write ..
    · exact refl s
  · exact refl s

theorem endTrainings (s : State) (f : FnId) : StepsKept s (s.endTrainings f) :=
  (foldl _ _ _ fun s _ => ite (setCtx ..) (refl s)).trans (modStep _ f fun _ => rfl)

theorem endScarf (s : State) (f : FnId) : StepsKept s (s.endScarf f) := by
  unfold State.endScarf; split
  · exact refl s
  · dsimp only; split
    · exact (modJob ..).trans (complete ..)
    · exact modJob ..

theorem discardStages (s : State) (f : FnId) : StepsKept s (s.discardStages f) :=
  (foldl _ _ _ fun s o => kill s o 10 0).trans (ite (refl _) (count ..))

theorem dropLinks (s : State) (job : Nat) : StepsKept s (s.dropLinks job) :=
  ite (foldl _ _ _ fun s _ => ite (setLink ..) (refl s)) (refl s)

theorem takeMap (s : State) (f : FnId) (m : BitVec 512) : StepsKept s (s.takeMap f m) :=
  ((modJob ..).trans (dropLinks ..)).trans (sendHellos _)

theorem runSave (s : State) (o : Op) (d : Desc) : StepsKept s (s.runSave o d) := by
  unfold State.runSave; dsimp only; split
  · exact complete ..
  · exact ((write ..).trans ((modJob ..).trans (complete ..))).trans (raise ..)

theorem boundary (s : State) (f : FnId) : StepsKept s (s.boundary f) := by
  unfold State.boundary
  extract_lets t u v w job openNow x
  have hu : StepsKept s u := (modJob s f _).trans (of_eq rfl rfl)
  have hv : StepsKept u v := modJob ..
  have hw : StepsKept v w := by
    subst w; split
    · exact takeMap ..
    · exact refl v
  have hx : StepsKept w x := foldl _ _ _ fun s _ => ite (setLink ..) (refl s)
  refine (hu.trans (hv.trans (hw.trans hx))).trans ?_
  split
  · split
    · exact runSave ..
    · exact refl x
  · exact refl x

/-- What follows a decision that is applied leaves the step as the decision set it (R327, R328). -/
theorem applyDecision (s : State) (f : FnId) (d : Decision) :
    StepsKept (s.modStep f (fun st => if d.isCommit then st.committed else st.aborted d)) (s.applyDecision f d) := by
  unfold State.applyDecision
  extract_lets job j t u ctxs v w x y u' v' w' x' y' z' e'
  split
  case isTrue =>
    have hv : StepsKept (s.modStep f StepState.committed) v := of_eq rfl rfl
    have hw : StepsKept v w := (endTrainings ..).trans (endScarf ..)
    exact ((hv.trans hw).trans ((allWatch ..).trans (count ..))).trans ((discardStages ..).trans (boundary ..))
  case isFalse =>
    have hu : StepsKept (s.modStep f (fun st => st.aborted d)) u' := of_eq rfl rfl
    have hx : StepsKept u' x' := ((endTrainings ..).trans (allWatch ..)).trans (of_eq rfl rfl)
    have hz : StepsKept x' z' := ((count ..).trans (raise ..)).trans (notices (.logFn ..))
    have he : StepsKept z' e' := ite (((breakJob ..).trans (raise ..)).trans (notices (.logFn ..))) (refl z')
    exact (hu.trans (hx.trans (hz.trans he))).trans (boundary ..)

end StepsKept

end Sys2Proof.Laws

/-! # Decisions on their way (R270, R325, R327) -/

namespace Sys2Proof.Machine

/-- A decision that is applied leaves its own step state. -/
theorem State.applyDecision_settled (s : State) (f : FnId) (d : Decision) : ((s.applyDecision f d).fn f).step.settled
    = (if d.isCommit then (s.fn f).step.committed else (s.fn f).step.aborted d).settled := by
  rw [(Laws.StepsKept.applyDecision s f d).steps f, State.modStep, State.modFn, State.fn_setFn]
  rfl

theorem exec_commit_of_partner {s : State} {port : PortId} {msg : BitVec 256} (hst : (s.port port.val).st = 3) (hkind : bmKind msg = 6) :
    exec (.commit port msg) s = .next (s.fromMaster port msg) := if_pos ⟨hkind, hst⟩

theorem exec_abort_of_partner {s : State} {port : PortId} {msg : BitVec 256} (hst : (s.port port.val).st = 3) (hkind : bmKind msg = 7) :
    exec (.abort port msg) s = .next (s.fromMaster port msg) := if_pos ⟨hkind, hst⟩

section
variable {s : State} {f : FnId} {job : Nat} {x : Decision}

/-- A COMMIT of the open step of the job's one function is held until the COMMIT event. -/
theorem State.holdDecision_commit (hcommit : x.isCommit = true) (hjob : s.jobFns job = [f]) (hnone : (s.fn f).step.decision = none)
    (hevent : (s.fn f).step.commitBeat = none) (hstep : s.openStep f = x.step.toNat) :
    s.holdDecision job x = s.modStep f (fun st => { st with decision := some x }) := by
  simp [holdDecision, hjob, hcommit, hnone, hevent, hstep]

/-- A decision for another step than the open one is not held. -/
theorem State.holdDecision_other_step (hjob : s.jobFns job = [f]) (hstep : s.openStep f ≠ x.step.toNat) : s.holdDecision job x = s := by
  simp [holdDecision, hjob, hstep]

end

end Sys2Proof.Machine

namespace Sys2Proof.Laws

open Sys2Proof.Machine

/-- Settles O31: a decision goes down from the parent only, and nothing after it changes the step that it leaves. -/
theorem decisionsHeld : Obligations.DecisionsHeld := by
  refine ⟨fun s port msg hst => ⟨fun hkind => ?commit, fun hkind => ?abort⟩,
    fun s f job x hcommit hjob hnone hevent => ⟨fun hstep => ?held, State.holdDecision_other_step hjob⟩,
    fun s f x => ⟨fun hcommit => ?committed, fun habort => ?aborted⟩⟩
  case commit => rw [exec_commit_of_partner hst hkind, State.fromMaster, decisionOf, hkind]; rfl
  case abort => rw [exec_abort_of_partner hst hkind, State.fromMaster, decisionOf, hkind]; rfl
  case held => rw [State.holdDecision_commit hcommit hjob hnone hevent hstep, State.modStep, State.modFn, State.fn_setFn]
  case committed =>
    have h := s.applyDecision_settled f x
    rw [if_pos hcommit] at h
    simp only [StepState.settled, StepState.committed, Prod.mk.injEq] at h
    obtain ⟨hepoch, hstep, haborts, hfail, -, hdecision⟩ := h
    exact ⟨hepoch, hstep, haborts, hfail, hdecision⟩
  case aborted =>
    have h := s.applyDecision_settled f x
    rw [if_neg (Bool.eq_false_iff.mp habort)] at h
    simp only [StepState.settled, StepState.aborted, Prod.mk.injEq] at h
    obtain ⟨hepoch, hstep, haborts, -, hcause, hdecision⟩ := h
    exact ⟨hepoch, hstep, haborts, hcause, hdecision⟩

end Sys2Proof.Laws

/-! # IRQ_STAT of a port's page (R428, R464, R467) -/

namespace Sys2Proof.Machine

theorem State.message_regs (s : State) (addr : Nat) (data : Word) : (s.message addr data).regs = s.regs := by
  unfold message; split <;> rfl

theorem State.eventTo_regs (s : State) (win page bit : Nat) : (s.eventTo win page bit).regs = s.regs := by
  unfold eventTo; split
  · dsimp only; split <;> exact message_regs ..
  · rfl

theorem State.reg_congr {s t : State} (h : t.regs = s.regs) (win off : Nat) : t.reg win off = s.reg win off := by simp only [reg, h]

/-- A page event leaves its bit set. -/
theorem State.testBit_reg_raise (s : State) {page bit : Nat} (hbit : bit < 32) :
    ((s.raise page bit).reg 0 (page + 0x18)).testBit bit = true := by
  unfold raise
  extract_lets v t
  split
  · assumption
  · next hclear =>
    have ht : (t.reg 0 (page + 0x18)).testBit bit = true := by
      rw [reg_congr (eventTo_regs ..), reg_setReg, Nat.testBit_mod_two_pow, Nat.add_comm, Nat.testBit_two_pow_add_eq]
      simp [hbit, hclear]
    split
    · rwa [reg_congr (eventTo_regs ..)]
    · exact ht

/-- A block's page (Table 20-2) starts at a multiple of 4 KiB. -/
theorem blockPage_mod {block inst : Nat} {fn : Option FnId} {page : Nat} (h : blockPage block inst fn = some page) :
    page % 0x1000 = 0 := by
  unfold blockPage at h
  cases fn <;> split at h <;> simp only [Option.map_none, Option.map_some, reduceCtorEq, Option.some.injEq, pagePkc, pageBeat, pagePwr,
    pageSec, pageTlog, pageCtxt, pageCore, pageMe, pageTe, pageHbm, pageFab, pageDlk, pageLlmp, pageFunc, pageStepf] at h <;> omega

end Sys2Proof.Machine

namespace Sys2Proof.Laws

open Sys2Proof.Machine

/-- The second state has the IRQ_STAT of a port's page of the first. -/
structure StatKept (port : PortId) (s t : State) : Prop where
  stat : t.reg 0 (pageFab port.val + 0x18) = s.reg 0 (pageFab port.val + 0x18)

namespace StatKept

variable {port : PortId} {s t u : State}

theorem of_regs (h : t.regs = s.regs) : StatKept port s t := ⟨State.reg_congr h ..⟩

theorem refl (s : State) : StatKept port s s := of_regs rfl

theorem trans (h1 : StatKept port s t) (h2 : StatKept port t u) : StatKept port s u := ⟨h2.stat.trans h1.stat⟩

theorem ite {c : Prop} [Decidable c] (ht : StatKept port s t) (hu : StatKept port s u) : StatKept port s (if c then t else u) := by
  split
  · exact ht
  · exact hu

theorem foldl {α : Type} (step : State → α → State) (xs : List α) (s : State) (h : ∀ s x, StatKept port s (step s x)) :
    StatKept port s (xs.foldl step s) :=
  List.foldlRecOn xs step (refl s) fun t ht x _ => ht.trans (h t x)

theorem setReg (s : State) {win off : Nat} (v : Nat) (h : off % 0x1000 ≠ 0x18) : StatKept port s (s.setReg win off v) :=
  ⟨State.reg_setReg_ne _ _ _ _ _ _ (by simp only [regKey, pageFab]; omega)⟩

theorem addReg (s : State) {win off : Nat} (n : Nat) (h : off % 0x1000 ≠ 0x18) : StatKept port s (s.addReg win off n) := setReg s _ h

theorem count (s : State) {off : Nat} (n : Nat) (h : off % 0x1000 ≠ 0x18) : StatKept port s (s.count off n) := addReg s n h

theorem eventTo (s : State) (win page bit : Nat) : StatKept port s (s.eventTo win page bit) := of_regs (s.eventTo_regs ..)

/-- An event of another page sets a bit of that page. -/
theorem raise (s : State) {page : Nat} (bit : Nat) (h : page ≠ pageFab port.val) : StatKept port s (s.raise page bit) := by
  have hset (v : Nat) : StatKept port s ((s.setReg 0 (page + 0x18) v).eventTo 0 page bit) :=
    StatKept.trans ⟨State.reg_setReg_ne _ _ _ _ _ _ (regKey_ne (by omega))⟩ (eventTo ..)
  refine ite (refl s) ?_
  split
  · exact (hset _).trans (eventTo ..)
  · exact hset _

theorem raiseLog (s : State) (win bit : Nat) : StatKept port s (s.raiseLog win bit) := by
  refine ite (refl s) (StatKept.trans ⟨State.reg_setReg_ne _ _ _ _ _ _ ?_⟩ (eventTo ..))
  simp only [regKey, pageTlog, pageFab]
  omega

theorem errorIn (s : State) {win page : Nat} (code fn : Nat) (mgmt : Bool) (h : page % 0x1000 = 0) :
    StatKept port s (s.errorIn win page code fn mgmt) := by
  unfold State.errorIn
  have hadd : StatKept port s (s.addReg win (page + 0x20) 1) := addReg s 1 (by omega)
  exact ite hadd (((hadd.trans (setReg _ _ (by omega))).trans (setReg _ _ (by omega))).trans (setReg _ _ (by omega)))

theorem pageError (s : State) {page : Nat} (code : Nat) (fn : Option FnId) (mgmt : Bool) (h : page % 0x1000 = 0) :
    StatKept port s (s.pageError page code fn mgmt) := by
  unfold State.pageError
  dsimp only
  split
  · exact ite (errorIn s _ _ _ h) ((errorIn s _ _ _ h).trans (errorIn _ _ _ _ h))
  · exact errorIn s _ _ _ h

/-- The trouble log writes headers and its own page. -/
theorem logPkg (s : State) {code : Nat} (inst d0 d1 : Nat) (hcode : code < 2 ^ 16) : StatKept port s (s.logPkg code inst d0 d1) := by
  unfold State.logPkg State.logEvent
  refine ite (refl s) ?_
  extract_lets cls fnField urgent t general views last
  have ht : StatKept port s t := by
    refine ite ?_ (refl s)
    split
    · next hpage => exact pageError s _ _ _ (blockPage_mod hpage)
    · exact refl s
  refine ite (ht.trans (of_regs rfl)) (ite ?placed ?lost)
  case placed =>
    have hd : StatKept port t t.draw.2 := of_regs rfl
    generalize t.draw = d at hd
    split
    extract_lets bits e next v w
    have hv : StatKept port t v := hd.trans (of_regs rfl)
    have hw : StatKept port v w := ite ((raiseLog ..).trans (foldl _ _ _ fun s x => raiseLog s _ _)) (refl v)
    exact (ht.trans (hv.trans hw)).trans (ite (raiseLog ..) (refl w))
  case lost =>
    have hcls : cls < 16 := Nat.div_lt_of_lt_mul hcode
    exact ht.trans ((addReg _ _ (by simp only [pageTlog]; omega)).trans (raiseLog ..))

/-! ## Frames that go out, and the tree -/

theorem sendOn (s : State) (p : Nat) (fr : Frame) : StatKept port s (s.sendOn p fr) := by
  have hwait (u : State) : StatKept port u (u.wait (pageFab p + 0x6C)) :=
    (of_regs rfl : StatKept port u u.draw.2).trans (count _ _ (by simp only [pageFab]; omega))
  have hset (x : Port) : StatKept port s (s.setPort p x) := of_regs rfl
  exact ite (refl s) (ite (ite ((hset _).trans (hwait _)) (hset _)) (refl s))

theorem sendHello (s : State) (p : Nat) : StatKept port s (s.sendHello p) := ite (refl s) (sendOn ..)

theorem helloIfChanged (s before : State) : StatKept port s (s.helloIfChanged before) :=
  ite (refl s) (foldl _ _ _ sendHello)

end StatKept

end Sys2Proof.Laws

/-! # The beat tree and the election of a master (R40, R270) -/

namespace Sys2Proof.Machine

/-- Rebuilding the tree changes parent and distance. -/
theorem State.rebuildTree_eq (s : State) : ∃ b, s.rebuildTree = { s with beat := b } := by
  unfold rebuildTree
  split
  · exact ⟨_, rfl⟩
  · dsimp only
    split <;> exact ⟨_, rfl⟩

end Sys2Proof.Machine

namespace Sys2Proof.Laws

open Sys2Proof.Machine

theorem LinksKept.setBeat (s : State) (b : Beat) : LinksKept s { s with beat := b } := of_ports rfl
theorem StatKept.setBeat (port : PortId) (s : State) (b : Beat) : StatKept port s { s with beat := b } := of_regs rfl

/-- The links and the IRQ_STAT of a port are kept: what follows the discovery of a partner. -/
structure Settles (port : PortId) (s t : State) : Prop where
  links : LinksKept s t
  stat : StatKept port s t

namespace Settles

variable {port : PortId} {s t u : State}

theorem trans (h1 : Settles port s t) (h2 : Settles port t u) : Settles port s u := ⟨h1.links.trans h2.links, h1.stat.trans h2.stat⟩

theorem ite {c : Prop} [Decidable c] (ht : Settles port s t) (hu : Settles port s u) : Settles port s (if c then t else u) := by
  split
  · exact ht
  · exact hu

theorem setBeat (s : State) (b : Beat) : Settles port s { s with beat := b } := ⟨.setBeat .., .setBeat ..⟩

theorem rebuildTree (s : State) : Settles port s s.rebuildTree := by
  obtain ⟨b, h⟩ := s.rebuildTree_eq
  exact h ▸ setBeat s b

theorem logPkg (s : State) {code : Nat} (inst d0 d1 : Nat) (hcode : code < 2 ^ 16) : Settles port s (s.logPkg code inst d0 d1) :=
  ⟨.notices (.logPkg ..), .logPkg s _ _ _ hcode⟩

theorem newMaster (s : State) (master : Nat) : Settles port s (s.newMaster master) := by
  unfold State.newMaster
  extract_lets old beat t
  have ht : Settles port s t := setBeat ..
  have hraise : Settles port t (t.raise pageBeat 1) := ⟨.notices (.raise ..), .raise _ _ (by simp only [pageBeat, pageFab]; omega)⟩
  exact ite ht ((ht.trans hraise).trans (logPkg _ _ _ _ (by decide)))

theorem elect (s : State) : Settles port s s.elect := ((newMaster ..).trans (setBeat ..)).trans (rebuildTree _)

theorem sendHello (s : State) (p : Nat) : Settles port s (s.sendHello p) := ⟨.sendHello .., .sendHello ..⟩

theorem helloIfChanged (s before : State) : Settles port s (s.helloIfChanged before) := ⟨.helloIfChanged .., .helloIfChanged ..⟩

end Settles

/-- A member in holdover raises and logs it. -/
theorem LinksKept.enterHoldover (s : State) : LinksKept s s.enterHoldover :=
  ite (refl s) ((setBeat ..).trans (notices ((Notices.raise ..).trans (.logPkg ..))))

/-- A partner that is lost leaves the tree; the other links stay. -/
theorem LinksKept.losePartner (s : State) (p chip : Nat) : LinksKept s (s.losePartner p chip) := by
  unfold State.losePartner
  extract_lets lost t
  have ht : LinksKept s t := (notices ((Notices.raise ..).trans (.logPkg ..))).trans (Settles.rebuildTree (port := 0) _).links
  exact ite (ht.trans (enterHoldover t)) ht

end Sys2Proof.Laws

/-! # HELLO and DATA (R265 to R267, R271, R272) -/

namespace Sys2Proof.Laws

open Sys2Proof.Machine

/-- An event of a port stays raised, and the port keeps its link, while what follows settles. -/
theorem Settles.of_raise {port : PortId} {s t : State} {bit : Nat} (hbit : bit < 32)
    (h : Settles port (s.raise (pageFab port.val) bit) t) :
    (s.port port.val).Keeps (t.port port.val) ∧ (t.reg 0 (pageFab port.val + 0x18)).testBit bit = true :=
  ⟨((LinksKept.notices (.raise ..)).trans h.links).ports port.val, by rw [h.stat.stat, State.testBit_reg_raise _ hbit]⟩

/-- What the discovery of a partner comes to: the port's state, the first check that failed, and the event of it. -/
theorem discover_keeps (s : State) (port : PortId) (d : BitVec 512) (before : State) :
    let c := s.helloFault port.val d
    ({ s.port port.val with st := if c = 0 then 3 else 4, mismatch := c } : Port).Keeps
        (((s.discover port.val d).helloIfChanged before).port port.val)
      ∧ (((s.discover port.val d).helloIfChanged before).reg 0 (pageFab port.val + 0x18)).testBit (if c = 0 then 0 else 3) = true := by
  intro c
  by_cases hc : c = 0
  case pos =>
    let t := ((s.setPort port.val { s.port port.val with st := 3, mismatch := 0 }).raise (pageFab port.val) 0).logPkg 0x9281 port.val
      (heChip d) 0
    have hsettles : Settles port t (if !t.beat.inDomain ∨ t.beat.master = 0xFFFF then t.elect else t.rebuildTree) :=
      .ite (.elect t) (.rebuildTree t)
    have hevent := ((Settles.logPkg _ _ _ _ (by decide)).trans (hsettles.trans (.helloIfChanged _ before))).of_raise (by decide)
    rw [State.port_setPort] at hevent
    rw [show s.discover port.val d = _ from if_pos hc]
    simpa only [hc, if_true] using hevent
  case neg =>
    have hsettles (u : State) : Settles port u ((u.logPkg 0x9283 port.val (heChip d) c).helloIfChanged before) :=
      (Settles.logPkg _ _ _ _ (by decide)).trans (.helloIfChanged _ before)
    have hevent := (hsettles ((s.setPort port.val { s.port port.val with st := 4, mismatch := c }).raise (pageFab port.val) 3)).of_raise
      (by decide)
    rw [State.port_setPort] at hevent
    rw [show s.discover port.val d = _ from if_neg hc]
    simpa only [hc, if_false] using hevent

end Sys2Proof.Laws

namespace Sys2Proof.Machine

@[simp] theorem State.st_took (s : State) (p pool units : Nat) : ((s.took p pool units).port p).st = (s.port p).st := by
  rw [took, port_setPort]

@[simp] theorem State.hello_took (s : State) (p pool units : Nat) : ((s.took p pool units).port p).hello = (s.port p).hello := by
  rw [took, port_setPort]

@[simp] theorem State.helloCount_took (s : State) (p pool units : Nat) :
    ((s.took p pool units).port p).helloCount = (s.port p).helloCount := by
  rw [took, port_setPort]

/-- A HELLO is of the kind of the one before it: a payload without DIST and MASTER_ID is the same (R271). -/
def Port.hearsAgain (x : Port) (payload : BitVec 512) : Bool :=
  decide (helloKey payload = helloKey x.hello) && decide (0 < x.helloCount)

theorem Port.hearsAgain_eq_false {x : Port} {payload : BitVec 512} (h : helloKey payload ≠ helloKey x.hello ∨ x.helloCount = 0) :
    x.hearsAgain payload = false := by
  rw [hearsAgain, Bool.and_eq_false_iff]
  exact h.imp decide_eq_false fun hcount => decide_eq_false (Nat.not_lt.mpr (Nat.le_of_eq hcount))

theorem Port.hearsAgain_eq_true {x : Port} {payload : BitVec 512} (hkey : helloKey payload = helloKey x.hello) (hcount : 0 < x.helloCount) :
    x.hearsAgain payload = true := by
  rw [hearsAgain, decide_eq_true hkey, decide_eq_true hcount]; rfl

/-- The first HELLO of a kind is kept, and the port has no partner. -/
theorem exec_hello_first {s : State} {port : PortId} {payload : BitVec 512} (hst : 2 ≤ (s.port port.val).st)
    (hfirst : (s.port port.val).hearsAgain payload = false) :
    ∃ t, exec (.hello port payload) s = .next t ∧ (t.port port.val).st = 2 ∧ (t.port port.val).hello = payload
      ∧ (t.port port.val).helloCount = 1 := by
  let u := s.took port.val 0 4
  let x : Port := { u.port port.val with hello := payload, helloCount := 1, st := 2, mismatch := 0 }
  let v := u.setPort port.val x
  let w := if (s.port port.val).st = 3 then v.losePartner port.val (heChip (s.port port.val).hello) else v
  have hkept : Laws.LinksKept v (w.helloIfChanged s) := .trans (.ite (.losePartner v ..) (.refl v)) (.helloIfChanged ..)
  have hkeeps := hkept.ports port.val
  rw [State.port_setPort] at hkeeps
  refine ⟨w.helloIfChanged s, ?_, hkeeps.st, hkeeps.hello, hkeeps.helloCount⟩
  change execHello port payload s = _
  unfold Port.hearsAgain at hfirst
  simp only [execHello, Nat.not_lt.mpr hst, if_false, State.st_took, State.hello_took, State.helloCount_took, hfirst, Bool.false_eq_true,
    Bool.not_false, if_true]
  rfl

/-- The second HELLO alike on a port that waits for it leads to the checks of R272. -/
theorem exec_hello_second {s : State} {port : PortId} {payload : BitVec 512} (hst : (s.port port.val).st = 2)
    (hagain : (s.port port.val).hearsAgain payload = true) :
    ∃ u : State, exec (.hello port payload) s = .next ((u.discover port.val payload).helloIfChanged s)
      ∧ u.helloFault port.val payload = s.helloFault port.val payload := by
  let t := s.took port.val 0 4
  let x : Port := { t.port port.val with
    hello := payload, helloCount := min 2 ((s.port port.val).helloCount + 1), st := 2, mismatch := (t.port port.val).mismatch }
  refine ⟨t.setPort port.val x, ?_, rfl⟩
  change execHello port payload s = _
  unfold Port.hearsAgain at hagain
  simp only [execHello, State.st_took, State.hello_took, State.helloCount_took, hst, hagain, Bool.not_true, Bool.false_eq_true, if_false,
    if_true, Nat.lt_irrefl]
  rfl

theorem State.sendHello_of_down {s : State} {p : Nat} (h : (s.port p).st < 2) : s.sendHello p = s := if_pos h

theorem State.sendHello_of_up {s : State} {p : Nat} (h : 2 ≤ (s.port p).st) : s.sendHello p =
    s.sendOn p (mkFrame 1 true 0 (hePos (s.port p).hello) (heChip (s.port p).hello) s.chip (leBytes 64 (s.helloFields p).toNat)) :=
  if_neg (Nat.not_lt.mpr h)

/-! ## DATA frames (R265, R266) -/

section
variable {s : State} {port : PortId} {fr : Frame}

/-- The state as a frame has left the receive buffer of a port. -/
def State.freed (s : State) (p : Nat) (fr : Frame) : State := s.setPort p ((s.port p).accept fr)

theorem exec_data_here (h : s.takes port.val fr 8 = true) (hpos : fhDestPos fr.hdr = s.pos) (hchip : fhDestChip fr.hdr = s.chip) :
    exec (.data port fr) s = .next ((s.freed port.val fr).deliverData port.val fr) :=
  (if_neg (by simp [h])).trans ((if_pos hpos).trans (if_pos hchip))

theorem exec_data_other_chip (h : s.takes port.val fr 8 = true) (hpos : fhDestPos fr.hdr = s.pos) (hchip : fhDestChip fr.hdr ≠ s.chip) :
    exec (.data port fr) s = .next ((s.freed port.val fr).count (pageFab port.val + 0x70)) :=
  (if_neg (by simp [h])).trans ((if_pos hpos).trans (if_neg hchip))

/-- A frame for another place goes on where there is a port toward it, and nowhere else. -/
theorem exec_data_elsewhere (h : s.takes port.val fr 8 = true) (hpos : fhDestPos fr.hdr ≠ s.pos) :
    exec (.data port fr) s = .next (((s.freed port.val fr).hop fr).elim (s.freed port.val fr)
      fun k => (s.freed port.val fr).sendOn k (unstamp fr)) := by
  refine (if_neg (by simp [h])).trans ((if_neg hpos).trans ?_)
  change (match (s.freed port.val fr).hop fr with | some _ => _ | none => _) = _
  cases (s.freed port.val fr).hop fr <;> rfl

theorem exec_data_not_taken (h : s.takes port.val fr 8 = false) : exec (.data port fr) s = .next s :=
  if_pos (by rw [h]; rfl)

theorem State.deliverData_sealFail {p : Nat} (h : s.openFrame fr = none) : s.deliverData p fr = s.sealFail p fr := by
  rw [deliverData, h]

/-- An opened frame joins its message. -/
theorem State.deliverData_part {p : Nat} {g : Frame} {u : State} (h : s.openFrame fr = some g) (hpart : s.assemble g = (none, u)) :
    s.deliverData p fr = u := by
  rw [deliverData, h]; dsimp only; rw [hpart]

/-- The last frame of a message completes it. -/
theorem State.deliverData_last {p : Nat} {g : Frame} {m : Nat × List Byte} {u : State} (h : s.openFrame fr = some g)
    (hlast : s.assemble g = (some m, u)) : s.deliverData p fr = u.onMessage p m.1 m.2 := by
  rw [deliverData, h]; dsimp only; rw [hlast]

end

end Sys2Proof.Machine

namespace Sys2Proof.Laws

open Sys2Proof.Machine

/-- Settles O48: what follows a HELLO keeps the port's link and its event; a DATA frame goes by its destination. -/
theorem helloAndData : Obligations.HelloAndData := by
  intro s port payload fr p x freed
  refine ⟨fun hst hfirst => ?first, fun hst hkey hcount => ?second, fun hst => ⟨if_pos hst, congrArg _ (State.sendHello_of_down hst)⟩,
    fun hst => congrArg _ (State.sendHello_of_up hst), fun htaken => ?data, exec_data_not_taken⟩
  case first => exact exec_hello_first hst (Port.hearsAgain_eq_false hfirst)
  case second =>
    obtain ⟨u, hexec, hfault⟩ := exec_hello_second hst (Port.hearsAgain_eq_true hkey hcount)
    obtain ⟨hkeeps, hevent⟩ := discover_keeps u port payload s
    rw [hfault] at hkeeps hevent
    exact ⟨_, hexec, hkeeps.st, hkeeps.mismatch, hevent⟩
  case data =>
    refine ⟨exec_data_other_chip htaken, fun hpos hchip => ?delivered, fun hpos => ?forwarded⟩
    case delivered =>
      rw [exec_data_here htaken hpos hchip]
      exact ⟨fun hsealed => congrArg _ (State.deliverData_sealFail hsealed), fun g hopen =>
        ⟨fun u hpart => congrArg _ (State.deliverData_part hopen hpart),
          fun m u hlast => congrArg _ (State.deliverData_last hopen hlast)⟩⟩
    case forwarded =>
      rw [exec_data_elsewhere htaken hpos]
      exact ⟨fun k (hhop : (s.freed p fr).hop fr = some k) => by rw [hhop]; rfl,
        fun (hhop : (s.freed p fr).hop fr = none) => by rw [hhop]; rfl⟩

end Sys2Proof.Laws

/-! # What a failure, a reduce and a message leave of the links (R274, R318, R322)

A lost link ends operations and lets others go on; no port gains or loses a link by that. -/

namespace Sys2Proof.Laws.LinksKept

open Sys2Proof.Machine

theorem modStep (s : State) (f : FnId) (g : StepState → StepState) : LinksKept s (s.modStep f g) := of_ports rfl
theorem modJob (s : State) (f : FnId) (g : JobState → JobState) : LinksKept s (s.modJob f g) := of_ports rfl
theorem setJob (s : State) (j : Nat) (x : MasterJob) : LinksKept s (s.setJob j x) := of_ports rfl
theorem setLink (s : State) (i : Nat) (x : LinkSlot) : LinksKept s (s.setLink i x) := of_ports rfl
theorem write (s : State) (a : Nat) (bs : List Byte) : LinksKept s (s.write a bs) := of_ports rfl
theorem count (s : State) (off n : Nat) : LinksKept s (s.count off n) := of_ports rfl
theorem modOp (s : State) (r : OpRef) (g : Op → Op) : LinksKept s (s.modOp r g) := of_ports rfl
theorem modReduce (s : State) (r : OpRef) (g : Reduce → Reduce) : LinksKept s (s.modReduce r g) := of_ports rfl
theorem modChunk (s : State) (r : OpRef) (c : Nat) (g : Chunk → Chunk) : LinksKept s (s.modChunk r c g) := of_ports rfl
theorem endReduce (s : State) (r : OpRef) (status cause : Nat) : LinksKept s (s.endReduce r status cause) := of_ports rfl
theorem writeResults (s : State) (r : Reduce) (c e : Nat) (codes : List Nat) : LinksKept s (s.writeResults r c e codes) := of_ports rfl

/-! ## Votes and decisions -/

theorem offsetOf (s : State) (j : MasterJob) (chip : Nat) : LinksKept s (s.offsetOf j chip).2 := by
  unfold State.offsetOf; split
  · exact refl s
  · split
    · exact refl s
    · split <;> exact of_ports rfl

theorem shiftMember (s : State) (job chip : Nat) (w : Int) : LinksKept s (s.shiftMember job chip w) := by
  unfold State.shiftMember
  extract_lets j
  have hoff : LinksKept s (s.offsetOf j chip).2 := offsetOf ..
  generalize s.offsetOf j chip = r at hoff
  obtain ⟨old, t⟩ := r
  exact (hoff.trans (setJob ..)).trans (ite (ite (of_ports rfl) (refl _)) (sendMgmt ..))

theorem shiftPower (s : State) (job step : Nat) : LinksKept s (s.shiftPower job step) :=
  ite (refl s) (foldl _ _ _ fun s _ => (shiftMember s ..).trans (shiftMember ..))

theorem spoilScarf (s : State) (f : FnId) : LinksKept s (s.spoilScarf f) := by
  unfold State.spoilScarf; split
  · exact refl s
  · exact foldl _ _ _ fun _ _ => of_ports rfl

theorem applyDecision (s : State) (f : FnId) (d : Decision) : LinksKept s (s.applyDecision f d) :=
  (modStep s f _).trans (StepsKept.applyDecision s f d).toLinksKept

theorem holdDecision (s : State) (job : Nat) (d : Decision) : LinksKept s (s.holdDecision job d) := by
  refine foldl _ _ _ fun s f => ite (refl s) ?_
  extract_lets t scarf u v w
  have hu : LinksKept t u := (of_ports rfl : LinksKept t { t with reduces := t.reduces.filter (fun r => decide (r.fn ≠ f)) }).trans
    (dropKept ..)
  have hscarf : LinksKept v ((v.spoilScarf f).breakJob f) := (spoilScarf v f).trans (StepsKept.breakJob ..).toLinksKept
  have hw : LinksKept t w := ite (refl t) ((hu.trans (killAll ..)).trans (ite hscarf (refl v)))
  exact ((modStep s f _).trans hw).trans (ite (applyDecision ..) (refl w))

theorem decideStep (s : State) (job step : Nat) (isCommit : Bool) (cause : Nat) : LinksKept s (s.decideStep job step isCommit cause) :=
  ((setJob ..).trans (ite (shiftPower ..) (refl _))).trans (ite (sendMgmt ..) ((sendDown ..).trans (holdDecision ..)))

theorem toMaster (s : State) (kind step job arg2 : Nat) : LinksKept s (s.toMaster kind step job arg2) :=
  ite (ite (ite (refl s) ((setJob ..).trans (ite (decideStep ..) (refl _)))) (ite (refl s) (decideStep ..))) (sendUpTree ..)

/-- A failure leaves the links, and so do the vote and the decisions that come of it. -/
theorem fail (s : State) (o : Op) (cause detail : Nat) : LinksKept s (s.fail o cause detail) :=
  (complete ..).trans (ite (ite (refl _) ((modStep ..).trans (ite ((modStep ..).trans (toMaster ..)) (refl _)))) (refl _))

/-! ## Reduces (R309 to R318) -/

theorem sealFrame (s : State) (f : FnId) (fr : Frame) : LinksKept s (s.sealFrame f fr).2 := by
  unfold State.sealFrame; split
  · exact refl s
  · exact setLink ..

theorem sendRed (s : State) (f : FnId) (p : Nat) (fr : Frame) : LinksKept s (s.sendRed f p fr).2 :=
  (sealFrame s f fr).trans (sendOn ..)

theorem windowsUp (s : State) (r : OpRef) : LinksKept s (s.windowsUp r) := by
  unfold State.windowsUp; split
  · exact refl s
  · refine foldl _ _ _ fun s b => ?_
    dsimp only; split
    · exact ite ((sendRed ..).trans (foldl _ _ _ fun s c => modChunk s r c.1 _)) (refl s)
    · exact refl s

theorem agree (s : State) (x : Reduce) (c : Nat) (w : Int) : LinksKept s (s.agree x c w) :=
  (modChunk ..).trans (ite (refl _) ((writeResults ..).trans (modChunk ..)))

theorem agreeOwn (s : State) (r : OpRef) : LinksKept s (s.agreeOwn r) := by
  unfold State.agreeOwn; split
  · exact refl s
  · exact foldl _ _ _ fun s _ => ite (agree ..) (refl s)

theorem windowsDown (s : State) (r : OpRef) : LinksKept s (s.windowsDown r) := by
  unfold State.windowsDown; split
  · exact refl s
  · refine foldl _ _ _ fun s b => ?_
    dsimp only; split
    · exact ite ((sendRed ..).trans (foldl _ _ _ fun s c => modChunk s r c.1 _)) (refl s)
    · exact refl s

/-- Frames that go out one after the other, each noted as it was sent. -/
theorem sendAll (f : FnId) (p : Nat) (frames : List Frame) (a : List Frame × State) :
    LinksKept a.2 (frames.foldl (fun (a : List Frame × State) fr => let (g, s) := a.2.sendRed f p fr; (a.1 ++ [g], s)) a).2 :=
  List.foldlRecOn (motive := fun (b : List Frame × State) => LinksKept a.2 b.2) frames _ (refl a.2)
    fun b hb fr _ => hb.trans (sendRed b.2 f p fr)

theorem sendPartials (s : State) (x : Reduce) (p c : Nat) (w : Int) (sums : List Int) : LinksKept s (s.sendPartials x p c w sums) := by
  unfold State.sendPartials
  extract_lets frames high r t y u v
  have ht : LinksKept s t := sendAll x.fn p frames ([], s)
  have hv : LinksKept t v := (setStore ..).trans (ite (refl u) (count ..))
  exact ite (notices (.wait ..)) ((ht.trans hv).trans (modChunk ..))

theorem sendResults (s : State) (x : Reduce) (c e : Nat) (w : Int) (codes : List Nat) : LinksKept s (s.sendResults x c e w codes) := by
  refine foldl _ _ _ fun s l => ?_
  split
  · exact sendRed ..
  · exact refl s

theorem finalResults (s : State) (x : Reduce) (c : Nat) (w : Int) (sums : List Int) : LinksKept s (s.finalResults x c w sums) :=
  (foldl _ _ _ fun s _ => (writeResults s ..).trans (sendResults ..)).trans (modChunk ..)

theorem partialsUp (s : State) (r : OpRef) : LinksKept s (s.partialsUp r) := by
  unfold State.partialsUp; split
  · exact refl s
  · refine foldl _ _ _ fun s y => ?_
    split
    · exact refl s
    · refine ite (refl s) ?_
      dsimp only; split
      · exact finalResults ..
      · split
        · exact sendPartials ..
        · exact refl s

theorem pumpReduce (s : State) (r : OpRef) : LinksKept s (s.pumpReduce r) := by
  unfold State.pumpReduce
  extract_lets t
  have ht : LinksKept s t := (((windowsUp ..).trans (agreeOwn ..)).trans (windowsDown ..)).trans (partialsUp ..)
  split
  · exact ht.trans (ite (endReduce ..) (ite (endReduce ..) (refl t)))
  · exact ht

theorem onWindow (s : State) (x : Reduce) (p : Nat) (fr : Frame) : LinksKept s (s.onWindow x p fr) := by
  refine foldl _ _ _ fun s w => ?_
  dsimp only; split
  · exact ite (ite (refl s) (agree ..)) (modChunk ..)
  · exact refl s

theorem residueFault (s : State) (x : Reduce) (c : Nat) (links : List Nat) : LinksKept s (s.residueFault x c links) := by
  refine ite ((count ..).trans (endReduce ..)) ((modChunk ..).trans (foldl _ _ _ fun s l => ?_))
  split
  · exact sendRed ..
  · exact refl s

theorem onPartial (s : State) (x : Reduce) (p : Nat) (fr : Frame) (adderFault : Bool) : LinksKept s (s.onPartial x p fr adderFault) := by
  unfold State.onPartial; dsimp only; split
  · split
    · exact refl s
    · exact ite (endReduce ..) (ite (residueFault ..) (ite (modChunk ..) ((modChunk ..).trans (ite (residueFault ..) (refl _)))))
  · exact refl s

theorem onResult (s : State) (x : Reduce) (p : Nat) (fr : Frame) : LinksKept s (s.onResult x p fr) := by
  unfold State.onResult; dsimp only; split
  · exact refl s
  · split
    · exact refl s
    · exact ite (endReduce ..) (((writeResults ..).trans ((sendResults ..).trans (modChunk ..))).trans (ite (setStore ..) (refl _)))

theorem onRed (s : State) (x : Reduce) (p : Nat) (fr : Frame) (adderFault : Bool) : LinksKept s (s.onRed x p fr adderFault) := by
  unfold State.onRed; split
  · exact onWindow ..
  · exact onPartial ..
  · exact onResult ..
  · exact refl s

theorem startReduce (s : State) (x : Reduce) : LinksKept s (s.startReduce x) := by
  unfold State.startReduce
  extract_lets d t u kept v bad w z
  have hu : LinksKept t u := ite (refl t) (write ..)
  have hw : LinksKept v w := ite (refl v) ((count ..).trans (endReduce ..))
  have hz : LinksKept w z := by
    refine foldl _ _ _ fun s k => ?_
    split
    · exact ite (onRed ..) (refl s)
    · exact refl s
  refine (modReduce s ..).trans (ite ((write ..).trans (endReduce ..)) ?_)
  exact (((hu.trans (freeKept ..)).trans hw).trans hz).trans (pumpReduce ..)

theorem closeReduce (s : State) (x : Reduce) (status cause : Nat) : LinksKept s (s.closeReduce x status cause) := by
  unfold State.closeReduce
  extract_lets t
  have ht : LinksKept s t := of_ports rfl
  split
  · exact ht
  · exact ht.trans (ite (fail ..) (complete ..))

theorem flushChannel (f : FnId) (ch n : Nat) (s : State) : LinksKept s (State.flushChannel f ch n s) := by
  induction n generalizing s with
  | zero => exact refl s
  | succ n ih =>
    unfold State.flushChannel; split
    · exact refl s
    · split
      · exact (closeReduce ..).trans (ih _)
      · exact ite (refl s) ((startReduce ..).trans (ih _))

theorem pumpAll (s : State) : LinksKept s s.pumpAll :=
  foldl _ _ _ fun s _ => ite ((pumpReduce ..).trans (flushChannel ..)) (refl s)

/-! ## Operations that wait for messages (R283, R290, R297) -/

theorem dropShards (s : State) (f : FnId) (d : Desc) : LinksKept s (s.dropShards f d) := foldl _ _ _ fun _ _ => of_ports rfl

theorem placeShards (s : State) (f : FnId) (d : Desc) : LinksKept s (s.placeShards f d) :=
  foldl _ _ _ fun t _ => foldl _ _ t fun t a => write t a _

theorem shardVersion (s : State) (o : Op) (detail : Nat) : LinksKept s (s.shardVersion o detail) :=
  (dropShards ..).trans ((notices ((Notices.count ..).trans (.raise ..))).trans (fail ..))

theorem endGather (s : State) (o : Op) (tag : Nat) : LinksKept s (s.endGather o tag) := by
  have hfail : LinksKept s ((s.dropShards o.fn o.desc).fail o 0x73) := (dropShards ..).trans (fail ..)
  exact ite (ite hfail ((dropShards ..).trans ((modJob ..).trans (complete ..))))
    (ite hfail (ite (shardVersion ..) ((dropShards ..).trans (complete ..))))

theorem settleGather (s : State) (o : Op) : LinksKept s (s.settleGather o) :=
  (placeShards ..).trans (ite (shardVersion ..) (ite (endGather ..) (refl _)))

theorem settleOp (s : State) (o : Op) : LinksKept s (s.settleOp o) :=
  ite (refl s) (ite (settleGather ..) (ite (ite (refl s) (complete ..)) (refl s)))

theorem settleScarf (f : FnId) (n : Nat) (s : State) : LinksKept s (State.settleScarf f n s) := by
  induction n generalizing s with
  | zero => exact refl s
  | succ n ih =>
    unfold State.settleScarf; split
    · exact refl s
    · split
      · extract_lets t
        have ht : LinksKept s t := of_ports rfl
        split
        · exact ht.trans (ite (fail ..) (((write t ..).trans (modJob ..)).trans (ih _)))
        · exact ht.trans (fail ..)
      · exact refl s

theorem settleAll (s : State) : LinksKept s s.settleAll := by
  have hout : LinksKept s { s with outbox := s.outbox.filter s.underway } := of_ports rfl
  refine (hout.trans (foldl _ _ _ fun s o => ?_)).trans (foldl _ _ _ fun s f => ite (settleScarf ..) (refl s))
  split
  · exact settleOp ..
  · exact refl s

/-! ## The loss itself (R260, R274) -/

theorem loseMessages (s : State) (o : Op) : LinksKept s (s.loseMessages o) := ite (modOp ..) (fail ..)

/-- A link that is dropped leaves its port without partner, with empty buffers; the other links stay. -/
theorem dropLink (s : State) (p : Nat) : LinksKept (s.setPort p (s.port p).lost) (s.dropLink p) := by
  unfold State.dropLink
  extract_lets x gone before chip t u v w
  have hu : LinksKept t u := of_ports rfl
  have hv : LinksKept u v := ite (losePartner ..) (refl u)
  have hw : LinksKept v w := foldl _ _ _ fun s o => loseMessages s o
  exact ((hu.trans hv).trans hw).trans (((settleAll w).trans (pumpAll _)).trans (helloIfChanged ..))

end Sys2Proof.Laws.LinksKept

/-! # Link control, training and loss (R259, R260, R263, R264) -/

namespace Sys2Proof.Machine

/-! ## The LCTRL that a port sends (R263) -/

@[simp] theorem Port.ctrl_sendControl (x : Port) : x.sendControl.ctrl = x.control := by rw [sendControl]
@[simp] theorem Port.owed_sendControl (x : Port) : x.sendControl.owed = x.owed.map (fun c => c - 4095) := by rw [sendControl]
@[simp] theorem Port.replay_sendControl (x : Port) : x.sendControl.replay = x.replay := by rw [sendControl]
@[simp] theorem Port.credits_sendControl (x : Port) : x.sendControl.credits = x.credits := by rw [sendControl]
@[simp] theorem Port.st_sendControl (x : Port) : x.sendControl.st = x.st := by rw [sendControl]

theorem Port.lcAck_sendControl (x : Port) : lcAck x.sendControl.ctrl = (x.rxSeq + 4095) % 4096 := by
  rw [ctrl_sendControl, lcAck, fld, control, BitVec.toNat_ofNat, field_mod (by decide), field]
  generalize x.owed.foldr _ 0 = owed
  rw [Nat.shiftRight_zero]
  omega

theorem Port.lcNak_sendControl (x : Port) : lcNak x.sendControl.ctrl = x.nak := by
  rw [ctrl_sendControl, lcNak, flag, control, BitVec.getLsbD_ofNat, Nat.testBit_eq_decide_div_mod_eq]
  have hlast : (x.rxSeq + 4095) % 4096 < 4096 := Nat.mod_lt _ (by decide)
  generalize x.owed.foldr _ 0 = owed, (x.rxSeq + 4095) % 4096 = last, x.rxSeq % 4096 = expected at hlast ⊢
  simp only [Nat.reducePow, Nat.reduceLT, decide_true, Bool.true_and]
  cases x.nak <;> simp only [b2n, Bool.false_eq_true, if_true, if_false, decide_eq_true_eq, decide_eq_false_iff_not] <;> omega

theorem exec_lctrlSend {s : State} {port : PortId} (hst : 2 ≤ (s.port port.val).st) :
    exec (.lctrlSend port) s = .next (s.setPort port.val (s.port port.val).sendControl) := if_neg (Nat.not_lt.mpr hst)

/-! ## An LCTRL that comes (R263, R264) -/

/-- Acknowledged frames leave, and credits come back up to the initial ones. -/
theorem Port.takeControl_eq (x : Port) (d : BitVec 256) : x.takeControl d =
    { x with
      replay := x.replay.dropWhile (ackedBy (lcAck d))
      replays := if (x.replay.dropWhile (ackedBy (lcAck d))).length < x.replay.length then 0 else x.replays
      credits := x.credits.mapIdx (fun i c => min (c + lcCredit d i) (initialCredits.getD i 0)) } := by
  simp only [takeControl, decide_eq_true_eq]

theorem exec_lctrl {s : State} {port : PortId} (hst : 2 ≤ (s.port port.val).st) (payload : BitVec 256) :
    exec (.lctrl port payload) s =
      (let taken := s.setPort port.val ((s.port port.val).takeControl payload)
       .next ((((if lcNak payload then taken.goBack port.val (lcSeq payload) else taken).drain port.val).settleAll).pumpAll)) :=
  if_neg (Nat.not_lt.mpr hst)

/-! ## Training (R259) -/

/-- A port that has trained and sent its HELLO keeps the link that it trained, and half a width is raised; the other ports are left. -/
theorem State.linkTrained_sendHello (s : State) (port : PortId) (width : Nat) :
    let t := (s.linkTrained port.val width).sendHello port.val
    ({ (s.port port.val).lost with st := 2, width := width } : Port).Keeps (t.port port.val)
      ∧ (width ≠ 3 → (t.reg 0 (pageFab port.val + 0x18)).testBit 2 = true) ∧ ∀ k, k ≠ port.val → t.port k = s.port k := by
  intro t
  let x : Port := { (s.port port.val).lost with st := 2, width := width }
  let u := (s.setPort port.val x).count (pageFab port.val + 0x68)
  let v := (u.raise (pageFab port.val) 2).logPkg 0x4281 port.val (if width = 1 then 0 else 1) (heChip (s.port port.val).hello)
  have htrained : s.linkTrained port.val width = if width = 3 then s.setPort port.val x else v := rfl
  have hports : (s.linkTrained port.val width).ports = (s.setPort port.val x).ports := by
    rw [htrained]
    split
    · rfl
    · exact ((Laws.Notices.count ..).trans ((Laws.Notices.raise ..).trans (.logPkg ..))).ports
  refine ⟨?keeps, fun hhalf => ?event, fun k hk => ?others⟩
  case keeps =>
    have hkept : Laws.LinksKept (s.setPort port.val x) t := .trans (.of_ports hports) (.sendHello ..)
    have hkeeps := hkept.ports port.val
    rwa [port_setPort] at hkeeps
  case event =>
    have hsettles : Laws.Settles port (u.raise (pageFab port.val) 2) t := by
      simp only [t, htrained, if_neg hhalf]
      exact (Laws.Settles.logPkg _ _ _ _ (by decide)).trans (.sendHello ..)
    exact (hsettles.of_raise (by decide)).2
  case others =>
    have hsent : t.port k = (s.linkTrained port.val width).port k := by
      simp only [t, sendHello]
      split
      · rfl
      · exact port_sendOn_ne hk _
    rw [hsent, port_congr hports, port_setPort_ne _ _ _ _ hk.symm]

section
variable {s : State} {port : PortId}

theorem exec_portTraining_none (hst : (s.port port.val).st ≤ 1) (hon : s.portEnabled port.val = true) (hclock : s.portClock port.val = true) :
    exec (.portTraining port false false) s = .next (s.setPort port.val { s.port port.val with st := 0, width := 0 }) :=
  if_neg (by simp [hst, hon, hclock])

/-- Where lanes train, the link is up at the width of those that did. -/
theorem exec_portTraining_some {low high : Bool} (hst : (s.port port.val).st ≤ 1) (hon : s.portEnabled port.val = true)
    (hclock : s.portClock port.val = true) (hlanes : low = true ∨ high = true) : exec (.portTraining port low high) s =
      .next ((s.linkTrained port.val (if low && high then 3 else if low then 1 else 2)).sendHello port.val) := by
  refine (if_neg (by simp [hst, hon, hclock])).trans ?_
  cases low <;> cases high
  · exact absurd hlanes (by decide)
  all_goals rfl

theorem exec_portTraining_idle {low high : Bool} (h : 1 < (s.port port.val).st ∨ s.portEnabled port.val = false ∨ s.portClock port.val = false) :
    exec (.portTraining port low high) s = .next s := if_pos (by simpa using h)

theorem exec_portRetry_of_down (hst : (s.port port.val).st = 0) (hon : s.portEnabled port.val = true)
    (hclock : s.portClock port.val = true) :
    exec (.portRetry port) s = .next (s.setPort port.val { s.port port.val with st := 1 }) := if_pos ⟨hst, hon, hclock⟩

theorem exec_portRetry_idle (h : (s.port port.val).st ≠ 0 ∨ s.portEnabled port.val = false ∨ s.portClock port.val = false) :
    exec (.portRetry port) s = .next s := if_neg (by simp only [not_and_or]; simpa using h)

/-! ## Loss (R260) -/

/-- A lost link starts from empty buffers. -/
theorem exec_fabricLinkLost (hst : 2 ≤ (s.port port.val).st) : ∃ t, exec (.fabricLinkLost port) s = .next t
    ∧ (s.port port.val).lost.Keeps (t.port port.val) := by
  refine ⟨s.loseLink port.val, if_pos hst, ?_⟩
  have hkeeps := (Laws.LinksKept.dropLink (s.count (pageFab port.val + 0x64)) port.val).ports port.val
  rwa [State.port_setPort] at hkeeps

/-- A frame whose CRC fails is asked for again. -/
theorem exec_droppedFrame_crc (hst : 2 ≤ (s.port port.val).st) (fr : Frame) : exec (.droppedFrame port fr false) s =
    .next ((s.setPort port.val ({ s.port port.val with nak := true } : Port).sendControl).count (pageFab port.val + 0x5C)) :=
  if_neg (Nat.not_lt.mpr hst)

/-- A frame with a bad header is taken from the buffer and counted. -/
theorem exec_droppedFrame_header {fr : Frame} (hst : 2 ≤ (s.port port.val).st) (hbad : headerOk fr = false) :
    exec (.droppedFrame port fr true) s =
      .next ((s.setPort port.val ((s.port port.val).accept fr)).count (pageFab port.val + 0x70)) :=
  (if_neg (Nat.not_lt.mpr hst)).trans (if_pos (Or.inl (by rw [hbad]; rfl)))

end

end Sys2Proof.Machine

namespace Sys2Proof.Laws

open Sys2Proof.Machine

/-- Settles O47: each command comes to its own effect on its port; what a lost link ends or lets go on changes no link. -/
theorem linkControl : Obligations.LinkControl := by
  intro s port payload low high fr p x left taken
  refine ⟨fun hst => ⟨if_pos hst, if_pos hst, if_neg (Nat.not_le.mpr hst), if_pos hst⟩, fun hst => ?control, fun hst => ?sent,
    fun hst hon hclock => ⟨fun hlow hhigh => ?down, fun hlanes => ?up⟩, exec_portTraining_idle, exec_portRetry_of_down,
    exec_portRetry_idle, fun hst => ?lost, fun hst => exec_droppedFrame_crc hst fr, exec_droppedFrame_header⟩
  case control =>
    rw [exec_lctrl hst, Port.takeControl_eq]
  case sent =>
    exact ⟨_, exec_lctrlSend hst, x.lcAck_sendControl, x.lcNak_sendControl, x.owed_sendControl, x.replay_sendControl,
      x.credits_sendControl, x.st_sendControl⟩
  case down =>
    subst hlow hhigh
    exact exec_portTraining_none hst hon hclock
  case up =>
    obtain ⟨hkeeps, hevent, hothers⟩ := s.linkTrained_sendHello port (if low && high then 3 else if low then 1 else 2)
    refine ⟨_, exec_portTraining_some hst hon hclock hlanes, hkeeps.st, hkeeps.rxSeq, hkeeps.width, fun hhalf => hevent ?_, hothers⟩
    rw [hhalf]
    cases low <;> decide
  case lost =>
    obtain ⟨t, hexec, hkeeps⟩ := exec_fabricLinkLost hst
    exact ⟨t, hexec, hkeeps.st, hkeeps.replay (by decide : (1 : Nat) < 2), List.sublist_nil.mp hkeeps.kept⟩

end Sys2Proof.Laws

/-! # Operations stay apart (R420, R422)

Every operation of the model keeps the numbers of the outstanding operations apart, because it changes them in few ways only: the watcher
adds an operation under the next number, a completion drops one, and everything else changes an operation in anything but its number. Each
lemma below follows the definition that it is named after; the step is the last of them. -/

namespace Sys2Proof.Machine

/-- The outstanding operations are apart: each has a number of its own, below the next one to be given. -/
def State.Numbered (s : State) : Prop := (s.ops.map Op.num).Nodup ∧ ∀ o ∈ s.ops, o.num < s.nextOp

/-- What a command comes to has its operations apart. -/
def Keeps (r : Host.Outcome State Fault Refusal) : Prop := ∀ t, r = .next t → t.Numbered

theorem Keeps.ite {c : Prop} [Decidable c] {r r' : Host.Outcome State Fault Refusal} (hr : Keeps r) (hr' : Keeps r') :
    Keeps (if c then r else r') := by
  split
  · exact hr
  · exact hr'

end Sys2Proof.Machine

namespace Sys2Proof.Machine.State.Numbered

open Sys2Proof Sys2Proof.Laws

variable {s t : State} {α : Type}

theorem next (h : s.Numbered) : Keeps (.next s) := fun t ht => by
  cases ht
  exact h

theorem ite {c : Prop} [Decidable c] (hs : s.Numbered) (ht : t.Numbered) : (if c then s else t).Numbered := by
  split
  · exact hs
  · exact ht

theorem ite_snd {c : Prop} [Decidable c] {p q : α × State} (hp : p.2.Numbered) (hq : q.2.Numbered) : (if c then p else q).2.Numbered := by
  split
  · exact hp
  · exact hq

theorem ite_fst {c : Prop} [Decidable c] {p q : State × α} (hp : p.1.Numbered) (hq : q.1.Numbered) : (if c then p else q).1.Numbered := by
  split
  · exact hp
  · exact hq

theorem foldl {step : State → α → State} {xs : List α} (h : s.Numbered) (hstep : ∀ t x, t.Numbered → (step t x).Numbered) :
    (xs.foldl step s).Numbered :=
  List.foldlRecOn xs step h fun t ht x _ => hstep t x ht

theorem foldl_fst {β : Type} {step : State × β → α → State × β} {xs : List α} {p : State × β} (h : p.1.Numbered)
    (hstep : ∀ p x, p.1.Numbered → (step p x).1.Numbered) : (xs.foldl step p).1.Numbered :=
  List.foldlRecOn (motive := fun p => p.1.Numbered) xs step h fun p hp x _ => hstep p x hp

theorem foldl_snd {β : Type} {step : β × State → α → β × State} {xs : List α} {p : β × State} (h : p.2.Numbered)
    (hstep : ∀ p x, p.2.Numbered → (step p x).2.Numbered) : (xs.foldl step p).2.Numbered :=
  List.foldlRecOn (motive := fun p => p.2.Numbered) xs step h fun p hp x _ => hstep p x hp

theorem of_snd {p : α × State} {x : α} (h : p.2.Numbered) (hp : p = (x, t)) : t.Numbered := by
  subst hp
  exact h

theorem of_fst {p : State × α} {x : α} (h : p.1.Numbered) (hp : p = (t, x)) : t.Numbered := by
  subst hp
  exact h

/-- What is done under a condition only. -/
theorem when {c : Prop} [Decidable c] (hs : s.Numbered) (ht : s.Numbered → t.Numbered) : (if c then t else s).Numbered := ite (ht hs) hs

theorem keepOr {c : Prop} [Decidable c] (hs : s.Numbered) (ht : s.Numbered → t.Numbered) : (if c then s else t).Numbered := ite hs (ht hs)

theorem of_eq (h : s.Numbered) (hops : t.ops = s.ops ) (hnext : t.nextOp = s.nextOp ) : t.Numbered := by
  unfold State.Numbered
  rw [hops, hnext]
  exact h

theorem of_notices (h : s.Numbered) (hn : Notices s t) : t.Numbered := h.of_eq hn.ops hn.nextOp

/-- Operations that go away, or change in anything but their numbers, stay apart. -/
theorem of_sublist (h : s.Numbered) (hops : (t.ops.map Op.num).Sublist (s.ops.map Op.num)) (hnext : t.nextOp = s.nextOp) : t.Numbered :=
  ⟨h.1.sublist hops, fun o ho => by
    obtain ⟨x, hx, hnum⟩ := List.mem_map.mp (hops.subset (List.mem_map_of_mem ho))
    have hlt : x.num < s.nextOp := h.2 x hx
    omega⟩

theorem of_nums (h : s.Numbered) (hops : t.ops.map Op.num = s.ops.map Op.num) (hnext : t.nextOp = s.nextOp) : t.Numbered :=
  h.of_sublist (by rw [hops]) hnext

theorem of_map {g : Op → Op} (h : s.Numbered) (hg : ∀ o, (g o).num = o.num) (hops : t.ops = s.ops.map g) (hnext : t.nextOp = s.nextOp) :
    t.Numbered :=
  h.of_nums (by rw [hops, List.map_map, show Op.num ∘ g = Op.num from funext hg]) hnext

/-! ## Fields that hold no operation -/

theorem setPending {pending} (h : s.Numbered) : ({ s with pending } : State).Numbered := h
theorem setParked {parked} (h : s.Numbered) : ({ s with parked } : State).Numbered := h
theorem setMem {mem} (h : s.Numbered) : ({ s with mem } : State).Numbered := h
theorem setMemFresh {mem fresh} (h : s.Numbered) : ({ s with mem, fresh } : State).Numbered := h
theorem setMemPoison {mem poison} (h : s.Numbered) : ({ s with mem, poison } : State).Numbered := h
theorem setPoison {poison} (h : s.Numbered) : ({ s with poison } : State).Numbered := h
theorem setDir {dir} (h : s.Numbered) : ({ s with dir } : State).Numbered := h
theorem setDirCtxs {dir ctxs} (h : s.Numbered) : ({ s with dir, ctxs } : State).Numbered := h
theorem setDirCellsDiesHbmsPartsPower {dir cells dies hbms parts power} (h : s.Numbered) : ({ s with dir, cells, dies, hbms, parts, power } : State).Numbered := h
theorem setScrubs {scrubs} (h : s.Numbered) : ({ s with scrubs } : State).Numbered := h
theorem setDirLag {dirLag} (h : s.Numbered) : ({ s with dirLag } : State).Numbered := h
theorem setCtxs {ctxs} (h : s.Numbered) : ({ s with ctxs } : State).Numbered := h
theorem setFrames {frames} (h : s.Numbered) : ({ s with frames } : State).Numbered := h
theorem setFns {fns} (h : s.Numbered) : ({ s with fns } : State).Numbered := h
theorem setQueues {queues} (h : s.Numbered) : ({ s with queues } : State).Numbered := h
theorem setHeldOps {heldOps} (h : s.Numbered) : ({ s with heldOps } : State).Numbered := h
theorem setCells {cells} (h : s.Numbered) : ({ s with cells } : State).Numbered := h
theorem setCellsPower {cells power} (h : s.Numbered) : ({ s with cells, power } : State).Numbered := h
theorem setMes {mes} (h : s.Numbered) : ({ s with mes } : State).Numbered := h
theorem setTes {tes} (h : s.Numbered) : ({ s with tes } : State).Numbered := h
theorem setDies {dies} (h : s.Numbered) : ({ s with dies } : State).Numbered := h
theorem setHbms {hbms} (h : s.Numbered) : ({ s with hbms } : State).Numbered := h
theorem setParts {parts} (h : s.Numbered) : ({ s with parts } : State).Numbered := h
theorem setPorts {ports} (h : s.Numbered) : ({ s with ports } : State).Numbered := h
theorem setReduces {reduces} (h : s.Numbered) : ({ s with reduces } : State).Numbered := h
theorem setReducesRedDone {reduces redDone} (h : s.Numbered) : ({ s with reduces, redDone } : State).Numbered := h
theorem setRedDone {redDone} (h : s.Numbered) : ({ s with redDone } : State).Numbered := h
theorem setInbox {inbox} (h : s.Numbered) : ({ s with inbox } : State).Numbered := h
theorem setMail {mail} (h : s.Numbered) : ({ s with mail } : State).Numbered := h
theorem setOutbox {outbox} (h : s.Numbered) : ({ s with outbox } : State).Numbered := h
theorem setNextMsg {nextMsg} (h : s.Numbered) : ({ s with nextMsg } : State).Numbered := h
theorem setJobs {jobs} (h : s.Numbered) : ({ s with jobs } : State).Numbered := h
theorem setBeat {beat} (h : s.Numbered) : ({ s with beat } : State).Numbered := h
theorem setLog {log} (h : s.Numbered) : ({ s with log } : State).Numbered := h
theorem setLogLogNext {log logNext} (h : s.Numbered) : ({ s with log, logNext } : State).Numbered := h
theorem setLogLogNextRegs {log logNext regs} (h : s.Numbered) : ({ s with log, logNext, regs } : State).Numbered := h
theorem setPower {power} (h : s.Numbered) : ({ s with power } : State).Numbered := h
theorem setStore {store} (h : s.Numbered) : ({ s with store } : State).Numbered := h
theorem setBoot {boot} (h : s.Numbered) : ({ s with boot } : State).Numbered := h
theorem setBootScanData {boot scanData} (h : s.Numbered) : ({ s with boot, scanData } : State).Numbered := h
theorem setLinks {links} (h : s.Numbered) : ({ s with links } : State).Numbered := h
theorem setExtension {extension} (h : s.Numbered) : ({ s with extension } : State).Numbered := h
theorem setRegs {regs} (h : s.Numbered) : ({ s with regs } : State).Numbered := h
theorem setSnapshots {snapshots} (h : s.Numbered) : ({ s with snapshots } : State).Numbered := h
theorem setMgmtEvent {mgmtEvent} (h : s.Numbered) : ({ s with mgmtEvent } : State).Numbered := h
theorem setMgmtCoalesce {mgmtCoalesce} (h : s.Numbered) : ({ s with mgmtCoalesce } : State).Numbered := h
theorem setRdDataFresh {rdData fresh} (h : s.Numbered) : ({ s with rdData, fresh } : State).Numbered := h
theorem setSmbData {smbData} (h : s.Numbered) : ({ s with smbData } : State).Numbered := h
theorem setSmbDataFresh {smbData fresh} (h : s.Numbered) : ({ s with smbData, fresh } : State).Numbered := h
theorem setLastCpl {lastCpl} (h : s.Numbered) : ({ s with lastCpl } : State).Numbered := h
theorem setFresh {fresh} (h : s.Numbered) : ({ s with fresh } : State).Numbered := h

/-! ## The operations of the model -/

/-! ### State -/

theorem reset : State.reset.Numbered := ⟨List.nodup_nil, fun _ ho => absurd ho List.not_mem_nil⟩

/-! ### Ops -/

theorem write {s : State} {a : Nat} {bs : List Byte} (h : s.Numbered) : (s.write a bs).Numbered := h.setMemPoison

theorem writeNat {s : State} {a n v : Nat} (h : s.Numbered) : (s.writeNat a n v).Numbered := h.write

theorem writeAll {s : State} {runs : List (Nat × List Byte)} (h : s.Numbered) : (s.writeAll runs).Numbered :=
  foldl h fun _ _ h1 => h1.write

theorem draw {s : State} (h : s.Numbered) : (s.draw).2.Numbered := h.setFresh

theorem setFn {s : State} {f : FnId} {x : Fn} (h : s.Numbered) : (s.setFn f x).Numbered := h.setFns

theorem modFn {s : State} {f : FnId} {g : Fn → Fn} (h : s.Numbered) : (s.modFn f g).Numbered := h.setFn

theorem setCell {s : State} {c : CoreId} {x : Cell} (h : s.Numbered) : (s.setCell c x).Numbered := h.setCells

theorem modCell {s : State} {c : CoreId} {g : Cell → Cell} (h : s.Numbered) : (s.modCell c g).Numbered := h.setCell

theorem setQueue {s : State} {q : Nat} {x : Queue} (h : s.Numbered) : (s.setQueue q x).Numbered := h.setQueues

theorem setMe {s : State} {i : Nat} {x : Me} (h : s.Numbered) : (s.setMe i x).Numbered := h.setMes

theorem setTe {s : State} {i : Nat} {x : Te} (h : s.Numbered) : (s.setTe i x).Numbered := h.setTes

theorem setDie {s : State} {i : Nat} {x : Die} (h : s.Numbered) : (s.setDie i x).Numbered := h.setDies

theorem setStack {s : State} {i : Nat} {x : Stack} (h : s.Numbered) : (s.setStack i x).Numbered := h.setHbms

theorem setPart {s : State} {i : Nat} {x : Part} (h : s.Numbered) : (s.setPart i x).Numbered := h.setParts

theorem setPort {s : State} {i : Nat} {x : Port} (h : s.Numbered) : (s.setPort i x).Numbered := h.setPorts

theorem setFrame {s : State} {i : Nat} {x : FrameState} (h : s.Numbered) : (s.setFrame i x).Numbered := h.setFrames

theorem setJob {s : State} {i : Nat} {x : MasterJob} (h : s.Numbered) : (s.setJob i x).Numbered := h.setJobs

theorem setLink {s : State} {i : Nat} {x : LinkSlot} (h : s.Numbered) : (s.setLink i x).Numbered := h.setLinks

theorem setCtx {s : State} {i : Nat} {x : BitVec 1024} (h : s.Numbered) : (s.setCtx i x).Numbered := h.setCtxs

theorem setPage {s : State} {p : Nat} {x : BitVec 64} (h : s.Numbered) : (s.setPage p x).Numbered := h.setDir

theorem setReg {s : State} {win off v : Nat} (h : s.Numbered) : (s.setReg win off v).Numbered := h.setRegs

theorem addReg {s : State} {win off n : Nat} (h : s.Numbered) : (s.addReg win off n).Numbered := h.setReg

theorem count {s : State} {off n : Nat} (h : s.Numbered) : (s.count off n).Numbered := h.addReg

theorem wait {s : State} {off : Nat} (h : s.Numbered) : (s.wait off).Numbered := h.draw.count

theorem message {s : State} {addr : Nat} {data : Word} (h : s.Numbered) : (s.message addr data).Numbered := ite h h.write

theorem eventTo {s : State} {win page bit : Nat} (h : s.Numbered) : (s.eventTo win page bit).Numbered := ite (ite h.message h.message) h

theorem raise {s : State} {page bit : Nat} (h : s.Numbered) : (s.raise page bit).Numbered := h.of_notices (Notices.raise ..)

theorem raiseLog {s : State} {win bit : Nat} (h : s.Numbered) : (s.raiseLog win bit).Numbered := ite h h.setReg.eventTo

theorem raiseFn {s : State} {f : FnId} {bit : Nat} (h : s.Numbered) : (s.raiseFn f bit).Numbered := h.raise

theorem errorIn {s : State} {win page code fn : Nat} {mgmt : Bool} (h : s.Numbered) : (s.errorIn win page code fn mgmt).Numbered :=
  ite h.addReg h.addReg.setReg.setReg.setReg

theorem pageError {s : State} {page code : Nat} {fn : Option FnId} {mgmt : Bool} (h : s.Numbered) :
    (s.pageError page code fn mgmt).Numbered := by
  unfold State.pageError
  dsimp only
  split
  · exact ite h.errorIn h.errorIn.errorIn
  · exact h.errorIn

theorem logEvent {s : State} {code : Nat} {fn : Option FnId} {inst : Nat} {core : Option CoreId} {d0 d1 : Nat} (h : s.Numbered) :
    (s.logEvent code fn inst core d0 d1).Numbered :=
  h.of_notices (Notices.logEvent ..)

theorem logPkg {s : State} {code inst d0 d1 : Nat} (h : s.Numbered) : (s.logPkg code inst d0 d1).Numbered := h.logEvent

theorem logFn {s : State} {code : Nat} {f : FnId} {inst d0 d1 : Nat} (h : s.Numbered) : (s.logFn code f inst d0 d1).Numbered := h.logEvent

theorem num_of_is {o x : Op} (h : x.is o.ref = true) : o.num = x.num := by
  rw [Op.is, Bool.and_eq_true, decide_eq_true_eq, decide_eq_true_eq] at h
  exact h.2.symm

theorem modOp {s : State} {r : OpRef} {g : Op → Op} (h : s.Numbered) (hg : ∀ o, o.is r = true → (g o).num = o.num := by
  exact fun _ _ => rfl) :
    (s.modOp r g).Numbered :=
  h.of_map (g := fun o => if o.is r then g o else o) (fun o => by
    split
    · rename_i hr; exact hg o hr
    · rfl) rfl rfl

theorem takeFirst_sublist {p : α → Bool} {xs : List α} : (takeFirst p xs).2.Sublist xs := by
  induction xs with
  | nil => exact List.Sublist.slnil
  | cons x xs ih =>
    unfold takeFirst
    split
    · exact List.sublist_cons_self x xs
    · exact ih.cons_cons x

theorem dropOp {s : State} {r : OpRef} (h : s.Numbered) : (s.dropOp r).Numbered :=
  h.of_sublist (takeFirst_sublist.map _) rfl

theorem addOp {s : State} {o : Op} (h : s.Numbered) (ho : o.num = s.nextOp) : (s.addOp o).Numbered := by
  refine ⟨?_, fun x hx => ?_⟩
  · rw [addOp_ops, List.map_append, List.map_singleton, List.nodup_append_comm, List.singleton_append, List.nodup_cons]
    refine ⟨fun hmem => ?_, h.1⟩
    obtain ⟨x, hx, hnum⟩ := List.mem_map.mp hmem
    exact absurd (h.2 x hx) (by omega)
  · rw [addOp_nextOp]
    rcases List.mem_append.mp hx with hx | hx
    · exact Nat.lt_succ_of_lt (h.2 x hx)
    · rw [List.mem_singleton.mp hx, ho]
      exact Nat.lt_succ_self _

theorem interrupt {s : State} {n : QueueId} (h : s.Numbered) : (s.interrupt n).Numbered := h.setQueue.message

theorem countIrq {s : State} {n : QueueId} (h : s.Numbered) : (s.countIrq n).Numbered := ite h.interrupt h.setQueue

theorem putRecord {s : State} {n : QueueId} {r : Record} (h : s.Numbered) : (s.putRecord n r).Numbered := h.write.setQueue

theorem blame {s : State} {q : Queue} (h : s.Numbered) : (s.blame q).Numbered := h.draw.pageError

theorem postRecord {s : State} {n : QueueId} {r : Record} {irq : Bool} (h : s.Numbered) : (s.postRecord n r irq).Numbered :=
  ite h.setQueue.wait.blame (ite h.putRecord.countIrq h.putRecord)

theorem releaseHolds {s : State} {o : Op} (h : s.Numbered) : (s.releaseHolds o).Numbered := h.setDirCtxs

theorem complete {s : State} {o : Op} {status cause count detail : Nat} (h : s.Numbered) :
    (s.complete o status cause count detail).Numbered :=
  h.dropOp.releaseHolds.draw.postRecord.setLastCpl

theorem done {s : State} {o : Op} (h : s.Numbered) : (s.done o).Numbered := h.complete

theorem faultOp {s : State} {o : Op} {cause : Nat} (h : s.Numbered) : (s.faultOp o cause).Numbered := h.complete

/-! ### Store -/

theorem storeRecord {s : State} {type scope : Nat} {payload : List Byte} (h : s.Numbered) :
    (s.storeRecord type scope payload).Numbered :=
  h.setStore

theorem execPohRecord {s : State} (h : s.Numbered) : Keeps (execPohRecord s) := next h.setCellsPower.storeRecord

theorem execCalibrationRecordWrite {type scope : BitVec 16} {payload : List Byte} {readsBack : Bool} {s : State} (h : s.Numbered) :
    Keeps (execCalibrationRecordWrite type scope payload readsBack s) :=
  next h.setStore

theorem execStoreCompaction {s : State} (h : s.Numbered) : Keeps (execStoreCompaction s) := Keeps.ite (next h.setStore) (next h)

/-! ### Operands -/

theorem park {s : State} {i : Instr} {o : Op} (h : s.Numbered) : (s.park i o).Numbered :=
  h.modOp.setParked

theorem accept {s : State} {i : Instr} {q : QueueId} {d : Desc} (h : s.Numbered) : (s.accept i q d).2.Numbered := by
  have hadd : (s.addOp { Op.new q s.nextOp d (s.actsFor q d) with readBeat := s.beatNow }).Numbered := h.addOp rfl
  refine ite_snd h ?_
  split
  · exact ite_snd h.park (h.modOp fun _ hx => num_of_is hx)
  · exact ite_snd h (ite_snd (blame h.wait) (ite_snd hadd.faultOp (ite_snd hadd.park
      (hadd.modOp fun _ hx => num_of_is hx))))

theorem markIssued {s : State} {o : Op} (h : s.Numbered) : (s.markIssued o).Numbered := ite h.modFn h

theorem issue {s : State} {i : Instr} {k : Op → State → State} (h : s.Numbered) (hk : ∀ o t, t.Numbered → (k o t).Numbered) :
    (s.issue i k).Numbered := by
  unfold State.issue
  split
  · exact h
  · refine ite ?_ h
    split
    · rename_i hacc; exact of_snd h.accept hacc
    · rename_i hacc; exact hk _ _ (of_snd h.accept hacc).markIssued

theorem kill {s : State} {o : Op} {status cause : Nat} (h : s.Numbered) : (s.kill o status cause).Numbered := h.setParked.complete

theorem killAll {s : State} {os : List Op} {status : Nat} (h : s.Numbered) : (s.killAll os status).Numbered :=
  foldl h fun _ _ h1 => h1.kill

theorem issueOnCore {s : State} {i : Instr} {k : CoreId → Op → State → State} (h : s.Numbered) (hk : ∀ y1 y2 t, t.Numbered →
    (k y1 y2 t).Numbered) :
    (s.issueOnCore i k).Numbered :=
  issue h (fun _ _ h1 => by
    split
    · exact ite h1.complete (ite h1.park (hk _ _ _ h1))
    · exact h1.complete)

theorem putOp {s : State} {o : Op} (h : s.Numbered) : (s.putOp o).Numbered := h.modOp fun _ hx => num_of_is hx

theorem parkStage {s : State} {i : Instr} {o : Op} (h : s.Numbered) : (s.parkStage i o).Numbered := h.wait.park

theorem keyWait {s : State} {i : Instr} {o : Op} {pages : List Nat} (h : s.Numbered) : (s.keyWait i o pages).Numbered :=
  h.setDir.wait.park

theorem waitRaise {s : State} {page off bit : Nat} (h : s.Numbered) : (s.waitRaise page off bit).Numbered := ite h.wait.raise h.wait

theorem winStall {s : State} {f : FnId} {slot : Nat} (h : s.Numbered) : (s.winStall f slot).Numbered :=
  when (foldl h.waitRaise fun _ _ h1 => by
    split
    · exact ite h1 h1.wait
    · exact ite h1 h1.wait
    · exact h1.wait) fun h3 => h3.wait

theorem watchWrite {s : State} {addr : Nat} {e : BitVec 1024} (h : s.Numbered) : (s.watchWrite addr e).Numbered := h.write

theorem watchReport {s : State} {f : FnId} {id : Nat} {c : Counts} {beyond lowered still : Bool} (h : s.Numbered) :
    (s.watchReport f id c beyond lowered still).Numbered := by
  unfold State.watchReport
  split
  · exact h
  · exact when (ite (count (when (ite h.watchWrite.setReg.raise h.watchWrite) fun h2 => h2.count)) (when (ite h.watchWrite.setReg.raise
      h.watchWrite) fun h2 => h2.count)) fun h4 => h4.count.raise

theorem mapWatch {s : State} {f : FnId} {ids : List Nat} {g : BitVec 1024 → BitVec 1024} (h : s.Numbered) :
    (s.mapWatch f ids g).Numbered :=
  foldl h fun _ _ h1 => by
    split
    · exact h1.watchWrite
    · exact h1

theorem scramble {s : State} {a n : Nat} (h : s.Numbered) : (s.scramble a n).Numbered := h.write.setFresh

/-! ### Links -/

theorem sendOn {s : State} {p : Nat} {f : Frame} (h : s.Numbered) : (s.sendOn p f).Numbered :=
  ite h (ite (ite h.setPort.wait h.setPort) h)

theorem sealFrame {s : State} {f : FnId} {fr : Frame} (h : s.Numbered) : (s.sealFrame f fr).2.Numbered := by
  unfold State.sealFrame
  split
  · exact h
  · exact h.setLink

theorem took {s : State} {p pool units : Nat} (h : s.Numbered) : (s.took p pool units).Numbered := h.setPort

theorem sealFail {s : State} {p : Nat} {fr : Frame} (h : s.Numbered) : (s.sealFail p fr).Numbered := h.count.raise.logPkg

theorem dropKept {s : State} {f : FnId} (h : s.Numbered) : (s.dropKept f).Numbered := foldl h fun _ _ h1 => h1.setPort

theorem sendMessage {s : State} {f : FnId} {r : OpRef} {port pos chip sub : Nat} {body : List Byte} (h : s.Numbered) :
    (s.sendMessage f r port pos chip sub body).Numbered :=
  foldl h fun _ _ h1 => ite h1.sealFrame.sendOn.setOutbox h1.sealFrame.sendOn

theorem assemble {s : State} {fr : Frame} (h : s.Numbered) : (s.assemble fr).2.Numbered := ite_snd h.setInbox h.setInbox

theorem sendDown {s : State} {msg : BitVec 256} (h : s.Numbered) : (s.sendDown msg).Numbered := foldl h fun _ _ h1 => h1.sendOn

theorem sendUpTree {s : State} {msg : BitVec 256} (h : s.Numbered) : (s.sendUpTree msg).Numbered := by
  unfold State.sendUpTree
  split
  · exact h.sendOn
  · exact h

theorem rebuildTree {s : State} (h : s.Numbered) : (s.rebuildTree).Numbered :=
  ite h.setBeat (by
    dsimp only
    split
    · exact h.setBeat
    · exact h.setBeat)

theorem newMaster {s : State} {master : Nat} (h : s.Numbered) : (s.newMaster master).Numbered := ite h.setBeat h.setBeat.raise.logPkg

theorem elect {s : State} (h : s.Numbered) : (s.elect).Numbered := h.newMaster.setBeat.rebuildTree

theorem sendMgmt {s : State} {chip : Nat} {payload : List Byte} (h : s.Numbered) : (s.sendMgmt chip payload).Numbered := by
  unfold State.sendMgmt
  dsimp only
  split
  · exact h.sendOn
  · exact h

theorem sendHello {s : State} {p : Nat} (h : s.Numbered) : (s.sendHello p).Numbered := ite h h.sendOn

theorem sendHellos {s : State} (h : s.Numbered) : (s.sendHellos).Numbered := foldl h fun _ _ h1 => h1.sendHello

/-! ### Commit -/

theorem modJob {s : State} {f : FnId} {g : JobState → JobState} (h : s.Numbered) : (s.modJob f g).Numbered := h.modFn

theorem modStep {s : State} {f : FnId} {g : StepState → StepState} (h : s.Numbered) : (s.modStep f g).Numbered := h.modFn

theorem modSec {s : State} {f : FnId} {g : SecState → SecState} (h : s.Numbered) : (s.modSec f g).Numbered := h.modFn

theorem breakJob {s : State} {f : FnId} (h : s.Numbered) : (s.breakJob f).Numbered := ite h h.modJob.raise

theorem spoilScarf {s : State} {f : FnId} (h : s.Numbered) : (s.spoilScarf f).Numbered := by
  unfold State.spoilScarf
  split
  · exact h
  · exact foldl h fun _ _ h1 => h1.setMemFresh

theorem dropLinks {s : State} {job : Nat} (h : s.Numbered) : (s.dropLinks job).Numbered := ite (foldl h fun _ _ h1 => ite h1.setLink h1) h

theorem runSave {s : State} {o : Op} {d : Desc} (h : s.Numbered) : (s.runSave o d).Numbered := by
  unfold State.runSave
  dsimp only
  split
  · exact h.complete
  · exact h.write.modJob.done.raise

theorem discardStages {s : State} {f : FnId} (h : s.Numbered) : (s.discardStages f).Numbered := ite h.killAll h.killAll.count

theorem refreshTopology {s : State} {f : FnId} (h : s.Numbered) : (s.refreshTopology f).Numbered := h.modJob

theorem takeMap {s : State} {f : FnId} {m : BitVec 512} (h : s.Numbered) : (s.takeMap f m).Numbered := h.modJob.dropLinks.sendHellos

theorem boundary {s : State} {f : FnId} (h : s.Numbered) : (s.boundary f).Numbered := by
  unfold State.boundary
  extract_lets t u v w job openNow x
  have hu : u.Numbered := h.refreshTopology.setRedDone
  have hw : w.Numbered := by
    subst w
    split
    · exact hu.modJob.takeMap
    · exact hu.modJob
  have hx : x.Numbered := foldl hw fun _ _ h1 => ite h1.setLink h1
  split
  · split
    · exact hx.runSave
    · exact hx
  · exact hx

theorem allWatch {s : State} {f : FnId} {g : BitVec 1024 → BitVec 1024} (h : s.Numbered) : (s.allWatch f g).Numbered := by
  unfold State.allWatch
  split
  · exact h.mapWatch
  · exact h

theorem endTrainings {s : State} {f : FnId} (h : s.Numbered) : (s.endTrainings f).Numbered :=
  modStep (foldl h fun _ _ h1 => ite h1.setCtx h1)

theorem endScarf {s : State} {f : FnId} (h : s.Numbered) : (s.endScarf f).Numbered := by
  unfold State.endScarf
  split
  · exact h
  · dsimp only
    split
    · exact h.modJob.done
    · exact h.modJob

theorem applyDecision {s : State} {f : FnId} {d : Decision} (h : s.Numbered) : (s.applyDecision f d).Numbered :=
  ite (boundary (discardStages (count (allWatch h.setJob.modStep.setCtxs.endTrainings.endScarf)))) (boundary (ite (logFn (raise (breakJob
    (logFn (raise (count h.setJob.modStep.endTrainings.allWatch.setMail)))))) (logFn (raise (count
    h.setJob.modStep.endTrainings.allWatch.setMail)))))

theorem holdDecision {s : State} {job : Nat} {d : Decision} (h : s.Numbered) : (s.holdDecision job d).Numbered :=
  foldl h fun _ _ h1 => ite h1 (when (ite h1.modStep (ite h1.modStep.setReduces.dropKept.killAll.spoilScarf.breakJob
    h1.modStep.setReduces.dropKept.killAll)) fun h3 => h3.applyDecision)

theorem broadcast {s : State} {job : Nat} {d : Decision} (h : s.Numbered) : (s.broadcast job d).Numbered := h.sendDown.holdDecision

theorem offsetOf {s : State} {j : MasterJob} {chip : Nat} (h : s.Numbered) : (s.offsetOf j chip).2.Numbered := by
  unfold State.offsetOf
  split
  · exact h
  · exact ite_snd h (ite_snd h.draw h)

theorem takeShift {s : State} {job : Nat} {offset : Int} (h : s.Numbered) : (s.takeShift job offset).Numbered := ite h.setPower h

theorem shiftMember {s : State} {job chip : Nat} {w : Int} (h : s.Numbered) : (s.shiftMember job chip w).Numbered :=
  ite h.offsetOf.setJob.takeShift h.offsetOf.setJob.sendMgmt

theorem shiftPower {s : State} {job step : Nat} (h : s.Numbered) : (s.shiftPower job step).Numbered :=
  ite h (foldl h fun _ _ h1 => h1.shiftMember.shiftMember)

theorem onSlack {s : State} {msg : BitVec 256} (h : s.Numbered) : (s.onSlack msg).Numbered := h.offsetOf.setJob

theorem decideStep {s : State} {job step : Nat} {isCommit : Bool} {cause : Nat} (h : s.Numbered) :
    (s.decideStep job step isCommit cause).Numbered :=
  ite (sendMgmt (ite h.setJob.shiftPower h.setJob)) (broadcast (ite h.setJob.shiftPower h.setJob))

theorem onReady {s : State} {job step origin : Nat} (h : s.Numbered) : (s.onReady job step origin).Numbered :=
  ite h (ite h.setJob.decideStep h.setJob)

theorem onVote {s : State} {job step cause : Nat} (h : s.Numbered) : (s.onVote job step cause).Numbered := ite h h.decideStep

theorem toMaster {s : State} {kind step job arg2 : Nat} (h : s.Numbered) : (s.toMaster kind step job arg2).Numbered :=
  ite (ite h.onReady h.onVote) h.sendUpTree

theorem vote {s : State} {f : FnId} {cause : Nat} (h : s.Numbered) : (s.vote f cause).Numbered := ite h.modStep.toMaster h

theorem failStep {s : State} {f : FnId} {cause : Nat} (h : s.Numbered) : (s.failStep f cause).Numbered := ite h h.modStep.vote

theorem fail {s : State} {o : Op} {cause detail : Nat} (h : s.Numbered) : (s.fail o cause detail).Numbered :=
  ite h.complete.failStep h.complete

theorem failHeld {s : State} {o : Op} {cause : Nat} (h : s.Numbered) : (s.failHeld o cause).Numbered := h.setParked.fail

/-! ### Tiles -/

theorem modMe {s : State} {i : Nat} {g : Me → Me} (h : s.Numbered) : (s.modMe i g).Numbered := h.setMe

theorem modSlot {s : State} {i k : Nat} {g : Slot → Slot} (h : s.Numbered) : (s.modSlot i k g).Numbered := h.modMe

theorem openSlot {s : State} {core inst slot : Nat} {d : Desc} (h : s.Numbered) : (s.openSlot core inst slot d).Numbered := h.modSlot

theorem addArrival {s : State} {inst slot : Nat} {d : Desc} {a : Arrival} (h : s.Numbered) : (s.addArrival inst slot d a).Numbered :=
  ite h.modSlot.modSlot.modMe h.modSlot

theorem arrive {s : State} {inst slot : Nat} {d : Desc} {a : Arrival} (h : s.Numbered) : (s.arrive inst slot d a).Numbered :=
  ite h.modSlot.wait h.addArrival

theorem drainRows {s : State} {inst slot : Nat} {rows : List Arrival} (h : s.Numbered) : (drainRows inst slot rows s).Numbered := by
  induction rows generalizing s with
  | nil => exact h.modSlot
  | cons a rows ih =>
    refine ite h.modSlot ?_
    split
    · exact ih h.addArrival
    · exact ih h

theorem reopen {s : State} {inst slot : Nat} (h : s.Numbered) : (s.reopen inst slot).Numbered := by
  unfold State.reopen
  dsimp only
  split
  · exact h
  · split
    · exact h.modSlot
    · exact h.modSlot.openSlot.drainRows

theorem freeSlot {s : State} {inst slot : Nat} (h : s.Numbered) : (s.freeSlot inst slot).Numbered := h.modSlot.modMe.reopen

theorem slotClosed {s : State} {inst slot : Nat} (h : s.Numbered) : (s.slotClosed inst slot).Numbered :=
  h.of_map (g := fun o => o.minus (inst, slot)) (fun _ => rfl) rfl rfl

theorem settle {s : State} {inst : Nat} (h : s.Numbered) : (s.settle inst).Numbered := by
  refine h.setTe.of_map (fun o => ?_) rfl rfl
  split <;> rfl

theorem forgetWork {s : State} {c : Nat} {r : OpRef} {status : Option Nat} (h : s.Numbered) : (s.forgetWork c r status).Numbered :=
  foldl h.modMe.modMe.setTe fun _ _ h1 => by
    split
    · exact h1.kill
    · exact h1.fail
    · exact h1

theorem forgetTruss {s : State} {o : Op} (h : s.Numbered) : (s.forgetTruss o).Numbered := foldl h fun _ _ h1 => h1.modSlot

theorem loseSlot {s : State} {c : Nat} {r : OpRef} (h : s.Numbered) : (s.loseSlot c r).Numbered := by
  unfold State.loseSlot
  split
  · exact fail (ite h.forgetTruss h.forgetWork)
  · exact h

theorem discardOne {s : State} {x : Contents} {newest : Bool} (h : s.Numbered) : (s.discardOne x newest).Numbered := by
  unfold State.discardOne
  extract_lets key t u ended ops
  have hu : u.Numbered := (when h fun h1 => h1.modSlot).count
  refine ite hu (freeSlot (hu.of_map (g := fun o => if ended o then { o with holds := [] } else o) (fun o => ?_) rfl rfl))
  split <;> rfl

theorem discardBy {s : State} {plan : List (Contents × Bool) × List (Nat × OpRef)} (h : s.Numbered) : (s.discardBy plan).Numbered :=
  foldl (foldl (foldl h fun _ _ h1 => h1.loseSlot) fun _ _ h2 => h2.discardOne) fun _ _ h4 => h4.settle

theorem discard {s : State} {ks : List (Nat × Nat)} (h : s.Numbered) : (s.discard ks).Numbered := h.discardBy

/-! ### Cores -/

theorem discardCore {s : State} {c : Nat} (h : s.Numbered) : (s.discardCore c).Numbered := by
  unfold State.discardCore
  exact h.discard.modMe.modMe

theorem cancelOp {s : State} {c status : Nat} {o : Op} (h : s.Numbered) : (s.cancelOp c status o).Numbered :=
  ite h.forgetTruss.kill.discard h.forgetWork.kill

theorem cancelCore {s : State} {c status : Nat} (h : s.Numbered) : (s.cancelCore c status).Numbered :=
  foldl h fun _ _ h1 => by
    split
    · exact h1.cancelOp
    · exact h1

theorem orderQuarantine {s : State} {c : CoreId} {cause : Nat} (h : s.Numbered) : (s.orderQuarantine c cause).Numbered :=
  ite h h.setCell.logEvent

theorem supersedeMove {s : State} {c : CoreId} (h : s.Numbered) : (s.supersedeMove c).Numbered := ite h.setCell.logEvent h

theorem storeCellMap {s : State} (h : s.Numbered) : (s.storeCellMap).Numbered := h.storeRecord

theorem quarantine {s : State} {c : CoreId} (h : s.Numbered) : (s.quarantine c).Numbered := by
  unfold State.quarantine
  exact h.supersedeMove.cancelCore.discardCore.modCell

theorem scrubEngines {s : State} {c : Nat} (h : s.Numbered) : (s.scrubEngines c).Numbered := h.setMe.setMe.setTe

theorem scrubScratchpad {s : State} {c : Nat} (h : s.Numbered) : (s.scrubScratchpad c).Numbered := h.setMem

theorem clearPage {s : State} {page : Nat} (h : s.Numbered) : (s.clearPage page).Numbered := h.setRegs

theorem clearCore {s : State} {c : Nat} (h : s.Numbered) : (s.clearCore c).Numbered := h.clearPage.clearPage.clearPage.clearPage

theorem prepareCore {s : State} {c : CoreId} (h : s.Numbered) : (s.prepareCore c).Numbered := h.scrubEngines.scrubScratchpad.clearCore

theorem serve {s : State} {f : FnId} {logical : Nat} {c : CoreId} (h : s.Numbered) : (s.serve f logical c).Numbered := h.modCell

theorem enterService {s : State} {f : FnId} {logical : Nat} {c : CoreId} (h : s.Numbered) : (s.enterService f logical c).Numbered :=
  h.prepareCore.serve

theorem takeReserve {s t : State} {f : FnId} {logical : Nat} (h : s.Numbered) (ht : s.takeReserve f logical = some t) : t.Numbered := by
  unfold State.takeReserve at ht
  split at ht
  · cases ht
  · split at ht
    · cases ht
    · split at ht
      · cases ht
      · exact Option.some.inj ht ▸ h.enterService

theorem countMapChange {s : State} (h : s.Numbered) : (s.countMapChange).Numbered := h.storeCellMap.count.raise

theorem replaceCore {s : State} {c : CoreId} {f : FnId} {logical : Nat} (h : s.Numbered) : (s.replaceCore c f logical).Numbered := by
  unfold State.replaceCore
  split
  · rename_i ht; exact (h.takeReserve ht).countMapChange
  · exact h.modFn.raiseFn.logEvent

theorem replaceQuarantined {s : State} {c : CoreId} (h : s.Numbered) : (s.replaceQuarantined c).Numbered :=
  ite h (by
    split
    · exact ite h.setCell.countMapChange.raise.raise h.setCell.countMapChange.raise.raise.replaceCore
    · exact h.setCell.countMapChange.raise.raise)

theorem enterTaken {s : State} {c : CoreId} (h : s.Numbered) : (s.enterTaken c).Numbered := by
  unfold State.enterTaken
  split
  · exact ite h h.serve.countMapChange
  · exact h

theorem refillCores {s : State} (h : s.Numbered) : s.refillCores.Numbered :=
  foldl h fun _ _ h1 => foldl h1 fun _ _ h2 => by
    split
    · rename_i ht; exact (h2.takeReserve ht).modFn.countMapChange.raiseFn
    · exact h2

theorem copyCore {s : State} {c dst : CoreId} (h : s.Numbered) : (s.copyCore c dst).Numbered :=
  foldl h.scrubEngines.setMem fun _ _ h1 => h1.setMe

theorem deviceFault {s : State} {code inst d0 d1 : Nat} (h : s.Numbered) : (s.deviceFault code inst d0 d1).Numbered :=
  ite h.logPkg (killAll (foldl h.logPkg.setBoot fun _ _ h1 => h1.cancelCore))

/-! ### Slices -/

theorem lookupLine {s : State} {f : FnId} {a : Nat} (h : s.Numbered) : (s.lookupLine f a).Numbered := by
  unfold State.lookupLine
  split
  · exact h
  · exact ite h.modFn.count (ite h.modFn.count.count h.modFn.count)

theorem invalidate {s : State} {a n : Nat} (h : s.Numbered) : (s.invalidate a n).Numbered :=
  ite h (foldl h fun _ _ h1 => ite h1 (modFn (by
    split
    · exact keepOr (foldl h1 fun _ _ h2 => by
    split
    · exact h2.count
    · exact h2) fun h4 => h4.count
    · exact (foldl h1 fun _ _ h2 => by
    split
    · exact h2.count
    · exact h2))))

theorem staleDigests {s : State} {a n : Nat} (h : s.Numbered) : (s.staleDigests a n).Numbered := foldl h fun _ _ h1 => ite h1.setFrame h1

theorem writeDev {s : State} {a : Nat} {bs : List Byte} (h : s.Numbered) : (s.writeDev a bs).Numbered := h.write.invalidate.staleDigests

theorem installSlice {s : State} {f : FnId} {own : Option OpRef} {c : Slice} (h : s.Numbered) : (s.installSlice f own c).1.Numbered := by
  unfold State.installSlice
  dsimp only
  split
  · exact h
  · exact ite_fst h (modFn (by
      split
      · exact ite h h.count
      · exact h))

theorem gatherSlice {s : State} {f : FnId} {core : Nat} {own : Option OpRef} {c : Slice} (h : s.Numbered) :
    (s.gatherSlice f core own c).Numbered := by
  refine ite h.modFn.count ?_
  extract_lets t u
  have hu : u.Numbered := by
    subst u
    split
    · exact h.count.wait
    · exact h.count.wait
  split
  · rename_i hin; exact of_fst hu.installSlice hin
  · rename_i hin; exact (of_fst hu.installSlice hin).count

/-! ### Move -/

theorem badBurst {s : State} {b fails : Nat} (h : s.Numbered) : (s.badBurst b fails).1.Numbered := by
  unfold State.badBurst
  split
  · exact ite_fst h.count (ite_fst h (ite_fst h.count.logPkg h.count.raise.count))
  · exact h

theorem readBursts {s : State} {rs bad : List (Nat × Nat)} (h : s.Numbered) : (s.readBursts rs bad).1.Numbered :=
  foldl_fst h fun _ _ hp => badBurst hp

theorem putRow {s : State} {dev : Bool} {key : Nat} {bs : List Byte} {skip : List Nat} (h : s.Numbered) :
    (s.putRow dev key bs skip).Numbered :=
  ite (ite h.writeDev h.write) (foldl h fun _ _ h1 => ite h1 (ite h1.writeDev h1.write))

theorem copyRow {s : State} {f : FnId} {d : Desc} {poisoned : List Nat} {i : Nat} (h : s.Numbered) :
    (s.copyRow f d poisoned i).Numbered :=
  ite (foldl h fun _ _ h1 => by
    split
    · exact h1.putRow
    · exact h1) h.putRow

theorem markPages {s : State} {pages fills : List Nat} (h : s.Numbered) : (s.markPages pages fills).Numbered := h.setDir.setDir

theorem fillSlot {s : State} {f : FnId} {d : Desc} (h : s.Numbered) : (s.fillSlot f d).Numbered := ite h h.modFn

theorem lateFill {s : State} {f : FnId} {d : Desc} (h : s.Numbered) : (s.lateFill f d).Numbered :=
  ite h (by
    split
    · exact ite h h.modFn.count
    · exact h)

theorem moveRun {s : State} {o : Op} {bad : List (Nat × Nat)} (h : s.Numbered) : (s.moveRun o bad).Numbered := by
  unfold State.moveRun
  dsimp only
  split
  · exact putOp (foldl (when (ite h.markPages.fillSlot.readBursts.lateFill h.markPages.fillSlot.readBursts) fun h2 => foldl h2
      fun _ _ h3 => foldl h3 fun _ _ h4 => h4.lookupLine) fun _ _ h6 => h6.copyRow)
  · exact putOp (foldl (when (ite h.markPages.fillSlot.readBursts.lateFill h.markPages.fillSlot.readBursts) fun h2 => foldl h2
      fun _ _ h3 => foldl h3 fun _ _ h4 => h4.lookupLine) fun _ _ h6 => h6.copyRow)

theorem moveIssue {s : State} {i : Instr} {bad : List (Nat × Nat)} (h : s.Numbered) : (s.moveIssue i bad).Numbered :=
  issue h (fun _ _ h1 => ite h1.fail (ite h1.complete (ite h1.park (ite h1.keyWait (ite (park (ite h1.wait.wait h1.wait)) (ite
    h1.winStall.park (ite h1.parkStage (ite h1.wait.park h1.moveRun))))))))

theorem execMoveOperation {q : QueueId} {d : Desc} {bad : List (Nat × Nat)} {s : State} (h : s.Numbered) :
    Keeps (execMoveOperation q d bad s) :=
  next h.moveIssue

theorem releasePages {s : State} {pages : List Nat} (h : s.Numbered) : (s.releasePages pages).Numbered := h.setDir

theorem endFill {s : State} {o : Op} (h : s.Numbered) : (s.endFill o).Numbered :=
  ite h (by
    dsimp only
    split
    · exact ite h.modFn.setQueue h.modFn
    · exact h.modFn)

theorem endMove {s : State} {o : Op} (h : s.Numbered) : (s.endMove o).Numbered := ite h (endFill (ite h.releasePages h))

theorem openMove {s : State} {o : Op} (h : s.Numbered) : (s.openMove o).Numbered := ite h (foldl h fun _ _ h1 => h1.scramble)

/-! ### Roots -/

theorem writeTile {s : State} {f : FnId} {core : Nat} {r : Root} {entry : Option (BitVec 1024)} {k row0 col0 : Nat} {rows : List
    (List Val)} (h : s.Numbered) :
    (s.writeTile f core r entry k row0 col0 rows).Numbered :=
  when (ite (write (ite h.writeAll.writeAll h.writeAll)) (ite h.writeAll.writeAll h.writeAll)) fun h2 => h2.watchReport

/-! ### Vector -/

theorem report? {s : State} {o : Op} {id : Nat} {c : Counts} {beyond lowered still : Bool} (h : s.Numbered) :
    (s.report? o id c beyond lowered still).Numbered :=
  ite h.watchReport h

theorem putRows {s : State} {key pitch : Nat} {f : Fmt} {rows : List (List Nat)} (h : s.Numbered) :
    (s.putRows key pitch f rows).Numbered :=
  h.writeAll

theorem storeTensor {s : State} {c : CoreId} {o : Op} {lower : Bool} {rows : List (List Val)} (h : s.Numbered) :
    (s.storeTensor c o lower rows).Numbered :=
  ite (foldl h.putRows.write fun _ _ h1 => h1.report?) h.putRows.report?

theorem storeRecords {s : State} {c : CoreId} {d : Desc} {rs : List Nat} (h : s.Numbered) : (s.storeRecords c d rs).Numbered := h.write

theorem vectorOp {s : State} {i : Instr} {parity : Bool} {run : CoreId → Op → State → State} (h : s.Numbered)
    (hrun : ∀ y1 y2 t, t.Numbered → (run y1 y2 t).Numbered) :
    (s.vectorOp i parity run).Numbered :=
  issueOnCore h (fun _ _ _ h1 => ite (fail (ite h1.raise h1)) (ite h1.parkStage (ite (orderQuarantine (fail (foldl h1 fun _ _ h2 =>
    h2.scramble))) (hrun _ _ _ h1.putOp))))

theorem vecUnary {lower : Bool} {g : Val → Val} {c : CoreId} {o : Op} {s : State} (h : s.Numbered) :
    (vecUnary lower g c o s).Numbered :=
  h.storeTensor

theorem vecBinary {g : Val → Val → Val} {c : CoreId} {o : Op} {s : State} (h : s.Numbered) : (vecBinary g c o s).Numbered := h.storeTensor

theorem execConvert {q : QueueId} {d : Desc} {parity : Bool} {s : State} (h : s.Numbered) : Keeps (execConvert q d parity s) :=
  next (vectorOp h (fun _ _ _ h1 => h1.vecUnary))

theorem execAdd {q : QueueId} {d : Desc} {parity : Bool} {s : State} (h : s.Numbered) : Keeps (execAdd q d parity s) :=
  next (vectorOp h (fun _ _ _ h1 => h1.vecBinary))

theorem execSub {q : QueueId} {d : Desc} {parity : Bool} {s : State} (h : s.Numbered) : Keeps (execSub q d parity s) :=
  next (vectorOp h (fun _ _ _ h1 => h1.vecBinary))

theorem execMul {q : QueueId} {d : Desc} {parity : Bool} {s : State} (h : s.Numbered) : Keeps (execMul q d parity s) :=
  next (vectorOp h (fun _ _ _ h1 => h1.vecBinary))

theorem execVectorMax {q : QueueId} {d : Desc} {parity : Bool} {s : State} (h : s.Numbered) : Keeps (execVectorMax q d parity s) :=
  next (vectorOp h (fun _ _ _ h1 => h1.vecBinary))

theorem execVectorMin {q : QueueId} {d : Desc} {parity : Bool} {s : State} (h : s.Numbered) : Keeps (execVectorMin q d parity s) :=
  next (vectorOp h (fun _ _ _ h1 => h1.vecBinary))

theorem execAxpy {q : QueueId} {d : Desc} {parity : Bool} {s : State} (h : s.Numbered) : Keeps (execAxpy q d parity s) :=
  next (vectorOp h (fun _ _ _ h1 => h1.vecBinary))

theorem execExp {q : QueueId} {d : Desc} {parity : Bool} {s : State} (h : s.Numbered) : Keeps (execExp q d parity s) :=
  next (vectorOp h (fun _ _ _ h1 => h1.vecUnary))

theorem execRecip {q : QueueId} {d : Desc} {parity : Bool} {s : State} (h : s.Numbered) : Keeps (execRecip q d parity s) :=
  next (vectorOp h (fun _ _ _ h1 => h1.vecUnary))

theorem execRsqrt {q : QueueId} {d : Desc} {parity : Bool} {s : State} (h : s.Numbered) : Keeps (execRsqrt q d parity s) :=
  next (vectorOp h (fun _ _ _ h1 => h1.vecUnary))

theorem execAct {q : QueueId} {d : Desc} {parity : Bool} {s : State} (h : s.Numbered) : Keeps (execAct q d parity s) :=
  next (vectorOp h (fun _ _ _ h1 => h1.vecUnary))

theorem execRowOp {q : QueueId} {d : Desc} {parity : Bool} {s : State} (h : s.Numbered) : Keeps (execRowOp q d parity s) :=
  next (vectorOp h (fun _ _ _ h1 => h1.storeTensor))

theorem execRowReduce {q : QueueId} {d : Desc} {parity : Bool} {s : State} (h : s.Numbered) : Keeps (execRowReduce q d parity s) :=
  next (vectorOp h (fun _ _ _ h1 => h1.storeRecords.report?))

theorem execRowNorm {q : QueueId} {d : Desc} {parity : Bool} {s : State} (h : s.Numbered) : Keeps (execRowNorm q d parity s) :=
  next (vectorOp h (fun _ _ _ h1 => h1.storeTensor))

theorem execNormStats {q : QueueId} {d : Desc} {parity : Bool} {s : State} (h : s.Numbered) : Keeps (execNormStats q d parity s) :=
  next (vectorOp h (fun _ _ _ h1 => h1.storeRecords.report?))

theorem execAdam {q : QueueId} {d : Desc} {parity : Bool} {s : State} (h : s.Numbered) : Keeps (execAdam q d parity s) :=
  next (vectorOp h (fun _ _ _ h1 => h1.putRows.putRows.putRows.report?))

theorem execRouteTopk {q : QueueId} {d : Desc} {parity : Bool} {s : State} (h : s.Numbered) : Keeps (execRouteTopk q d parity s) :=
  next (vectorOp h (fun _ _ _ h1 => h1.writeAll.report?))

/-! ### Matrix -/

theorem claimSlots {s : State} {c inst : Nat} {o : Op} (h : s.Numbered) : (s.claimSlots c inst o).Numbered :=
  foldl h fun _ _ h1 => ite h1.modSlot (ite h1.modSlot.openSlot h1.modSlot.modSlot)

theorem joinParity {s : State} {c : CoreId} {mx : OpRef} {j : TenonJoin} (h : s.Numbered) : (s.joinParity c mx j).Numbered := by
  unfold State.joinParity
  split
  · exact h.count.setTe.fail.discardBy.orderQuarantine
  · exact h

theorem matrixIssue {s : State} {i : Instr} (h : s.Numbered) : (s.matrixIssue i).Numbered :=
  issueOnCore h (fun _ _ _ h1 => ite h1.fail (ite h1.park (ite h1.wait.park (ite h1.winStall.park (ite h1.parkStage (foldl (modMe (ite
    (foldl (setTe (claimSlots (putOp (ite h1.count h1)))) fun _ _ h3 => h3.modOp) (wait (wait (foldl (setTe (claimSlots (putOp (ite
    h1.count h1)))) fun _ _ h3 => h3.modOp))))) fun _ _ h5 => h5.joinParity))))))

theorem execMatrixOperation {q : QueueId} {d : Desc} {s : State} (h : s.Numbered) : Keeps (execMatrixOperation q d s) :=
  next h.matrixIssue

theorem countStalls {s : State} {inst : Nat} {p : Pass} {dataCycle : Nat} (h : s.Numbered) :
    (s.countStalls inst p dataCycle).Numbered :=
  ite (count (ite h.count h)) (ite h.count h)

theorem matrixParity {s : State} {c : CoreId} {inst : Nat} {o : Op} (h : s.Numbered) : (s.matrixParity c inst o).Numbered :=
  h.forgetWork.fail.count.discardBy.orderQuarantine

theorem enterVector {s : State} {c : CoreId} {inst : Nat} {p : Pass} {o : Op} {cycle : Nat} {mismatch : Bool} (h : s.Numbered) :
    (s.enterVector c inst p o cycle mismatch).Numbered :=
  settle (foldl (ite (count (count (modMe (ite h.modMe h)))) (count (modMe (ite h.modMe h)))) fun _ _ h2 => h2.arrive)

theorem execVectorEntry {core : CoreId} {me : Fin 2} {cycle dataCycle : Nat} {err : RunErr} {s : State} (h : s.Numbered) :
    Keeps (execVectorEntry core me cycle dataCycle err s) := by
  unfold Machine.execVectorEntry
  dsimp only
  split
  · exact next h
  · split
    · exact next h
    · exact Keeps.ite (next h) (Keeps.ite (next h.matrixParity) (next (enterVector (ite h.countStalls h))))

theorem execStationaryRowWrite {core : CoreId} {me bank : Fin 2} {row : Fin 512} {cycle : Nat} {parity : Bool} {s : State}
    (h : s.Numbered) :
    Keeps (execStationaryRowWrite core me bank row cycle parity s) :=
  Keeps.ite (next h) (Keeps.ite (by
    split
    · exact next h.matrixParity
    · exact next h.modMe.count.orderQuarantine) (next h.modMe))

theorem closeSlot {s : State} {c : CoreId} {inst slot : Nat} {o : Op} (h : s.Numbered) : (s.closeSlot c inst slot o).Numbered :=
  h.writeTile.slotClosed.freeSlot.settle

theorem execClose {core : CoreId} {me : Fin 2} {slot : Fin 32} {second : Bool} {s : State} (h : s.Numbered) :
    Keeps (execClose core me slot second s) := by
  unfold Machine.execClose
  dsimp only
  split
  · exact Keeps.ite (next h) (Keeps.ite (next h.closeSlot) (Keeps.ite (next
      h.count.raise.logEvent.count.forgetWork.fail.discardBy.orderQuarantine) (next h.count.raise.logEvent.closeSlot)))
  · exact next h

/-! ### Tenon -/

theorem refPage {s : State} {p : Nat} (h : s.Numbered) : (s.refPage p).Numbered := h.setPage

theorem refCtx {s : State} {c : Nat} (h : s.Numbered) : (s.refCtx c).Numbered := h.setCtx

theorem markSkips {s : State} {core : Nat} {d : Desc} {idx : List Nat} (h : s.Numbered) : (s.markSkips core d idx).Numbered :=
  ite h h.writeNat

theorem setBanks {s : State} {core : Nat} {ok : List Group} (h : s.Numbered) : (s.setBanks core ok).Numbered := by
  unfold State.setBanks
  dsimp only
  split
  · exact h
  · exact h.setTe
  · exact h.setTe

theorem setTile {s : State} {core : Nat} {single : Bool} {rows : List (List Op24)} (h : s.Numbered) :
    (s.setTile core single rows).Numbered :=
  h.setTe

theorem tenonWrite {s : State} {core : Nat} {o : Op} {fr : FrameState} {f0 : Nat} {ok : List Group} (h : s.Numbered) :
    (s.tenonWrite core o fr f0 ok).Numbered := by
  unfold State.tenonWrite
  dsimp only
  split
  · exact h.writeAll
  · exact h.writeAll
  · exact h.write

theorem tenonBreak {s : State} {c : CoreId} {o : Op} {fr : FrameState} {ok : List Group} {cause quar : Nat} (h : s.Numbered) :
    (s.tenonBreak c o fr ok cause quar).Numbered :=
  orderQuarantine (fail (foldl h fun _ _ h1 => h1.scramble))

theorem tenonRun {s : State} {c : CoreId} {o : Op} {gs ok : List Group} {err : RunErr} (h : s.Numbered) :
    (s.tenonRun c o gs ok err).Numbered := by
  unfold State.tenonRun
  extract_lets d fr f0 skips slices pages t1 t2 t3 t4 o1 t5 single t6 joins checks t7
  have h4 : t4.Numbered := foldl (foldl (foldl h.markSkips fun _ _ h1 => h1.gatherSlice) fun _ _ h2 => h2.refPage) fun _ _ h3 => h3.refCtx
  have h7 : t7.Numbered := when (when h4.putOp.setBanks fun h5 => h5.count) fun h6 => h6.count
  exact ite h7.draw.count.tenonBreak (ite h7.draw.setTe.setTile (ite (tenonBreak (count (ite h7.draw.count.logEvent h7.draw)))
    (modOp (setTile (tenonWrite (ite h7.draw.count.logEvent h7.draw))))))

theorem tenonIssue {s : State} {i : Instr} {err : RunErr} (h : s.Numbered) : (s.tenonIssue i err).Numbered :=
  issueOnCore h (fun _ _ _ h1 => ite h1.fail (ite h1.fail (ite h1.wait.park (ite h1.parkStage (ite h1.wait.park h1.tenonRun)))))

theorem execDown {q : QueueId} {d : Desc} {err : RunErr} {s : State} (h : s.Numbered) : Keeps (execDown q d err s) := next h.tenonIssue

theorem execUp {q : QueueId} {d : Desc} {err : RunErr} {s : State} (h : s.Numbered) : Keeps (execUp q d err s) := next h.tenonIssue

theorem execDownT {q : QueueId} {d : Desc} {err : RunErr} {s : State} (h : s.Numbered) : Keeps (execDownT q d err s) := next h.tenonIssue

theorem execUpT {q : QueueId} {d : Desc} {err : RunErr} {s : State} (h : s.Numbered) : Keeps (execUpT q d err s) := next h.tenonIssue

theorem execWgradA {q : QueueId} {d : Desc} {err : RunErr} {s : State} (h : s.Numbered) : Keeps (execWgradA q d err s) :=
  next h.tenonIssue

theorem execWgradB {q : QueueId} {d : Desc} {err : RunErr} {s : State} (h : s.Numbered) : Keeps (execWgradB q d err s) :=
  next h.tenonIssue

theorem execJoinTimeout {q : QueueId} {opId : BitVec 16} {s : State} (h : s.Numbered) : Keeps (execJoinTimeout q opId s) := by
  unfold Machine.execJoinTimeout
  split
  · exact next h
  · split
    · exact next h
    · exact Keeps.ite (next h.setTe.fail) (next h)

/-! ### Directory -/

theorem ctlWrite {s : State} {o : Op} {a : Nat} {bs : List Byte} (h : s.Numbered) : (s.ctlWrite o a bs).Numbered := h.writeDev

theorem zeroRange {s : State} {a n : Nat} (h : s.Numbered) : (s.zeroRange a n).Numbered := h.setMemPoison.invalidate

theorem setPartMode {s : State} {f : FnId} {p mode : Nat} (h : s.Numbered) : (s.setPartMode f p mode).Numbered :=
  ite h.zeroRange.setPart.modFn h.zeroRange.setPart.modFn.raise

theorem execConfigurePartition {q : QueueId} {d : Desc} {s : State} (h : s.Numbered) : Keeps (execConfigurePartition q d s) :=
  next (issue h (fun _ _ h1 => ite h1.faultOp (ite h1.faultOp h1.setPartMode.done)))

theorem execSetWindow {q : QueueId} {d : Desc} {s : State} (h : s.Numbered) : Keeps (execSetWindow q d s) :=
  next (issue h (fun _ _ h1 => ite h1.faultOp h1.modFn.done))

theorem execRetireSlot {q : QueueId} {d : Desc} {s : State} (h : s.Numbered) : Keeps (execRetireSlot q d s) :=
  next (issue h (fun _ _ h1 => by
    dsimp only
    split
    · exact h1.faultOp
    · exact ite h1.faultOp h1.modFn.done))

theorem execSlotDrained {f : FnId} {slot : Fin 8} {s : State} (h : s.Numbered) : Keeps (execSlotDrained f slot s) := by
  unfold Machine.execSlotDrained
  split
  · exact next h
  · exact Keeps.ite (next h.modFn) (next h)

theorem failPage {s : State} {o : Op} {x : Nat × Nat} (h : s.Numbered) : (s.failPage o x).Numbered := h.complete

theorem mapPages {s : State} {ps : List Nat} {g : BitVec 64 → BitVec 64} (h : s.Numbered) : (s.mapPages ps g).Numbered :=
  foldl h fun _ _ h1 => h1.setPage

theorem queueChanges {s : State} {o : Op} (h : s.Numbered) : (s.queueChanges o).Numbered := h.setDirLag.putOp

theorem refuseQuota {s : State} {o : Op} {excess : Nat} (h : s.Numbered) : (s.refuseQuota o excess).Numbered := h.count.raise.complete

theorem execClaim {q : QueueId} {d : Desc} {s : State} (h : s.Numbered) : Keeps (execClaim q d s) :=
  next (issue h (fun _ _ h1 => ite h1.faultOp (ite h1.refuseQuota (by
    split
    · exact h1.failPage
    · exact h1.mapPages.zeroRange.queueChanges))))

theorem execShare {q : QueueId} {d : Desc} {s : State} (h : s.Numbered) : Keeps (execShare q d s) :=
  next (issue h (fun _ _ h1 => ite h1.faultOp (ite h1.faultOp (by
    split
    · exact h1.failPage
    · exact ite h1.wait.park h1.mapPages.queueChanges))))

theorem finishUnshares {s : State} (h : s.Numbered) : (s.finishUnshares).Numbered := foldl h fun _ _ h1 => h1.done

theorem execUnshare {q : QueueId} {d : Desc} {s : State} (h : s.Numbered) : Keeps (execUnshare q d s) :=
  next (issue h (fun _ _ h1 => ite h1.faultOp (by
    split
    · exact h1.failPage
    · exact queueChanges (mapPages (ite h1.wait h1)))))

theorem execRelease {q : QueueId} {d : Desc} {s : State} (h : s.Numbered) : Keeps (execRelease q d s) :=
  next (issue h (fun _ _ h1 => ite h1.faultOp (by
    split
    · exact h1.failPage
    · exact ite h1.wait.park h1.mapPages.queueChanges)))

theorem execReadDirectory {q : QueueId} {d : Desc} {s : State} (h : s.Numbered) : Keeps (execReadDirectory q d s) :=
  next (issue h (fun _ _ h1 => ite h1.faultOp (by
    split
    · exact h1.failPage
    · exact ite h1.faultOp (ite h1.wait.park h1.ctlWrite.done))))

theorem execPageLeavesOwner {page : Nat} {s : State} (h : s.Numbered) : Keeps (execPageLeavesOwner page s) :=
  Keeps.ite (next h.setScrubs) (next h)

theorem execPageScrub {page : Nat} {clean : Bool} {s : State} (h : s.Numbered) : Keeps (execPageScrub page clean s) :=
  Keeps.ite (next h) (Keeps.ite (next h.zeroRange.setScrubs.setPage) (next h.zeroRange))

theorem finishChanges {s : State} {waiting : List Op} (h : s.Numbered) : (s.finishChanges waiting).Numbered :=
  finishUnshares (foldl h fun _ _ h1 => by
    split
    · exact ite h1.done h1
    · exact h1)

theorem dropLag_nums {page : Nat} {os : List Op} : (dropLag page os).map Op.num = os.map Op.num := by
  induction os with
  | nil => rfl
  | cons o os ih =>
    unfold dropLag
    split
    · rfl
    · rw [List.map_cons, List.map_cons, ih]

theorem dropLags_nums {pages : List Nat} {os : List Op} :
    (pages.foldl (fun os p => dropLag p os) os).map Op.num = os.map Op.num := by
  induction pages generalizing os with
  | nil => rfl
  | cons p pages ih => exact ih.trans dropLag_nums

theorem execDirectoryChangeApply {die : DieId} {s : State} (h : s.Numbered) : Keeps (execDirectoryChangeApply die s) :=
  next (finishChanges (h.of_nums dropLags_nums rfl))

/-! ### Health -/

theorem deliver {s : State} {i : Instr} {o : Op} {toCore : Bool} {bs : List Byte} {k : State → State} (h : s.Numbered)
    (hk : ∀ t, t.Numbered → (k t).Numbered) :
    (s.deliver i o toCore bs k).Numbered :=
  ite (ite h.faultOp (by
    split
    · exact h.complete
    · exact ite h.faultOp (hk _ h.write))) (ite h.faultOp (ite h.wait.park (hk _ h.ctlWrite)))

theorem refuseOpen {s : State} {o : Op} (h : s.Numbered) : (s.refuseOpen o).Numbered := h.draw.complete

theorem placeWatch {s : State} {f : FnId} {part off n : Nat} (h : s.Numbered) : (s.placeWatch f part off n).Numbered := h.write.modFn

theorem execSetWatch {q : QueueId} {d : Desc} {s : State} (h : s.Numbered) : Keeps (execSetWatch q d s) :=
  next (issue h (fun _ _ h1 => ite h1.faultOp (ite h1.refuseOpen h1.placeWatch.done)))

theorem takeImages {s : State} {o : Op} {g : BitVec 1024 → BitVec 1024 → BitVec 1024} (h : s.Numbered) : (s.takeImages o g).Numbered :=
  foldl h fun _ _ h1 => by
    split
    · exact h1.watchWrite
    · exact h1

theorem execWriteWatch {q : QueueId} {d : Desc} {s : State} (h : s.Numbered) : Keeps (execWriteWatch q d s) :=
  next (issue h (fun _ _ h1 => ite h1.faultOp h1.takeImages.done))

theorem execReadWatch {q : QueueId} {d : Desc} {s : State} (h : s.Numbered) : Keeps (execReadWatch q d s) :=
  next (issue h (fun _ _ h1 => ite h1.faultOp (deliver h1 (fun _ h2 => done (ite h2.mapWatch h2)))))

theorem execRollHistory {q : QueueId} {d : Desc} {s : State} (h : s.Numbered) : Keeps (execRollHistory q d s) :=
  next (issue h (fun _ _ h1 => ite h1.faultOp h1.mapWatch.done))

theorem execLoadHistory {q : QueueId} {d : Desc} {s : State} (h : s.Numbered) : Keeps (execLoadHistory q d s) :=
  next (issue h (fun _ _ h1 => ite h1.faultOp (ite h1.faultOp h1.takeImages.done)))

/-! ### Frames -/

theorem defineFrame {s : State} {r : BitVec 512} (h : s.Numbered) : (s.defineFrame r).Numbered := h.draw.draw.setFrame

theorem execDefineFrame {q : QueueId} {d : Desc} {s : State} (h : s.Numbered) : Keeps (execDefineFrame q d s) :=
  next (issue h (fun _ _ h1 => ite h1.faultOp (ite h1.faultOp h1.defineFrame.done)))

theorem execFrameDigest {frame : BitVec 8} {s : State} (h : s.Numbered) : Keeps (execFrameDigest frame s) :=
  Keeps.ite (next h.setFrame) (next h)

theorem execMeasureFrame {q : QueueId} {d : Desc} {s : State} (h : s.Numbered) : Keeps (execMeasureFrame q d s) :=
  next (issue h (fun _ _ h1 => ite h1.faultOp (ite h1.refuseOpen h1.setFrame.done)))

theorem mapFrameCtxs {s : State} {frame : Nat} {g : BitVec 1024 → BitVec 1024} (h : s.Numbered) : (s.mapFrameCtxs frame g).Numbered :=
  h.setCtxs

theorem startReplace {s : State} {o : Op} {frame : Nat} (h : s.Numbered) : (s.startReplace o frame).Numbered := h.mapFrameCtxs.setFrame

theorem execReplaceFrame {q : QueueId} {d : Desc} {s : State} (h : s.Numbered) : Keeps (execReplaceFrame q d s) :=
  next (issue h (fun _ _ h1 => ite h1.faultOp (ite h1.refuseOpen (ite h1.faultOp h1.startReplace))))

theorem swapRuns {s : State} {src : Nat} {rs : List (Nat × Nat)} (h : s.Numbered) : (s.swapRuns src rs).Numbered := by
  induction rs generalizing s src with
  | nil => exact h
  | cons r rs ih => exact ih h.write.invalidate

theorem endReplace {s : State} {frame : Nat} {r : Replace} (h : s.Numbered) : (s.endReplace frame r).Numbered := by
  unfold State.endReplace
  dsimp only
  split
  · exact done (raise (setFrame (ite h.mapFrameCtxs h)))
  · exact raise (setFrame (ite h.mapFrameCtxs h))

theorem execLayerSwap {frame : BitVec 8} {s : State} (h : s.Numbered) : Keeps (execLayerSwap frame s) := by
  unfold Machine.execLayerSwap
  dsimp only
  split
  · exact next h
  · exact Keeps.ite (next h.waitRaise) (Keeps.ite (next h.swapRuns.setFrame.endReplace) (next h.swapRuns.setFrame))

theorem execDrainLimitExpiry {f : FnId} {s : State} (h : s.Numbered) : Keeps (execDrainLimitExpiry f s) := next h.setFrames

theorem execPassBegin {q : QueueId} {d : Desc} {s : State} (h : s.Numbered) : Keeps (execPassBegin q d s) :=
  next (issue h (fun _ _ h1 => ite h1.faultOp (ite h1.refuseOpen (by
    split
    · exact h1.park
    · exact h1.setQueue.done))))

theorem overrun {s : State} {f : FnId} {req : Nat × Nat × Nat} (h : s.Numbered) : (s.overrun f req).2.Numbered := ite_snd h.draw h

theorem execPassEnd {q : QueueId} {d : Desc} {s : State} (h : s.Numbered) : Keeps (execPassEnd q d s) :=
  next (issue h (fun _ _ h1 => ite h1.refuseOpen (complete (setQueue (by
    split
    · exact h1.overrun
    · exact h1)))))

theorem execSetSwapPolicy {q : QueueId} {d : Desc} {s : State} (h : s.Numbered) : Keeps (execSetSwapPolicy q d s) :=
  next (issue h (fun _ _ h1 => ite h1.faultOp h1.modFn.done))

/-! ### Plans -/

theorem admission {s : State} {o : Op} {x : Failing} (h : s.Numbered) : (s.admission o x).Numbered := complete (ite_snd h h.draw)

theorem admittedDone {s : State} {o : Op} (h : s.Numbered) : (s.admittedDone o).Numbered := h.complete

theorem execLoadPlan {q : QueueId} {d : Desc} {s : State} (h : s.Numbered) : Keeps (execLoadPlan q d s) :=
  next (issue h (fun _ _ h1 => ite h1.faultOp (ite h1.faultOp (by
    dsimp only
    split
    · exact h1.write.modFn.admittedDone
    · exact h1.admission
    · exact h1.admission))))

theorem classExcess {s : State} {x : Fn} {c : BitVec 256} (h : s.Numbered) : (s.classExcess x c).2.Numbered := by
  unfold State.classExcess
  split
  · exact h.draw
  · dsimp only
    split
    · exact h
    · exact h.draw

theorem execLoadClass {q : QueueId} {d : Desc} {s : State} (h : s.Numbered) : Keeps (execLoadClass q d s) :=
  next (issue h (fun _ _ h1 => ite h1.faultOp (ite h1.faultOp (ite h1.modFn.admittedDone h1.classExcess.admission))))

theorem execSetSeed {q : QueueId} {d : Desc} {s : State} (h : s.Numbered) : Keeps (execSetSeed q d s) :=
  next (issue h (fun _ _ h1 => h1.modFn.done))

theorem execSetMode {q : QueueId} {d : Desc} {s : State} (h : s.Numbered) : Keeps (execSetMode q d s) :=
  next (issue h (fun _ _ h1 => h1.modFn.done))

/-! ### Steps -/

theorem execReady {msg : BitVec 256} {s : State} (h : s.Numbered) : Keeps (execReady msg s) :=
  Keeps.ite (next h) (Keeps.ite (next h.onReady) (next h.sendUpTree))

theorem execVote {msg : BitVec 256} {s : State} (h : s.Numbered) : Keeps (execVote msg s) :=
  Keeps.ite (next h) (Keeps.ite (next h.onVote) (next h.sendUpTree))

theorem fromMaster {s : State} {port : PortId} {msg : BitVec 256} (h : s.Numbered) : (s.fromMaster port msg).Numbered :=
  ite h.took.sendDown.holdDecision h.took

theorem execCommit {port : PortId} {msg : BitVec 256} {s : State} (h : s.Numbered) : Keeps (execCommit port msg s) :=
  Keeps.ite (next h.fromMaster) (next h)

theorem execAbort {port : PortId} {msg : BitVec 256} {s : State} (h : s.Numbered) : Keeps (execAbort port msg s) :=
  Keeps.ite (next h.fromMaster) (next h)

theorem execDecisionMessage {src : BitVec 16} {job : Word} {step : BitVec 64} {isCommit : Bool} {cause aborts : Byte} {final : Bool}
    {s : State} (h : s.Numbered) :
    Keeps (execDecisionMessage src job step isCommit cause aborts final s) :=
  Keeps.ite (next h) (next h.setBeat.sendMgmt)

theorem release {s : State} {job : Nat} {d : Decision} (h : s.Numbered) : (s.release job d).Numbered := h.setJob.broadcast

theorem execDecisionEcho {src : BitVec 16} {job : Word} {step : BitVec 64} {s : State} (h : s.Numbered) :
    Keeps (execDecisionEcho src job step s) := by
  unfold Machine.execDecisionEcho
  split
  · exact next h
  · exact Keeps.ite (next h.release) (next h)

theorem retryBackup {s : State} {job : Nat} {d : Decision} (h : s.Numbered) : (s.retryBackup job d).Numbered :=
  ite h.setBeat.setBeat.setJob.sendMgmt h.setBeat.setBeat.setJob.release

theorem execEchoTimeout {job : Word} {s : State} (h : s.Numbered) : Keeps (execEchoTimeout job s) := by
  unfold Machine.execEchoTimeout
  split
  · exact next h
  · exact Keeps.ite (next h.retryBackup) (next h)

theorem onJobReg {s : State} {msg : Nat} (h : s.Numbered) : (s.onJobReg msg).Numbered := ite h.setJob (ite h h.setJob)

theorem execJobReg {_src : BitVec 16} {msg : BitVec 128} {s : State} (h : s.Numbered) : Keeps (execJobReg _src msg s) :=
  Keeps.ite (next h.onJobReg) (next h)

theorem sendSlack {s : State} {f : FnId} (h : s.Numbered) : (s.sendSlack f).Numbered := ite (ite h.onSlack h.sendMgmt) h

theorem execPwrSlack {msg : BitVec 256} {s : State} (h : s.Numbered) : Keeps (execPwrSlack msg s) := Keeps.ite (next h.onSlack) (next h)

theorem execPwrShift {job : Word} {offset : BitVec 12} {s : State} (h : s.Numbered) : Keeps (execPwrShift job offset s) :=
  next h.takeShift

theorem sendReady {s : State} {f : FnId} (h : s.Numbered) : (s.sendReady f).Numbered := ite h.modStep.sendSlack.toMaster h

theorem execReportReady {q : QueueId} {d : Desc} {s : State} (h : s.Numbered) : Keeps (execReportReady q d s) :=
  next (issue h (fun _ _ h1 => ite h1.park (ite h1.complete (ite h1.complete (ite h1.failStep.complete h1.sendReady.done)))))

theorem execDecideLost {f : FnId} {s : State} (h : s.Numbered) : Keeps (execDecideLost f s) := by
  unfold Machine.execDecideLost
  dsimp only
  split
  · exact next h
  · exact Keeps.ite (next (logFn (raise (breakJob (foldl h fun _ _ h1 => h1.kill))))) (next h)

theorem execSetEpochPair {q : QueueId} {d : Desc} {s : State} (h : s.Numbered) : Keeps (execSetEpochPair q d s) :=
  next (issue h (fun _ _ h1 => ite h1.faultOp h1.modStep.done))

/-! ### Functions -/

theorem takeCores {s : State} {f : FnId} {logical : List Nat} (h : s.Numbered) : (s.takeCores f logical).Numbered :=
  foldl h fun _ _ h1 => by
    split
    · exact h1.enterService.countMapChange
    · exact h1.modFn

theorem chooseCores {s : State} {f : FnId} {logical : List Nat} (h : s.Numbered) : (s.chooseCores f logical).Numbered :=
  foldl h fun _ _ h1 => by
    split
    · exact h1.prepareCore.modCell
    · exact h1

theorem giveParts {s : State} {f : FnId} {ps : List Nat} (h : s.Numbered) : (s.giveParts f ps).Numbered :=
  foldl h fun _ _ h1 => h1.zeroRange.setPart

theorem tenonParts {s : State} {ps : List Nat} (h : s.Numbered) : (s.tenonParts ps).Numbered := foldl h fun _ _ h1 => h1.setPart

theorem clearFnPages {s : State} {f : Nat} (h : s.Numbered) : (s.clearFnPages f).Numbered := foldl h fun _ _ h1 => h1.clearPage

theorem create {s : State} {f : FnId} {r : BitVec 4096} (h : s.Numbered) : (s.create f r).Numbered :=
  h.draw.clearFnPages.setFn.modSec.chooseCores.giveParts.tenonParts

theorem awaitMap {s : State} {o : Op} {f : FnId} (h : s.Numbered) : (s.awaitMap o f).Numbered := ite h.done h.modFn

theorem execCreateFunction {q : QueueId} {d : Desc} {s : State} (h : s.Numbered) : Keeps (execCreateFunction q d s) :=
  next (issue h (fun _ _ h1 => ite h1.faultOp (ite h1.faultOp h1.create.awaitMap)))

theorem refuseResize {s : State} {o : Op} {x : Failing} (h : s.Numbered) : (s.refuseResize o x).Numbered := h.complete

theorem acceptResize {s : State} {o : Op} {f : FnId} {r : BitVec 4096} (h : s.Numbered) : (s.acceptResize o f r).Numbered := h.modFn

theorem execResize {q : QueueId} {d : Desc} {s : State} (h : s.Numbered) : Keeps (execResize q d s) :=
  next (issue h (fun _ _ h1 => ite h1.faultOp (ite h1.faultOp (by
    split
    · exact h1.refuseResize
    · exact ite h1.refuseResize (ite h1.faultOp h1.acceptResize)))))

theorem removeCore {s : State} {c : CoreId} (h : s.Numbered) : (s.removeCore c).Numbered := by
  unfold State.removeCore
  extract_lets t x
  have ht : t.Numbered := h.supersedeMove.cancelCore.discardCore.clearCore
  exact ite ht.setCell.countMapChange ht.setCell

theorem dropParts {s : State} {ps : List Nat} (h : s.Numbered) : (s.dropParts ps).Numbered := foldl h fun _ _ h1 => h1.setPart

theorem dropQueues {s : State} {qs : List Nat} (h : s.Numbered) : (s.dropQueues qs).Numbered := foldl h fun _ _ h1 => h1.setQueue

theorem applyResize {s : State} {f : FnId} {r : BitVec 4096} (h : s.Numbered) : (s.applyResize f r).Numbered :=
  dropQueues (giveParts (dropParts (takeCores (foldl h.modFn fun _ _ h1 => h1.removeCore))))

theorem resizeNow {s : State} {f : FnId} (h : s.Numbered) : (s.resizeNow f).Numbered := by
  unfold State.resizeNow
  split
  · exact h
  · dsimp only
    split
    · exact h.applyResize.raiseFn.done
    · exact h.applyResize.raiseFn

theorem execResizeEffect {f : FnId} {s : State} (h : s.Numbered) : Keeps (execResizeEffect f s) := by
  unfold Machine.execResizeEffect
  split
  · exact next h
  · exact Keeps.ite (next h.resizeNow) (next h)

theorem endResize {s : State} {f : FnId} {status cause : Nat} (h : s.Numbered) : (s.endResize f status cause).Numbered := by
  unfold State.endResize
  split
  · exact h
  · dsimp only
    split
    · exact h.modFn.complete
    · exact h.modFn

theorem execResizeLapsed {f : FnId} {s : State} (h : s.Numbered) : Keeps (execResizeLapsed f s) := by
  unfold Machine.execResizeLapsed
  split
  · exact next h
  · exact Keeps.ite (next h.endResize) (next h)

theorem abortFn {s : State} {f : FnId} (h : s.Numbered) : (s.abortFn f).Numbered := by
  unfold State.abortFn
  extract_lets cores t u v w
  have hu : u.Numbered := when (foldl h fun _ _ h1 => h1.cancelCore) fun h2 => h2.spoilScarf.breakJob
  have hw : w.Numbered := foldl hu.setReduces.dropKept fun _ _ h3 => h3.openMove.kill
  exact hw.modFn

theorem cancelFreeze {s : State} {f : FnId} (h : s.Numbered) : (s.cancelFreeze f).Numbered := by
  unfold State.cancelFreeze
  split
  · exact h
  · dsimp only
    split
    · exact ite h.modFn.kill h.modFn
    · exact h.modFn

theorem dropTaking {s : State} {f : FnId} (h : s.Numbered) : (s.dropTaking f).Numbered := foldl h fun _ _ h1 => ite h1.modCell h1

theorem cancelMap {s : State} {f : FnId} (h : s.Numbered) : (s.cancelMap f).Numbered := by
  unfold State.cancelMap
  split
  · exact h
  · dsimp only
    split
    · exact h.modFn.dropTaking.complete
    · exact h.modFn.dropTaking

theorem disable {s : State} {o : Op} {f : FnId} (h : s.Numbered) : (s.disable o f).Numbered :=
  ite h.endResize.cancelFreeze.cancelMap.modFn.abortFn h.endResize.cancelFreeze.cancelMap.modFn

theorem execDisable {q : QueueId} {d : Desc} {s : State} (h : s.Numbered) : Keeps (execDisable q d s) :=
  next (issue h (fun _ _ h1 => ite h1.faultOp (ite h1.faultOp h1.disable)))

theorem execDrainBeatsExpiry {f : FnId} {s : State} (h : s.Numbered) : Keeps (execDrainBeatsExpiry f s) :=
  Keeps.ite (next h.abortFn) (next h)

theorem undefineFrame {s : State} {id : Nat} (h : s.Numbered) : (s.undefineFrame id).Numbered := h.setFrame.setFns.setCtxs

theorem releaseCtxs {s : State} {f : FnId} (h : s.Numbered) : (s.releaseCtxs f).Numbered := h.setCtxs

theorem leaveCore {s : State} {c : CoreId} (h : s.Numbered) : (s.leaveCore c).Numbered := h.supersedeMove.cancelCore.discardCore.modCell

theorem startScrub {s : State} {f : FnId} (h : s.Numbered) : (s.startScrub f).Numbered :=
  dropParts (foldl (releaseCtxs (releasePages (foldl (dropLinks (setHeldOps (modFn (foldl h fun _ _ h1 => h1.discardCore))))
    fun _ _ h3 => h3.undefineFrame))) fun _ _ h5 => h5.leaveCore)

theorem execFunctionScrubbing {f : FnId} {s : State} (h : s.Numbered) : Keeps (execFunctionScrubbing f s) :=
  Keeps.ite (next h.startScrub) (next h)

theorem execFunctionOff {f : FnId} {s : State} (h : s.Numbered) : Keeps (execFunctionOff f s) :=
  Keeps.ite (by
    split
    · exact next h.dropQueues.clearFnPages.setFn.done
    · exact next h.dropQueues.clearFnPages.setFn) (next h)

theorem execPartitionScrub {part : PartId} {clean : Bool} {s : State} (h : s.Numbered) : Keeps (execPartitionScrub part clean s) :=
  Keeps.ite (next h) (Keeps.ite (next h.zeroRange.setPart) (next h.zeroRange.deviceFault))

theorem execReadCounters {q : QueueId} {d : Desc} {s : State} (h : s.Numbered) : Keeps (execReadCounters q d s) :=
  next (issue h (fun _ _ h1 => ite h1.faultOp (ite h1.complete (deliver h1 (fun _ h2 => done (ite (foldl h2 fun _ _ h3 => h3.clearCore)
    h2))))))

theorem execBindFrame {q : QueueId} {d : Desc} {s : State} (h : s.Numbered) : Keeps (execBindFrame q d s) :=
  next (issue h (fun _ _ h1 => ite h1.faultOp (ite h1.faultOp h1.modFn.done)))

theorem execUnbind {q : QueueId} {d : Desc} {s : State} (h : s.Numbered) : Keeps (execUnbind q d s) :=
  next (issue h (fun _ _ h1 => ite h1.faultOp h1.modFn.setCtxs.done))

theorem execSetMortiseRange {q : QueueId} {d : Desc} {s : State} (h : s.Numbered) : Keeps (execSetMortiseRange q d s) :=
  next (issue h (fun _ _ h1 => ite h1.faultOp (ite h1.refuseOpen h1.modFn.done)))

theorem execSetAperture {q : QueueId} {d : Desc} {s : State} (h : s.Numbered) : Keeps (execSetAperture q d s) :=
  next (issue h (fun _ _ h1 => ite h1.faultOp h1.modFn.done))

theorem execExtension {q : QueueId} {d : Desc} {s : State} (h : s.Numbered) : Keeps (execExtension q d s) :=
  next (issue h (fun _ _ h1 => ite h1.faultOp (ite h1.faultOp h1.setExtension.done)))

/-! ### Reduce -/

theorem writeResults {s : State} {r : Reduce} {c e : Nat} {codes : List Nat} (h : s.Numbered) :
    (s.writeResults r c e codes).Numbered :=
  h.write

theorem accumulate {s : State} {r : Reduce} (h : s.Numbered) : (s.accumulate r).Numbered := h.write

theorem sendRed {s : State} {f : FnId} {p : Nat} {fr : Frame} (h : s.Numbered) : (s.sendRed f p fr).2.Numbered := h.sealFrame.sendOn

theorem modReduce {s : State} {r : OpRef} {g : Reduce → Reduce} (h : s.Numbered) : (s.modReduce r g).Numbered := h.setReduces

theorem modChunk {s : State} {r : OpRef} {c : Nat} {g : Chunk → Chunk} (h : s.Numbered) : (s.modChunk r c g).Numbered := h.modReduce

theorem sendWindows {s : State} {r : Reduce} {p first : Nat} {ws : List Int} (h : s.Numbered) :
    (s.sendWindows r p first ws).Numbered :=
  h.sendRed

theorem windowsUp {s : State} {r : OpRef} (h : s.Numbered) : (s.windowsUp r).Numbered := by
  unfold State.windowsUp
  split
  · exact h
  · exact foldl h fun _ _ h1 => by
      dsimp only
      split
      · exact ite (foldl h1.sendWindows fun _ _ h2 => h2.modChunk) h1
      · exact h1

theorem settleSpecial {s : State} {x : Reduce} {c : Nat} {w : Int} (h : s.Numbered) : (s.settleSpecial x c w).Numbered :=
  ite h h.writeResults.modChunk

theorem agree {s : State} {x : Reduce} {c : Nat} {w : Int} (h : s.Numbered) : (s.agree x c w).Numbered := h.modChunk.settleSpecial

theorem agreeOwn {s : State} {r : OpRef} (h : s.Numbered) : (s.agreeOwn r).Numbered := by
  unfold State.agreeOwn
  split
  · exact h
  · exact foldl h fun _ _ h1 => ite h1.agree h1

theorem windowsDown {s : State} {r : OpRef} (h : s.Numbered) : (s.windowsDown r).Numbered := by
  unfold State.windowsDown
  split
  · exact h
  · exact foldl h fun _ _ h1 => by
      dsimp only
      split
      · exact ite (foldl h1.sendWindows fun _ _ h2 => h2.modChunk) h1
      · exact h1

theorem sendPartials {s : State} {x : Reduce} {p c : Nat} {w : Int} {sums : List Int} (h : s.Numbered) :
    (s.sendPartials x p c w sums).Numbered :=
  by
  unfold State.sendPartials
  extract_lets frames high r t y u v
  have ht : t.Numbered := foldl_snd h fun _ _ hp => hp.sendRed
  exact ite h.wait (modChunk (ite ht.setPort ht.setPort.count))

theorem sendResults {s : State} {x : Reduce} {c e : Nat} {w : Int} {codes : List Nat} (h : s.Numbered) :
    (s.sendResults x c e w codes).Numbered :=
  foldl h fun _ _ h1 => by
    split
    · exact h1.sendRed
    · exact h1

theorem finalResults {s : State} {x : Reduce} {c : Nat} {w : Int} {sums : List Int} (h : s.Numbered) :
    (s.finalResults x c w sums).Numbered :=
  modChunk (foldl h fun _ _ h1 => h1.writeResults.sendResults)

theorem partialsUp {s : State} {r : OpRef} (h : s.Numbered) : (s.partialsUp r).Numbered := by
  unfold State.partialsUp
  split
  · exact h
  · exact foldl h fun _ _ h1 => by
      split
      · exact h1
      · exact ite h1 (by
          dsimp only
          split
          · exact h1.finalResults
          · split
            · exact h1.sendPartials
            · exact h1)

theorem endReduce {s : State} {r : OpRef} {status cause : Nat} (h : s.Numbered) : (s.endReduce r status cause).Numbered := h.modReduce

theorem pumpReduce {s : State} {r : OpRef} (h : s.Numbered) : (s.pumpReduce r).Numbered := by
  unfold State.pumpReduce
  dsimp only
  split
  · exact ite (endReduce h.windowsUp.agreeOwn.windowsDown.partialsUp) (when h.windowsUp.agreeOwn.windowsDown.partialsUp fun h2 =>
      h2.endReduce)
  · exact h.windowsUp.agreeOwn.windowsDown.partialsUp

theorem onWindow {s : State} {x : Reduce} {p : Nat} {fr : Frame} (h : s.Numbered) : (s.onWindow x p fr).Numbered :=
  foldl h fun _ _ h1 => by
    dsimp only
    split
    · exact ite (ite h1 h1.agree) h1.modChunk
    · exact h1

theorem residueFault {s : State} {x : Reduce} {c : Nat} {links : List Nat} (h : s.Numbered) : (s.residueFault x c links).Numbered :=
  ite h.count.endReduce (foldl h.modChunk fun _ _ h1 => by
    split
    · exact h1.sendRed
    · exact h1)

theorem onPartial {s : State} {x : Reduce} {p : Nat} {fr : Frame} {adderFault : Bool} (h : s.Numbered) :
    (s.onPartial x p fr adderFault).Numbered := by
  unfold State.onPartial
  dsimp only
  split
  · split
    · exact h
    · exact ite h.endReduce (ite h.residueFault (ite h.modChunk (ite h.modChunk.residueFault h.modChunk)))
  · exact h

theorem onResult {s : State} {x : Reduce} {p : Nat} {fr : Frame} (h : s.Numbered) : (s.onResult x p fr).Numbered := by
  unfold State.onResult
  dsimp only
  split
  · exact h
  · split
    · exact h
    · exact ite h.endReduce (ite h.writeResults.sendResults.modChunk.setPort h.writeResults.sendResults.modChunk)

theorem onResend {s : State} {f : FnId} {p : Nat} {fr : Frame} (h : s.Numbered) : (s.onResend f p fr).Numbered := by
  unfold State.onResend
  dsimp only
  split
  · exact h
  · exact logFn (raise (count (foldl h fun _ _ h1 => h1.sendOn)))

theorem onRed {s : State} {x : Reduce} {p : Nat} {fr : Frame} {adderFault : Bool} (h : s.Numbered) :
    (s.onRed x p fr adderFault).Numbered := by
  unfold State.onRed
  split
  · exact h.onWindow
  · exact h.onPartial
  · exact h.onResult
  · exact h

theorem freeKept {s : State} {f : FnId} {ch : Nat} (h : s.Numbered) : (s.freeKept f ch).Numbered := foldl h fun _ _ h1 => h1.setPort

theorem startReduce {s : State} {x : Reduce} (h : s.Numbered) : (s.startReduce x).Numbered :=
  ite h.modReduce.accumulate.endReduce (pumpReduce (foldl (keepOr (freeKept (ite h.modReduce h.modReduce.write)) fun h2 =>
    h2.count.endReduce) fun _ _ h4 => by
    split
    · exact ite h4.onRed h4
    · exact h4))

theorem closeReduce {s : State} {x : Reduce} {status cause : Nat} (h : s.Numbered) : (s.closeReduce x status cause).Numbered := by
  unfold State.closeReduce
  dsimp only
  split
  · exact h.setReducesRedDone
  · exact ite h.setReducesRedDone.fail h.setReducesRedDone.complete

theorem flushChannel {s : State} {f : FnId} {ch fuel : Nat} (h : s.Numbered) : (flushChannel f ch fuel s).Numbered := by
  induction fuel generalizing s with
  | zero => exact h
  | succ fuel ih =>
    unfold State.flushChannel
    split
    · exact h
    · split
      · exact ih h.closeReduce
      · exact ite h (ih h.startReduce)

theorem flush {s : State} {f : FnId} {ch : Nat} (h : s.Numbered) : (s.flush f ch).Numbered := h.flushChannel

theorem pumpAll {s : State} (h : s.Numbered) : (s.pumpAll).Numbered := foldl h fun _ _ h1 => ite h1.pumpReduce.flush h1

theorem gate {s : State} {i : Instr} {o : Op} {reads writes : List (Nat × Nat)} {run : State → State} (h : s.Numbered)
    (hrun : ∀ t, t.Numbered → (run t).Numbered) :
    (s.gate i o reads writes run).Numbered :=
  ite h.keyWait (ite h.wait.park (ite h.winStall.park (ite h.parkStage (ite h.wait.park (by
    split
    · exact hrun _ h
    · exact h.fail)))))

theorem execReduce {q : QueueId} {d : Desc} {s : State} (h : s.Numbered) : Keeps (execReduce q d s) :=
  next (issue h (fun _ _ h1 => ite h1.fail (gate h1 (fun _ h2 => h2.putOp.setReducesRedDone.flush))))

theorem redArrive {s : State} {p : Nat} {fr : Frame} {type : Nat} {adderFault : Bool} (h : s.Numbered) :
    (s.redArrive p fr type adderFault).Numbered :=
  ite h (by
    dsimp only
    split
    · exact h.setPort.sealFail
    · exact h.setPort
    · exact ite h.setPort.onResend (by
        split
        · exact ite h.setPort.onRed.pumpReduce.flush (ite h.setPort.count h.setPort)
        · exact ite h.setPort.count h.setPort))

theorem execRedWindow {port : PortId} {fr : Frame} {s : State} (h : s.Numbered) : Keeps (execRedWindow port fr s) := next h.redArrive

theorem execRedPartial {port : PortId} {fr : Frame} {adderFault : Bool} {s : State} (h : s.Numbered) :
    Keeps (execRedPartial port fr adderFault s) :=
  next h.redArrive

theorem execRedResult {port : PortId} {fr : Frame} {s : State} (h : s.Numbered) : Keeps (execRedResult port fr s) := next h.redArrive

theorem execRedResend {port : PortId} {fr : Frame} {s : State} (h : s.Numbered) : Keeps (execRedResend port fr s) := next h.redArrive

theorem execReduceTimeout {q : QueueId} {opId : BitVec 16} {s : State} (h : s.Numbered) : Keeps (execReduceTimeout q opId s) := by
  unfold Machine.execReduceTimeout
  dsimp only
  split
  · exact next h.endReduce.flush
  · exact next h

/-! ### Jobs -/

theorem sendJobReg {s : State} {m : BitVec 512} {remove : Bool} (h : s.Numbered) : (s.sendJobReg m remove).Numbered :=
  foldl (ite h.onJobReg h) fun _ _ h1 => h1.sendMgmt

theorem acceptMap {s : State} {f : FnId} {m : BitVec 512} (h : s.Numbered) : (s.acceptMap f m).Numbered :=
  ite (ite h.modJob.sendJobReg h) (ite h.modJob.sendJobReg h.takeMap.sendJobReg)

theorem execSetJobMap {q : QueueId} {d : Desc} {s : State} (h : s.Numbered) : Keeps (execSetJobMap q d s) :=
  next (issue h (fun _ _ h1 => ite h1.faultOp (ite h1.faultOp h1.acceptMap.done)))

theorem putStageQ {s : State} {f : FnId} {q : Nat} {x : StageQ} (h : s.Numbered) : (s.putStageQ f q x).Numbered := h.modJob

theorem execSetStageQueue {q : QueueId} {d : Desc} {s : State} (h : s.Numbered) : Keeps (execSetStageQueue q d s) :=
  next (issue h (fun _ _ h1 => ite h1.faultOp (ite h1.faultOp h1.putStageQ.done)))

theorem sendNext {s : State} {f : FnId} {r : OpRef} {p sub : Nat} {body : List Byte} (h : s.Numbered) :
    (s.sendNext f r p sub body).Numbered :=
  h.sendMessage

theorem execStageFree {q : QueueId} {d : Desc} {s : State} (h : s.Numbered) : Keeps (execStageFree q d s) :=
  next (issue h (fun _ _ h1 => by
    split
    · exact h1.faultOp
    · exact ite h1.faultOp (ite h1.refuseOpen h1.putStageQ.sendNext.done)))

theorem settleSend {s : State} {o : Op} (h : s.Numbered) : (s.settleSend o).Numbered := ite h h.done

theorem execStageSend {q : QueueId} {d : Desc} {s : State} (h : s.Numbered) : Keeps (execStageSend q d s) :=
  next (issue h (fun _ _ h1 => ite h1.fail (by
    split
    · exact ite h1.park (ite h1.wait.wait.park (ite h1.parkStage (gate h1 (fun _ h2 => h2.putStageQ.sendNext.settleSend))))
    · exact h1.complete)))

theorem placeShards {s : State} {f : FnId} {d : Desc} (h : s.Numbered) : (s.placeShards f d).Numbered :=
  foldl h fun _ _ h1 => foldl h1 fun _ _ h2 => h2.write

theorem dropShards {s : State} {f : FnId} {d : Desc} (h : s.Numbered) : (s.dropShards f d).Numbered := foldl h fun _ _ h1 => h1.setMail

theorem shardVersion {s : State} {o : Op} {detail : Nat} (h : s.Numbered) : (s.shardVersion o detail).Numbered :=
  h.dropShards.count.raise.fail

theorem endGather {s : State} {o : Op} {tag : Nat} (h : s.Numbered) : (s.endGather o tag).Numbered :=
  ite (ite h.dropShards.fail h.dropShards.modJob.done) (ite h.dropShards.fail (ite h.shardVersion h.dropShards.done))

theorem settleGather {s : State} {o : Op} (h : s.Numbered) : (s.settleGather o).Numbered :=
  ite h.placeShards.shardVersion (ite h.placeShards.endGather h.placeShards)

theorem post {s : State} {o : Op} {pos addr kind : Nat} {body : List Byte} (h : s.Numbered) : (s.post o pos addr kind body).Numbered := by
  unfold State.post
  split
  · exact h.setNextMsg.sendMessage
  · exact h

theorem failOpen {s : State} {o : Op} (h : s.Numbered) : (s.failOpen o).Numbered := h.draw.fail

theorem execShardGather {q : QueueId} {d : Desc} {s : State} (h : s.Numbered) : Keeps (execShardGather q d s) :=
  next (issue h (fun _ _ h1 => ite h1.failOpen (ite h1.fail (ite h1.complete (ite h1.park (gate h1 (fun _ h2 => settleGather (foldl
    h2.markPages.putOp.setMail fun _ _ h3 => h3.post))))))))

theorem startRound {s : State} {o : Op} {r : Nat} (h : s.Numbered) : (s.startRound o r).Numbered :=
  foldl h.write fun _ _ h1 => ite h1.setMail h1.post

theorem settleScarf {s : State} {f : FnId} {fuel : Nat} (h : s.Numbered) : (settleScarf f fuel s).Numbered := by
  induction fuel generalizing s with
  | zero => exact h
  | succ fuel ih =>
    unfold State.settleScarf
    split
    · exact h
    · split
      · dsimp only
        split
        · exact ite h.setMail.fail (ih h.setMail.write.modJob)
        · exact h.setMail.fail
      · exact h

theorem pumpScarf {s : State} {f : FnId} (h : s.Numbered) : (s.pumpScarf f).Numbered := h.settleScarf

theorem execScarf {q : QueueId} {d : Desc} {s : State} (h : s.Numbered) : Keeps (execScarf q d s) :=
  next (issue h (fun _ _ h1 => ite h1.failOpen (ite h1.complete (ite h1.fail (ite h1.park (gate h1 (fun _ h2 =>
    h2.putOp.modJob.startRound.pumpScarf)))))))

theorem execScarfRound {f : FnId} {s : State} (h : s.Numbered) : Keeps (execScarfRound f s) := by
  unfold Machine.execScarfRound
  split
  · exact next h
  · split
    · exact next h
    · exact Keeps.ite (next h) (Keeps.ite (next h.modJob.sendReady) (next h.modJob.startRound.pumpScarf))

theorem settleOp {s : State} {o : Op} (h : s.Numbered) : (s.settleOp o).Numbered := ite h (ite h.settleGather (ite h.settleSend h))

theorem settleAll {s : State} (h : s.Numbered) : (s.settleAll).Numbered :=
  foldl (foldl h.setOutbox fun _ _ h1 => by
    split
    · exact h1.settleOp
    · exact h1) fun _ _ h3 => ite h3.pumpScarf h3

theorem landStage {s : State} {f : FnId} {x : StageQ} {mb : Nat} {body : List Byte} (h : s.Numbered) :
    (s.landStage f x mb body).Numbered := by
  unfold State.landStage
  dsimp only
  split
  · exact h.putStageQ.write
  · exact h.putStageQ

theorem onMessage {s : State} {p sub : Nat} {bytes : List Byte} (h : s.Numbered) : (s.onMessage p sub bytes).Numbered :=
  ite (by
    split
    · exact h.landStage
    · exact h) (ite (by
    split
    · exact h.putStageQ
    · exact h) (ite h h.setMail.settleAll))

theorem execSaveCheckpoint {q : QueueId} {d : Desc} {s : State} (h : s.Numbered) : Keeps (execSaveCheckpoint q d s) :=
  next (issueOnCore h (fun _ _ _ h1 => ite h1.faultOp (ite (ite h1.park h1.modJob) h1.runSave)))

theorem loadWatch {s : State} {f : FnId} {first n base : Nat} (h : s.Numbered) : (s.loadWatch f first n base).Numbered :=
  foldl h fun _ _ h1 => by
    split
    · exact h1.watchWrite
    · exact h1

theorem restored {s : State} {f : FnId} {h : Nat} (hs : s.Numbered) : (s.restored f h).Numbered := hs.modStep.modFn.modJob

theorem runRestore {s : State} {o : Op} {dests : List (Nat × Nat × Nat)} (h : s.Numbered) : (s.runRestore o dests).Numbered := by
  unfold State.runRestore
  extract_lets f d base header n es bodies rest good t u
  have ht : t.Numbered := foldl h fun _ _ h1 => foldl h1 fun _ _ h2 => h2.write
  exact ite (faultOp (foldl h fun _ _ h1 => foldl h1 fun _ _ h2 => h2.scramble)) (done (restored (when ht fun h1 => h1.loadWatch)))

theorem execRestoreCheckpoint {q : QueueId} {d : Desc} {s : State} (h : s.Numbered) : Keeps (execRestoreCheckpoint q d s) :=
  next (issueOnCore h (fun _ _ _ h1 => ite h1.faultOp (ite h1.wait.park h1.runRestore)))

/-! ### Fabric -/

theorem drain {s : State} {p : Nat} (h : s.Numbered) : (s.drain p).Numbered := h.setPort

theorem helloIfChanged {s before : State} (h : s.Numbered) (_ : before.Numbered) : (s.helloIfChanged before).Numbered :=
  ite h h.sendHellos

theorem enterHoldover {s : State} (h : s.Numbered) : (s.enterHoldover).Numbered := ite h h.setBeat.raise.logPkg

theorem losePartner {s : State} {p chip : Nat} (h : s.Numbered) : (s.losePartner p chip).Numbered :=
  ite h.raise.logPkg.rebuildTree.enterHoldover h.raise.logPkg.rebuildTree

theorem loseMessages {s : State} {o : Op} (h : s.Numbered) : (s.loseMessages o).Numbered := ite h.putOp h.fail

theorem dropLink {s : State} {p : Nat} (h : s.Numbered) : (s.dropLink p).Numbered :=
  helloIfChanged (pumpAll (settleAll (foldl (ite h.setPort.setOutbox.losePartner h.setPort.setOutbox) fun _ _ h2 => h2.loseMessages))) h

theorem loseLink {s : State} {p : Nat} (h : s.Numbered) : (s.loseLink p).Numbered := h.count.dropLink

theorem execFabricLinkLost {port : PortId} {s : State} (h : s.Numbered) : Keeps (execFabricLinkLost port s) :=
  Keeps.ite (next h.loseLink) (next h)

theorem goBack {s : State} {p seq : Nat} (h : s.Numbered) : (s.goBack p seq).Numbered :=
  ite h (ite h.setPort.count.loseLink h.setPort.count)

theorem execLctrl {port : PortId} {payload : BitVec 256} {s : State} (h : s.Numbered) : Keeps (execLctrl port payload s) :=
  Keeps.ite (next h) (next (pumpAll (settleAll (drain (ite h.setPort.goBack h.setPort)))))

theorem execLctrlSend {port : PortId} {s : State} (h : s.Numbered) : Keeps (execLctrlSend port s) := Keeps.ite (next h) (next h.setPort)

theorem linkTrained {s : State} {p width : Nat} (h : s.Numbered) : (s.linkTrained p width).Numbered :=
  ite h.setPort h.setPort.count.raise.logPkg

theorem execPortTraining {port : PortId} {low high : Bool} {s : State} (h : s.Numbered) : Keeps (execPortTraining port low high s) :=
  Keeps.ite (next h) (Keeps.ite (next h.linkTrained.sendHello) (Keeps.ite (next h.linkTrained.sendHello) (next h.setPort)))

theorem execPortRetry {port : PortId} {s : State} (h : s.Numbered) : Keeps (execPortRetry port s) := Keeps.ite (next h.setPort) (next h)

theorem discover {s : State} {p : Nat} {d : BitVec 512} (h : s.Numbered) : (s.discover p d).Numbered :=
  ite (ite h.setPort.raise.logPkg.elect h.setPort.raise.logPkg.rebuildTree) h.setPort.raise.logPkg

theorem execHello {port : PortId} {payload : BitVec 512} {s : State} (h : s.Numbered) : Keeps (execHello port payload s) :=
  Keeps.ite (next h) (Keeps.ite (next (helloIfChanged (ite h.took.setPort.losePartner h.took.setPort) h)) (Keeps.ite (next
    (helloIfChanged h.took.setPort.discover h)) (next (helloIfChanged h.took.setPort.rebuildTree h))))

theorem execHelloSend {port : PortId} {s : State} (h : s.Numbered) : Keeps (execHelloSend port s) := next h.sendHello

theorem deliverData {s : State} {p : Nat} {fr : Frame} (h : s.Numbered) : (s.deliverData p fr).Numbered := by
  unfold State.deliverData
  split
  · exact h.sealFail
  · split
    · rename_i hass; exact (of_snd h.assemble hass).onMessage
    · rename_i hass; exact of_snd h.assemble hass

theorem execData {port : PortId} {fr : Frame} {s : State} (h : s.Numbered) : Keeps (execData port fr s) :=
  Keeps.ite (next h) (Keeps.ite (Keeps.ite (next h.setPort.deliverData) (next h.setPort.count)) (by
    split
    · exact next h.setPort.sendOn
    · exact next h.setPort))

theorem execDroppedFrame {port : PortId} {fr : Frame} {crcOk : Bool} {s : State} (h : s.Numbered) :
    Keeps (execDroppedFrame port fr crcOk s) :=
  Keeps.ite (next h) (Keeps.ite (next h.setPort.count) (Keeps.ite (next h.setPort.count) (next h.setPort)))

/-! ### Queues -/

theorem enableQueue {s : State} {r : BitVec 512} (h : s.Numbered) : (s.enableQueue r).Numbered := h.setQueue.write

theorem takeQueue {s : State} {r : BitVec 512} (h : s.Numbered) : (s.takeQueue r).Numbered := ite h.enableQueue h.setQueue

theorem execSetQueue {q : QueueId} {d : Desc} {s : State} (h : s.Numbered) : Keeps (execSetQueue q d s) :=
  next (issue h (fun _ _ h1 => ite h1.faultOp (ite h1.faultOp h1.takeQueue.done)))

theorem execSetCoalesce {q : QueueId} {d : Desc} {s : State} (h : s.Numbered) : Keeps (execSetCoalesce q d s) :=
  next (issue h (fun _ _ h1 => ite h1.setMgmtCoalesce.done h1.modFn.done))

theorem execSetEventVector {q : QueueId} {d : Desc} {s : State} (h : s.Numbered) : Keeps (execSetEventVector q d s) :=
  next (issue h (fun _ _ h1 => ite h1.setMgmtEvent.done h1.modFn.done))

theorem readDesc {s : State} {n : QueueId} (h : s.Numbered) : (s.readDesc n).Numbered := by
  unfold State.readDesc
  extract_lets q d o x t c
  have ht : t.Numbered := h.setQueue.addOp rfl
  exact ite ht.faultOp ht

theorem readDescs {s : State} {n : QueueId} {fuel : Nat} (h : s.Numbered) : (s.readDescs n fuel).Numbered := by
  induction fuel generalizing s with
  | zero => exact h
  | succ fuel ih => exact ite h (ite (blame h.wait) (ih h.readDesc))

theorem watch {s : State} {n : QueueId} (h : s.Numbered) : (s.watch n).Numbered := ite h.readDescs h.readDescs.write

theorem watchAll {s : State} (h : s.Numbered) : (s.watchAll).Numbered := ite h (foldl h fun _ _ h1 => h1.watch)

theorem stopQueue {s : State} {n : QueueId} {beyond : Nat} (h : s.Numbered) : (s.stopQueue n beyond).Numbered :=
  h.setQueue.logEvent.count.raise.pageError

theorem seeTail {s : State} {n : QueueId} (h : s.Numbered) : (s.seeTail n).Numbered := ite h (ite h.stopQueue h.setQueue.watch)

theorem flushRing {s : State} {n : QueueId} {fuel : Nat} (h : s.Numbered) : (s.flushRing n fuel).Numbered := by
  induction fuel generalizing s with
  | zero => exact h
  | succ fuel ih =>
    unfold State.flushRing
    dsimp only
    split
    · exact h
    · exact ite h (ih (ite h.setQueue.putRecord.countIrq h.setQueue.putRecord))

theorem seeCplHead {s : State} {n : QueueId} (h : s.Numbered) : (s.seeCplHead n).Numbered := ite h h.setQueue.flushRing

theorem execTailWrite {q : QueueId} {tail : Word} {s : State} (h : s.Numbered) : Keeps (execTailWrite q tail s) :=
  Keeps.ite (next h.write.seeTail) (next h)

theorem execCplHeadWrite {q : QueueId} {index : Word} {s : State} (h : s.Numbered) : Keeps (execCplHeadWrite q index s) :=
  Keeps.ite (next h.write.seeCplHead) (next h)

theorem execCoalesceTimer {q : QueueId} {s : State} (h : s.Numbered) : Keeps (execCoalesceTimer q s) :=
  Keeps.ite (next h.interrupt) (next h)

theorem writeCipher {s : State} {a : Nat} {bs : List Byte} (h : s.Numbered) : (s.writeCipher a bs).Numbered := h.write

theorem companionWrite {s : State} {a : Nat} {bs : List Byte} (h : s.Numbered) : (s.companionWrite a bs).Numbered :=
  ite h.write (ite h.scramble h.writeCipher)

theorem execCompanionLineWrite {addr : BitVec 43} {data : BitVec 512} {s : State} (h : s.Numbered) :
    Keeps (execCompanionLineWrite addr data s) :=
  next (foldl (foldl h.companionWrite.invalidate fun _ _ h1 => h1.seeTail) fun _ _ h3 => h3.seeCplHead)

theorem setDlk {s : State} {port v : Nat} (h : s.Numbered) : (s.setDlk port v).Numbered := ite h.setBoot h.setBoot

theorem execSnoop {_addr : BitVec 43} {s : State} (h : s.Numbered) : Keeps (execSnoop _addr s) :=
  Keeps.ite (next h.count) (Keeps.ite (next h.count) (next h))

theorem execFlit {port : Fin 2} {ok : Bool} {s : State} (h : s.Numbered) : Keeps (execFlit port ok s) := Keeps.ite (next h.count) (next h)

theorem execDarlekPortLoss {port : Fin 2} {lanes : Fin 3} {s : State} (h : s.Numbered) : Keeps (execDarlekPortLoss port lanes s) :=
  Keeps.ite (next (ite h.setDlk.setBoot h.setDlk)) (next (logPkg (raise (ite (count (ite h.setDlk.setBoot h.setDlk)) (ite
    h.setDlk.setBoot h.setDlk)))))

theorem execDarlekLinkLoss {s : State} (h : s.Numbered) : Keeps (execDarlekLinkLoss s) := Keeps.ite (next h.deviceFault) (next h)

/-! ### Power -/

theorem execSetCap {q : QueueId} {d : Desc} {s : State} (h : s.Numbered) : Keeps (execSetCap q d s) :=
  next (issue h (fun _ _ h1 => ite h1.faultOp h1.setPower.done))

theorem execSetPowerGroup {q : QueueId} {d : Desc} {s : State} (h : s.Numbered) : Keeps (execSetPowerGroup q d s) :=
  next (issue h (fun _ _ h1 => ite h1.faultOp h1.setPower.done))

theorem setCeiling {s : State} {f : FnId} {level : Nat} (h : s.Numbered) : (s.setCeiling f level).Numbered :=
  foldl h fun _ _ h1 => h1.modCell

theorem capControl {s : State} (h : s.Numbered) : (s.capControl).Numbered :=
  ite h (when (setFresh (foldl h fun _ _ h1 => h1.setCeiling)) fun h3 => h3.wait)

theorem reclaim {s : State} {f : FnId} (h : s.Numbered) : (s.reclaim f).Numbered := foldl h fun _ _ h1 => ite h1 h1.setCeiling

theorem execTelemetryCalibration {power reserved : BitVec 12} {s : State} (h : s.Numbered) :
    Keeps (execTelemetryCalibration power reserved s) :=
  next h.setPower.capControl

theorem countLevel {s : State} {c : CoreId} {demand : Nat} (h : s.Numbered) : (s.countLevel c demand).Numbered := by
  unfold State.countLevel
  dsimp only
  split
  · exact ite (wait (when (ite (wait (wait (ite h.wait.wait h))) (ite h.wait.wait h)) fun h2 => h2.wait)) (when (ite (wait (wait (ite
      h.wait.wait h))) (ite h.wait.wait h)) fun h2 => h2.wait)
  · exact (ite (wait (wait (ite h.wait.wait h))) (ite h.wait.wait h))

theorem execGovernorStep {core : CoreId} {demand : Fin 17} {s : State} (h : s.Numbered) : Keeps (execGovernorStep core demand s) :=
  Keeps.ite (next h) (by
    split
    · exact Keeps.ite (next h.countLevel.modCell.reclaim) (next h.countLevel.modCell)
    · exact next h.countLevel.modCell)

theorem stopLinks {s : State} {die : Nat} (h : s.Numbered) : (s.stopLinks die).Numbered :=
  ite (setDlk (foldl h fun _ _ h1 => h1.setPort)) h

theorem stopEngines {s : State} {c : CoreId} (h : s.Numbered) : (s.stopEngines c).Numbered := h.cancelCore.discardCore.killAll

theorem trip {s : State} {die t : Nat} (h : s.Numbered) : (s.trip die t).Numbered :=
  deviceFault (stopLinks (foldl h.setDie.setBoot fun _ _ h1 => h1.stopEngines))

theorem startThrottle {s : State} {die t ceiling : Nat} (h : s.Numbered) : (s.startThrottle die t ceiling).Numbered := h.raise.logPkg

theorem readCompute {s : State} {die t : Nat} (h : s.Numbered) : (s.readCompute die t).Numbered :=
  ite (startThrottle (ite h.setDie.wait h.setDie)) (ite (logPkg (ite h.setDie.wait h.setDie)) (ite h.setDie.wait h.setDie))

theorem execDieSensorRead {die : Fin 10} {temp0 temp1 : Byte} {s : State} (h : s.Numbered) :
    Keeps (execDieSensorRead die temp0 temp1 s) :=
  Keeps.ite (next (trip (ite (readCompute (foldl h fun _ _ h1 => h1.modCell)) (setDie (foldl h fun _ _ h1 => h1.modCell))))) (next (ite
    (readCompute (foldl h fun _ _ h1 => h1.modCell)) (setDie (foldl h fun _ _ h1 => h1.modCell))))

theorem retireCore {s : State} {c : CoreId} {st : CellState} (h : s.Numbered) : (s.retireCore c st).Numbered := h.modCell

theorem planCore {s : State} {guard : Nat} {outlier : Option CoreId} {c : CoreId} (h : s.Numbered) :
    (s.planCore guard outlier c).Numbered := by
  unfold State.planCore
  dsimp only
  split
  · exact ite h.orderQuarantine (ite h.retireCore (ite h.retireCore h))
  · exact ite h.retireCore h
  · exact ite h.modCell h
  · exact h

theorem requestVolts {s : State} {d v : Nat} (h : s.Numbered) : (s.requestVolts d v).Numbered := h.draw.setDie

theorem plan {s : State} {d : Nat} (h : s.Numbered) : (s.plan d).Numbered :=
  requestVolts (raise (ite (raise (setPower (setDie (foldl (foldl h.storeRecord fun _ _ h1 => h1.storeRecord) fun _ _ h3 =>
    h3.planCore)))) (setPower (setDie (foldl (foldl h.storeRecord fun _ _ h1 => h1.storeRecord) fun _ _ h3 => h3.planCore)))))

theorem execMarginPlan {die : DieId} {s : State} (h : s.Numbered) : Keeps (execMarginPlan die s) := Keeps.ite (next h.plan) (next h)

theorem execAvsRetry {rail : DieId} {acked : Bool} {s : State} (h : s.Numbered) : Keeps (execAvsRetry rail acked s) :=
  Keeps.ite (next h.setDie) (next h)

theorem startPlan {s : State} {d : Nat} (h : s.Numbered) : (s.startPlan d).Numbered := h.setDie

theorem driftAlarm {s : State} {c : CoreId} (h : s.Numbered) : (s.driftAlarm c).Numbered := h.setDie.count.raise.logEvent.startPlan

theorem execAgeingMonitorRead {core : CoreId} {drift : Int} {leakage : BitVec 16} {s : State} (h : s.Numbered) :
    Keeps (execAgeingMonitorRead core drift leakage s) :=
  Keeps.ite (next h.modCell.driftAlarm) (next h.modCell)

theorem execActiveTest {core : CoreId} {vReq : Option Nat} {s : State} (h : s.Numbered) : Keeps (execActiveTest core vReq s) :=
  Keeps.ite (next h) (next h.setCell)

theorem execTestDue {core : CoreId} {overdue : Nat} {s : State} (h : s.Numbered) : Keeps (execTestDue core overdue s) := by
  unfold Machine.execTestDue
  split
  · exact next h
  · exact Keeps.ite (next h.modCell.raise.logEvent) (next h.modCell.raise)

theorem execCoreSelfTest {q : QueueId} {d : Desc} {pass : Bool} {s : State} (h : s.Numbered) : Keeps (execCoreSelfTest q d pass s) :=
  next (issue h (fun _ _ h1 => by
    split
    · exact h1.faultOp
    · exact ite h1.refuseOpen (ite h1.setCell.done h1.done)))

theorem execCoreScrub {core : CoreId} {clean : Bool} {s : State} (h : s.Numbered) : Keeps (execCoreScrub core clean s) :=
  Keeps.ite (next h) (Keeps.ite (next h.scrubEngines.scrubScratchpad.setCell) (Keeps.ite (next h.scrubEngines.scrubScratchpad) (next
    h.scrubEngines.scrubScratchpad.setCell.orderQuarantine)))

theorem execManagementOrderEffect {core : CoreId} {order : Order} {s : State} (h : s.Numbered) :
    Keeps (execManagementOrderEffect core order s) := by
  unfold Machine.execManagementOrderEffect
  dsimp only
  split
  · exact Keeps.ite (next h.stopEngines) (next h)
  · exact Keeps.ite (next h.quarantine.startPlan) (next h)
  · split
    · exact Keeps.ite (next h.cancelCore) (next h)
    · exact next h
  · exact Keeps.ite (next h.supersedeMove) (next h)
  · exact Keeps.ite (next h) (next h.setCell)
  · exact next h
  · exact next h
  · exact Keeps.ite (next h.setCell) (next h)

theorem mapOne {s : State} {c : CoreId} (h : s.Numbered) : (s.mapOne c).Numbered := by
  unfold State.mapOne
  dsimp only
  split
  · exact ite h (countMapChange (setCell (ite h.clearCore h)))
  · exact h

theorem finishMove {s : State} {c : CoreId} (h : s.Numbered) : (s.finishMove c).Numbered := by
  unfold State.finishMove
  dsimp only
  split
  · exact h
  · exact ite h h.copyCore.clearCore.modCell.setCell.countMapChange

theorem mapDone {s : State} {f : FnId} (h : s.Numbered) : (s.mapDone f).Numbered := by
  unfold State.mapDone
  split
  · exact h
  · dsimp only
    split
    · exact h.modFn.done
    · exact h.modFn

theorem cellMapNow {s : State} (h : s.Numbered) : (s.cellMapNow).Numbered :=
  foldl (refillCores (foldl (foldl (foldl (foldl h fun _ _ h1 => h1.finishMove) fun _ _ h2 => h2.replaceQuarantined) fun _ _ h4 =>
    h4.mapOne) fun _ _ h5 => h5.enterTaken)) fun _ _ h7 => h7.mapDone

theorem execCellMapChange {s : State} (h : s.Numbered) : Keeps (execCellMapChange s) := next h.cellMapNow

/-! ### Truss -/

theorem registerTruss {s : State} {r : OpRef} {ks : List (Nat × Nat)} (h : s.Numbered) : (s.registerTruss r ks).Numbered :=
  foldl h fun _ _ h1 => h1.modSlot

theorem trussIssue {s : State} {i : Instr} (h : s.Numbered) : (s.trussIssue i).Numbered :=
  issue h (fun _ _ h1 => ite h1.complete (ite h1.park (ite h1.fail h1.putOp.registerTruss)))

theorem execTrussSum {q : QueueId} {d : Desc} {s : State} (h : s.Numbered) : Keeps (execTrussSum q d s) := next h.trussIssue

theorem execTrussMax {q : QueueId} {d : Desc} {s : State} (h : s.Numbered) : Keeps (execTrussMax q d s) := next h.trussIssue

theorem execTrussMin {q : QueueId} {d : Desc} {s : State} (h : s.Numbered) : Keeps (execTrussMin q d s) := next h.trussIssue

theorem execMaxIdx {q : QueueId} {d : Desc} {s : State} (h : s.Numbered) : Keeps (execMaxIdx q d s) := next h.trussIssue

theorem execMinIdx {q : QueueId} {d : Desc} {s : State} (h : s.Numbered) : Keeps (execMinIdx q d s) := next h.trussIssue

theorem writeRootSlot {s : State} {c : CoreId} {o : Op} {leaves : List (Nat × List (List Op24))} {k : Nat} (h : s.Numbered) :
    (s.writeRootSlot c o leaves k).Numbered :=
  ite h.writeTile.writeAll h.writeTile

theorem trussRootWrite {s : State} {o : Op} (h : s.Numbered) : (s.trussRootWrite o).Numbered := by
  unfold State.trussRootWrite
  split
  · exact h.complete
  · exact foldl (putOp (foldl h fun _ _ h1 => h1.writeRootSlot)) fun _ _ h3 => h3.slotClosed.freeSlot.settle

theorem trussFail {s : State} {o : Op} {cause : Nat} (h : s.Numbered) : (s.trussFail o cause).Numbered := h.forgetTruss.fail.discard

theorem readLeaf {s : State} {o : Op} {leaf inst : Nat} (h : s.Numbered) : (s.readLeaf o leaf inst).Numbered :=
  putOp (foldl (foldl h fun _ _ h1 => ite h1.count.raise.logEvent h1) fun _ _ h3 => h3.modSlot)

theorem takeLeaf {s : State} {o : Op} {leaf inst : Nat} (h : s.Numbered) : (s.takeLeaf o leaf inst).Numbered :=
  ite h.readLeaf.trussRootWrite h.readLeaf

theorem leafCheck {s : State} {o : Op} {leaf inst : Nat} (h : s.Numbered) : (s.leafCheck o leaf inst).Numbered := by
  unfold State.leafCheck
  dsimp only
  split
  · exact h.readLeaf.count.trussFail.orderQuarantine
  · exact h.readLeaf.count.trussFail

theorem leafParity {s : State} {o : Op} (h : s.Numbered) : (s.leafParity o).Numbered :=
  ite (putOp (logEvent (by
    split
    · exact h.count
    · exact h))) h.trussFail

theorem execTrussLeafRead {q : QueueId} {opId : BitVec 16} {leaf : Fin 40} {err : RunErr} {s : State} (h : s.Numbered) :
    Keeps (execTrussLeafRead q opId leaf err s) := by
  unfold Machine.execTrussLeafRead
  split
  · exact next h
  · split
    · exact next h
    · exact Keeps.ite (next h) (Keeps.ite (next h.leafParity) (Keeps.ite (next h.leafCheck) (next h.takeLeaf)))

/-! ### Events -/

theorem tookSkip {s : State} {o : Op} (h : s.Numbered) : (s.tookSkip o).Numbered := h.setQueue.complete

theorem execBeatWait {q : QueueId} {d : Desc} {s : State} (h : s.Numbered) : Keeps (execBeatWait q d s) :=
  next (issue h (fun _ _ h1 => ite (ite h1.done h1) (ite h1.complete (ite h1.tookSkip h1))))

theorem modPlan {s : State} {f : FnId} {g : Plan → Plan} (h : s.Numbered) : (s.modPlan f g).Numbered := h.modFn

theorem settleHold {s : State} {f : FnId} {idx : Nat} (h : s.Numbered) : (s.settleHold f idx).Numbered := h.setBeat

theorem startEvent {s : State} {f : FnId} {idx kind : Nat} {act : BitVec 256 → State → State} (h : s.Numbered)
    (hact : ∀ y1 t, t.Numbered → (act y1 t).Numbered) :
    (s.startEvent f idx kind act).Numbered := by
  unfold State.startEvent
  split
  · exact h
  · split
    · exact h
    · exact ite (hact _ _ h.modPlan.settleHold) h

theorem releaseWait {s : State} {f : FnId} {e : BitVec 256} {event : Option Nat} (h : s.Numbered) :
    (s.releaseWait f e event).Numbered := by
  unfold State.releaseWait
  split
  · exact h
  · exact h.setQueue.done

theorem execReleaseEvent {f : FnId} {idx : Nat} {s : State} (h : s.Numbered) : Keeps (execReleaseEvent f idx s) :=
  next (startEvent h (fun _ _ h1 => h1.releaseWait))

theorem execCollectiveEvent {f : FnId} {idx : Nat} {s : State} (h : s.Numbered) : Keeps (execCollectiveEvent f idx s) :=
  next (startEvent h (fun _ _ h1 => h1.releaseWait))

theorem execMoveEvent {f : FnId} {idx : Nat} {s : State} (h : s.Numbered) : Keeps (execMoveEvent f idx s) :=
  next (startEvent h (fun _ _ h1 => h1.releaseWait))

theorem commitNow {s : State} {f : FnId} (h : s.Numbered) : (s.commitNow f).Numbered :=
  ite h (by
    dsimp only
    split
    · exact h.modStep.applyDecision
    · exact h.modStep.vote)

theorem execCommitEvent {f : FnId} {idx : Nat} {s : State} (h : s.Numbered) : Keeps (execCommitEvent f idx s) :=
  next (startEvent h (fun _ _ h1 => h1.commitNow))

theorem execPowerRamp {f : FnId} {idx : Nat} {s : State} (h : s.Numbered) : Keeps (execPowerRamp f idx s) :=
  next (startEvent h (fun _ _ h1 => h1.modFn))

theorem execShim {f : FnId} {idx : Nat} {s : State} (h : s.Numbered) : Keeps (execShim f idx s) :=
  next (startEvent h (fun _ _ h1 => h1.modFn))

theorem execResizeEvent {f : FnId} {idx : Nat} {s : State} (h : s.Numbered) : Keeps (execResizeEvent f idx s) :=
  next (startEvent h (fun _ _ h1 => h1.resizeNow))

theorem execCoreMove {f : FnId} {idx : Nat} {s : State} (h : s.Numbered) : Keeps (execCoreMove f idx s) :=
  next (startEvent h (fun _ _ h1 => by
    split
    · exact h1
    · exact h1.modCell))

theorem execPlannedMoveComplete {core : CoreId} {s : State} (h : s.Numbered) : Keeps (execPlannedMoveComplete core s) := by
  unfold Machine.execPlannedMoveComplete
  split
  · exact next h
  · exact next h.copyCore.modCell

theorem passDeadline {s : State} {f : FnId} {link : Nat} (h : s.Numbered) : (s.passDeadline f link).Numbered :=
  foldl (foldl h fun _ _ h1 => h1.endReduce.flush) fun _ _ h2 => h2.fail

theorem execDeadline {f : FnId} {idx : Nat} {s : State} (h : s.Numbered) : Keeps (execDeadline f idx s) := by
  unfold Machine.execDeadline
  split
  · exact next h
  · exact Keeps.ite (next h.modPlan.passDeadline) (next h)

/-! ### Beat -/

theorem modBeat {s : State} {g : Beat → Beat} (h : s.Numbered) : (s.modBeat g).Numbered := h.setBeat

theorem applyGrant {s : State} {first n cause : Nat} (h : s.Numbered) : (s.applyGrant first n cause).Numbered :=
  modBeat (foldl h.count fun _ _ h1 => h1.addReg)

theorem applyRefusal {s : State} {send : Nat} (h : s.Numbered) : (s.applyRefusal send).Numbered :=
  modBeat (foldl h.count.raise fun _ _ h1 => h1.modPlan)

theorem refuseHolds {s : State} {rs : List (BitVec 16 × Nat × Nat × Nat × Nat)} (h : s.Numbered) : (s.refuseHolds rs).Numbered :=
  foldl h fun _ _ h1 => ite h1.applyRefusal h1.sendDown

theorem mergeHolds {s : State} (h : s.Numbered) : (s.mergeHolds).Numbered :=
  ite h (ite h.modBeat.modBeat (ite h.modBeat.refuseHolds h.modBeat.sendDown.applyGrant))

theorem onHoldReq {s : State} {origin : BitVec 16} {k cause planBeat send : Nat} (h : s.Numbered) :
    (s.onHoldReq origin k cause planBeat send).Numbered :=
  h.modBeat

theorem askHold {s : State} {f : FnId} {w : Due} {k cause : Nat} (h : s.Numbered) : (s.askHold f w k cause).Numbered :=
  ite h.count.addReg.modPlan.modBeat.onHoldReq h.count.addReg.modPlan.modBeat.sendUpTree

theorem execHoldReq {msg : BitVec 256} {s : State} (h : s.Numbered) : Keeps (execHoldReq msg s) :=
  Keeps.ite (next h) (Keeps.ite (next h.count.onHoldReq) (next h.sendUpTree))

theorem fromGrant {s : State} {msg : BitVec 256} (h : s.Numbered) : (s.fromGrant msg).Numbered :=
  ite (ite h.sendDown.applyRefusal h.sendDown) h.sendDown.draw.applyGrant

theorem execHoldGrant {port : PortId} {msg : BitVec 256} {s : State} (h : s.Numbered) : Keeps (execHoldGrant port msg s) :=
  Keeps.ite (next h) (Keeps.ite (next h.took.fromGrant) (next h.took))

theorem askFor {s : State} {f : FnId} {p : Plan} {after : Bool} {w : Due} (h : s.Numbered) : (s.askFor f p after w).Numbered :=
  ite h (ite h.askHold (ite (by
    split
    · exact h
    · exact ite h.draw.askHold h.draw) h))

theorem askAll {s : State} {f : FnId} {after : Bool} (h : s.Numbered) : (s.askAll f after).Numbered := by
  unfold State.askAll
  split
  · exact h
  · exact foldl h fun _ _ h1 => h1.askFor

theorem skipWait {s : State} {f : FnId} {e : BitVec 256} (h : s.Numbered) : (s.skipWait f e).Numbered := by
  unfold State.skipWait
  dsimp only
  split
  · exact kill (ite h.setQueue h)
  · exact h.setQueue

theorem skipLate {s : State} {f : FnId} (h : s.Numbered) : (s.skipLate f).Numbered := by
  unfold State.skipLate
  split
  · exact h
  · exact foldl h.modPlan fun _ _ h1 => ite h1.skipWait h1

theorem endWaits {s : State} {f : FnId} (h : s.Numbered) : (s.endWaits f).Numbered := foldl h.setQueues fun _ _ h1 => ite h1.complete h1

theorem nextPlan {s : State} {f : FnId} (h : s.Numbered) : (s.nextPlan f).Numbered := by
  unfold State.nextPlan
  split
  · exact h.modFn
  · exact h.modFn.endWaits

theorem tickPlan {s : State} {f : FnId} (h : s.Numbered) : (s.tickPlan f).Numbered := by
  unfold State.tickPlan
  dsimp only
  split
  · exact h
  · exact ite h (modPlan (ite (ite h.nextPlan h.modPlan) (ite h.modPlan h)))

theorem endDeadlines {s : State} {f : FnId} (h : s.Numbered) : (s.endDeadlines f).Numbered := by
  unfold State.endDeadlines
  split
  · exact h
  · exact foldl h.modPlan fun _ _ h1 => h1.passDeadline

theorem refuseEpoch {s : State} (h : s.Numbered) : (s.refuseEpoch).Numbered := h.modBeat.pageError.sendHellos

theorem takeEpoch {s : State} {v : BitVec 64} (h : s.Numbered) : (s.takeEpoch v).Numbered := h.draw.modBeat.sendHellos

theorem nextNumber {s : State} (h : s.Numbered) : (s.nextNumber).Numbered := by
  unfold State.nextNumber
  dsimp only
  split
  · exact ite (ite h.modBeat.refuseEpoch h.takeEpoch) h.modBeat
  · exact h.modBeat

theorem onEpoch {s : State} {msg : BitVec 256} (h : s.Numbered) : (s.onEpoch msg).Numbered :=
  ite h.sendDown.refuseEpoch h.sendDown.modBeat

theorem execEpoch {port : PortId} {msg : BitVec 256} {s : State} (h : s.Numbered) : Keeps (execEpoch port msg s) :=
  Keeps.ite (next h) (Keeps.ite (next h.took.onEpoch) (next h.took))

theorem applyShift {s : State} (h : s.Numbered) : (s.applyShift).Numbered := by
  unfold State.applyShift
  split
  · exact h
  · exact ite h.setPower (ite h h.setPower.count)

theorem boundaryOrders {s : State} (h : s.Numbered) : s.boundaryOrders.Numbered := by
  unfold State.boundaryOrders
  extract_lets x t u v
  have hv : v.Numbered := foldl h.setPower.applyShift fun _ _ h1 => h1.setDie
  exact hv.cellMapNow.capControl

theorem endAtBeat {s : State} (h : s.Numbered) : (s.endAtBeat).Numbered := foldl h fun _ _ h1 => ite h1.done h1

theorem applyFallback {s : State} (h : s.Numbered) : (s.applyFallback).Numbered := ite h h.modBeat.setReg

theorem planEdge {s : State} {after : Bool} (h : s.Numbered) : (s.planEdge after).Numbered :=
  foldl (foldl (foldl h fun _ _ h1 => h1.tickPlan) fun _ _ h2 => h2.modFn) fun _ _ h4 => h4.skipLate.askAll

theorem execBeatEdge {s : State} (h : s.Numbered) : Keeps (execBeatEdge s) :=
  next (endAtBeat (boundaryOrders (keepOr (applyFallback (modBeat (nextNumber (ite h.mergeHolds (foldl h.mergeHolds fun _ _ h1 =>
    h1.endDeadlines))))) fun h4 => h4.planEdge)))

theorem followMaster {s : State} {master : Nat} (h : s.Numbered) : (s.followMaster master).Numbered :=
  ite h (foldl (foldl h.newMaster.modBeat fun _ _ h1 => h1.sendUpTree) fun _ _ h3 => ite h3.sendJobReg h3)

theorem syncEdge {s : State} {port : PortId} {msg : BitVec 256} {arrival : Nat} (h : s.Numbered) :
    (s.syncEdge port msg arrival).Numbered :=
  ite h h.modBeat

theorem forwardSync {s : State} {port : PortId} {msg : BitVec 256} (h : s.Numbered) : (s.forwardSync port msg).Numbered := h.draw.sendDown

theorem onSync {s : State} {port : PortId} {msg : BitVec 256} {arrival : Nat} (h : s.Numbered) :
    (s.onSync port msg arrival).Numbered :=
  modBeat (ite h.forwardSync.syncEdge h.forwardSync.syncEdge.followMaster)

theorem execSync {port : PortId} {msg : BitVec 256} {arrival : Nat} {s : State} (h : s.Numbered) :
    Keeps (execSync port msg arrival s) :=
  Keeps.ite (next h) (Keeps.ite (next (helloIfChanged h.took.onSync h.took)) (next h.took))

theorem repeatDecision {s : State} {x : Nat × Decision} (h : s.Numbered) : (s.repeatDecision x).Numbered := h.sendDown

theorem execSyncSend {departure : Nat} {s : State} (h : s.Numbered) : Keeps (execSyncSend departure s) :=
  Keeps.ite (next h) (next (modBeat (foldl h.sendDown fun _ _ h1 => h1.repeatDecision)))

theorem execHoldover {s : State} (h : s.Numbered) : Keeps (execHoldover s) := Keeps.ite (next h) (next h.enterHoldover)

theorem execBackupTakeover {s : State} (h : s.Numbered) : Keeps (execBackupTakeover s) :=
  Keeps.ite (next h) (next (sendHellos (foldl (foldl h.newMaster.modBeat.modBeat.rebuildTree.setJobs fun _ _ h2 => h2.broadcast)
    fun _ _ h3 => h3.draw.decideStep)))

theorem missPulse {s : State} (h : s.Numbered) : (s.missPulse).Numbered :=
  ite h.modBeat.count (ite h.modBeat.count.raise.logPkg.modBeat h.modBeat.count.raise.logPkg.enterHoldover)

theorem execCadInPulse {offset : Int} {s : State} (h : s.Numbered) : Keeps (execCadInPulse offset s) :=
  Keeps.ite (next h) (Keeps.ite (next h.missPulse) (Keeps.ite (next h.modBeat) (next h.missPulse)))

theorem execCadInMissing {s : State} (h : s.Numbered) : Keeps (execCadInMissing s) := Keeps.ite (next h.missPulse) (next h)

theorem execDelay {port : PortId} {sent received turnaround : Nat} {s : State} (h : s.Numbered) :
    Keeps (execDelay port sent received turnaround s) :=
  Keeps.ite (next h) (next h.setPort.took)

theorem execDelayRemeasure {port : PortId} {now : Nat} {s : State} (h : s.Numbered) : Keeps (execDelayRemeasure port now s) :=
  Keeps.ite (next h) (next h.sendOn)

/-! ### Hbm -/

theorem poisonBurst {s : State} {b : Nat} (h : s.Numbered) : (s.poisonBurst b).Numbered := ite h.setMem h.setMem.setPoison

theorem announceRetired {s : State} {stack page code d1 : Nat} {fs : List FnId} (h : s.Numbered) :
    (s.announceRetired stack page code d1 fs).Numbered :=
  ite h.storeRecord.raise.logPkg (foldl h.storeRecord.raise fun _ _ h1 => h1.logFn)

theorem retireRow {s : State} {stack page : Nat} (h : s.Numbered) : (s.retireRow stack page).Numbered :=
  ite h (ite h.setScrubs.setPage.announceRetired (ite h h.setPage))

theorem execRowRepair {addr : BitVec 44} {failed : List (Fin 16)} {s : State} (h : s.Numbered) : Keeps (execRowRepair addr failed s) := by
  unfold Machine.execRowRepair
  dsimp only
  split
  · exact Keeps.ite (next h) (by
      split
      · exact next (logPkg (storeRecord (setStack (foldl h fun _ _ h1 => h1.poisonBurst))))
      · exact next (retireRow (foldl h fun _ _ h1 => h1.poisonBurst)))
  · exact next h

theorem copyPage {s : State} {old new : Nat} (h : s.Numbered) : (s.copyPage old new).Numbered := h.write.setPoison

theorem remapLayers {s : State} {frame old new : Nat} (h : s.Numbered) : (s.remapLayers frame old new).Numbered :=
  ite h (foldl h fun _ _ h1 => ite h1.writeNat h1)

theorem execPageReplacement {page : Nat} {s : State} (h : s.Numbered) : Keeps (execPageReplacement page s) := by
  unfold Machine.execPageReplacement
  dsimp only
  split
  · exact next h
  · exact Keeps.ite (next h) (by
      split
      · exact next (announceRetired (ite (remapLayers (setPage (setPage (copyPage (foldl h fun _ _ h1 => h1.failHeld))))) (setPage
          (setPage (copyPage (foldl h fun _ _ h1 => h1.failHeld))))))
      · exact next (announceRetired (count (setPage (foldl h fun _ _ h1 => h1.failHeld)))))

theorem trained {s : State} {st : Nat} {rate : BitVec 2} {spared : Nat} (h : s.Numbered) : (s.trained st rate spared).Numbered :=
  ite h.setStack.logPkg (ite h.setStack.logPkg h.setStack)

theorem execRetrainStack {q : QueueId} {d : Desc} {rate : BitVec 2} {spared : Nat} {s : State} (h : s.Numbered) :
    Keeps (execRetrainStack q d rate spared s) :=
  next (issue h (fun _ _ h1 => ite h1.faultOp (ite h1.faultOp h1.trained.done)))

theorem sweepResult {s : State} {st : Nat} {width height : Byte} (h : s.Numbered) : (s.sweepResult st width height).Numbered :=
  h.setReg.raise

theorem execMarginSweep {q : QueueId} {d : Desc} {width height : Byte} {rate : BitVec 2} {spared : Nat} {s : State} (h : s.Numbered) :
    Keeps (execMarginSweep q d width height rate spared s) :=
  next (issue h (fun _ _ h1 => ite h1.faultOp (ite h1.faultOp h1.sweepResult.trained.done)))

theorem execStackTemperatureRead {stack : StackId} {temp : Byte} {s : State} (h : s.Numbered) :
    Keeps (execStackTemperatureRead stack temp s) :=
  Keeps.ite (next (deviceFault (setBoot (ite (logPkg (raise (ite h.setStack.wait h.setStack))) (ite h.setStack.wait h.setStack))))) (next
    (ite (logPkg (raise (ite h.setStack.wait h.setStack))) (ite h.setStack.wait h.setStack)))

/-! ### Contexts -/

theorem ctxIssue {s : State} {i : Instr} {states : List Nat} {k : Op → State → State} (h : s.Numbered) (hk : ∀ y1 t, t.Numbered →
    (k y1 t).Numbered) :
    (s.ctxIssue i states k).Numbered :=
  issue h (fun _ _ h1 => ite h1.faultOp (ite h1.faultOp (hk _ _ h1)))

theorem ctxState {s : State} {c st : Nat} (h : s.Numbered) : (s.ctxState c st).Numbered := h.setCtx

theorem freeMortises {s : State} {ctx : Nat} (h : s.Numbered) : (s.freeMortises ctx).Numbered := h.setFrames

theorem bindMortises {s : State} {frame ctx : Nat} {cs : List Claim} (h : s.Numbered) : (s.bindMortises frame ctx cs).Numbered :=
  h.setFrame

theorem countRefusal {s : State} {cause : Nat} (h : s.Numbered) : (s.countRefusal cause).Numbered := ite h.count h

theorem execConfigureContext {q : QueueId} {d : Desc} {s : State} (h : s.Numbered) : Keeps (execConfigureContext q d s) :=
  next (issue h (fun _ _ h1 => ite h1.countRefusal.faultOp h1.freeMortises.bindMortises.setCtx.done))

theorem execActivate {q : QueueId} {d : Desc} {s : State} (h : s.Numbered) : Keeps (execActivate q d s) :=
  next (ctxIssue h (fun _ _ h1 => h1.ctxState.done))

theorem execBeginTraining {q : QueueId} {d : Desc} {s : State} (h : s.Numbered) : Keeps (execBeginTraining q d s) :=
  next (ctxIssue h (fun _ _ h1 => ite h1.faultOp h1.ctxState.done))

theorem execEndTraining {q : QueueId} {d : Desc} {s : State} (h : s.Numbered) : Keeps (execEndTraining q d s) :=
  next (ctxIssue h (fun _ _ h1 => ite h1.modStep.done h1.ctxState.done))

theorem execRelocate {q : QueueId} {d : Desc} {s : State} (h : s.Numbered) : Keeps (execRelocate q d s) :=
  next (ctxIssue h (fun _ _ h1 => ite h1.faultOp h1.setCtx.done))

theorem execPromote {q : QueueId} {d : Desc} {s : State} (h : s.Numbered) : Keeps (execPromote q d s) :=
  next (ctxIssue h (fun _ _ h1 => ite h1.faultOp (ite h1.faultOp (ite h1.wait.park (done (foldl h1 fun _ _ h2 => h2.installSlice))))))

theorem execProbeCheck {q : QueueId} {d : Desc} {s : State} (h : s.Numbered) : Keeps (execProbeCheck q d s) :=
  next (ctxIssue h (fun _ _ h1 => ite h1.faultOp (ite h1.faultOp (by
    split
    · exact h1.complete
    · split
      · exact h1.setCtx.done
      · exact h1.ctxState.count.raise.complete))))

theorem execReleaseContext {q : QueueId} {d : Desc} {s : State} (h : s.Numbered) : Keeps (execReleaseContext q d s) :=
  next (ctxIssue h (fun _ _ h1 => h1.ctxState.done))

theorem execContextScrub {ctx : BitVec 16} {clean : Bool} {s : State} (h : s.Numbered) : Keeps (execContextScrub ctx clean s) :=
  Keeps.ite (next h) (Keeps.ite (next h.freeMortises.setFns.mapWatch.setCtx) (next h.freeMortises.setFns.mapWatch.setCtx.deviceFault))

theorem execReadContext {q : QueueId} {d : Desc} {s : State} (h : s.Numbered) : Keeps (execReadContext q d s) :=
  next (issue h (fun _ _ h1 => ite h1.faultOp (deliver h1 (fun _ h2 => h2.done))))

/-! ### Images -/

theorem writeImage {s : State} {f : FnId} {z : FreezeState} (h : s.Numbered) : (s.writeImage f z).Numbered := h.setFresh.write

theorem withdrawSave {s : State} {f : FnId} (h : s.Numbered) : (s.withdrawSave f).Numbered := by
  unfold State.withdrawSave
  split
  · exact h
  · exact h.modJob.modOp.setParked

theorem startFreeze {s : State} {o : Op} {f : FnId} (h : s.Numbered) : (s.startFreeze o f).Numbered :=
  write (withdrawSave (ite h.modFn.raiseFn.vote h.modFn.raiseFn))

theorem finishFreeze {s : State} {o : Op} {f : FnId} {z : FreezeState} (h : s.Numbered) : (s.finishFreeze o f z).Numbered :=
  done (writeImage (modFn (setHeldOps (foldl h fun _ _ h1 => h1.discardCore))))

theorem execFreeze {q : QueueId} {d : Desc} {s : State} (h : s.Numbered) : Keeps (execFreeze q d s) :=
  next (issue h (fun _ _ h1 => ite h1.faultOp (by
    dsimp only
    split
    · exact done (ite h1 h1.startFreeze)
    · exact ite (park (ite h1 h1.startFreeze)) (finishFreeze (ite h1 h1.startFreeze)))))

theorem execThaw {q : QueueId} {d : Desc} {s : State} (h : s.Numbered) : Keeps (execThaw q d s) :=
  next (issue h (fun _ _ h1 => ite h1.faultOp (ite h1.faultOp h1.modFn.done)))

theorem putBanks {s : State} {c : CoreId} {st : Nat} {bs : List Byte} (h : s.Numbered) : (s.putBanks c st bs).Numbered :=
  h.modMe.modMe.setTe

theorem putCtxs {s : State} {first : Nat} {bs : List Byte} (h : s.Numbered) : (s.putCtxs first bs).Numbered :=
  foldl h fun _ _ h1 => ite h1.setCtx.bindMortises h1.setCtx

theorem putPart {s : State} {f : FnId} {cb : List Byte} {own : Bool} {p : Part2} (h : s.Numbered) : (s.putPart f cb own p).Numbered := by
  unfold State.putPart
  dsimp only
  split
  · split
    · exact h.write
    · exact h
  · split
    · exact h.putBanks
    · exact h
  · exact h.write
  · exact h.putCtxs
  · exact write (ite h h.mapPages)
  · exact h

theorem putQueue {s : State} {f : FnId} {v : Nat} {withdrawn : List Desc} (h : s.Numbered) : (s.putQueue f v withdrawn).Numbered :=
  foldl h.setQueue fun _ _ h1 => h1.addOp rfl

theorem putQueues {s : State} {f : FnId} {cb : List Byte} {vs : List Nat} {off : Nat} (h : s.Numbered) :
    (s.putQueues f cb vs off).Numbered := by
  induction vs generalizing s off with
  | nil => exact h
  | cons v vs ih => exact ih h.putQueue

theorem putModes {s : State} {f : FnId} {cb : List Byte} (h : s.Numbered) : (s.putModes f cb).Numbered :=
  foldl h fun _ _ h1 => ite h1.setPartMode h1

theorem takeBack {s : State} {f : FnId} {r : BitVec 4096} {own : Bool} {key : Option Nat} (h : s.Numbered) :
    (s.takeBack f r own key).Numbered :=
  modSec (ite (h.of_sublist (List.filter_sublist.map _) rfl) h.create)

theorem restoreFn {s : State} {f : FnId} {h : Nat} {ps : List Part2} {own : Bool} {key : Option Nat} {resume : Nat} (hs : s.Numbered) :
    (s.restoreFn f h ps own key resume).Numbered :=
  foldl (putQueues (ite (sendHellos (sendJobReg (modJob (foldl hs.takeBack.putModes.modFn.modSec fun _ _ h1 => h1.putPart)))) (modJob
    (foldl hs.takeBack.putModes.modFn.modSec fun _ _ h1 => h1.putPart)))) fun _ _ h4 => h4.seeTail

theorem execRestore {q : QueueId} {d : Desc} {s : State} (h : s.Numbered) : Keeps (execRestore q d s) :=
  next (issue h (fun _ _ h1 => ite h1.faultOp (ite h1.faultOp (ite h1.faultOp (by
    split
    · exact h1.complete
    · exact ite h1.restoreFn.done h1.restoreFn.awaitMap)))))

/-! ### Security -/

theorem writeReport {s : State} {i : Instr} {o : Op} {c : CoreId} (h : s.Numbered) : (s.writeReport i o c).Numbered :=
  deliver h.draw.draw.draw (fun _ h1 => done (by
    split
    · exact h1.count.modSec
    · exact h1.count))

theorem execReport {q : QueueId} {d : Desc} {s : State} (h : s.Numbered) : Keeps (execReport q d s) :=
  next (issue h (fun _ _ h1 => by
    split
    · exact h1.complete
    · exact ite h1.faultOp (ite h1.faultOp h1.writeReport)))

theorem endSession {s : State} {f : FnId} (h : s.Numbered) : (s.endSession f).Numbered := h.modSec

theorem execChannelOpen {q : QueueId} {d : Desc} {s : State} (h : s.Numbered) : Keeps (execChannelOpen q d s) :=
  next (issue h (fun _ _ h1 => ite h1.faultOp (by
    split
    · exact h1.faultOp
    · exact ite h1.faultOp h1.modSec.done)))

theorem endSweep {s : State} {f : FnId} (h : s.Numbered) : (s.endSweep f).Numbered := ite h.setCtxs.modSec.raise h

theorem rotate {s : State} {f : FnId} {key : Nat} (h : s.Numbered) : (s.rotate f key).Numbered := h.modSec.endSweep

theorem execKeySweepPage {page : Nat} {s : State} (h : s.Numbered) : Keeps (execKeySweepPage page s) :=
  Keeps.ite (next h) (Keeps.ite (next h.setPage) (next h.setPage.endSweep))

theorem execRotateKey {q : QueueId} {d : Desc} {s : State} (h : s.Numbered) : Keeps (execRotateKey q d s) :=
  next (issue h (fun _ _ h1 => ite h1.faultOp h1.draw.rotate.done))

theorem takeMemKey {s : State} {f : FnId} {key : Nat} (h : s.Numbered) : (s.takeMemKey f key).2.Numbered := ite_snd h h.rotate

theorem takeImageKey {s : State} {f : FnId} {key : Nat} (h : s.Numbered) : (s.takeImageKey f key).Numbered := h.modSec

theorem takeLinkKey {s : State} {f : FnId} {job activation key : Nat} (h : s.Numbered) :
    (s.takeLinkKey f job activation key).2.2.Numbered := by
  unfold State.takeLinkKey
  split
  · exact h
  · exact h.setLink

theorem takeLinkDrop {s : State} {f : FnId} {job slot : Nat} (h : s.Numbered) : (s.takeLinkDrop f job slot).2.Numbered :=
  ite_snd h h.setLink

theorem takeConfidential {s : State} {f : FnId} (h : s.Numbered) : (s.takeConfidential f).2.Numbered := ite_snd h h.modSec

theorem takeBody {s t : State} {f : FnId} {body : List Byte} {cause slot : Nat} (h : s.Numbered)
    (ht : s.takeBody f body = some (cause, slot, t)) : t.Numbered := by
  have of_some {r : Nat × Nat × State} (hr : r.2.2.Numbered) (hsome : some r = some (cause, slot, t)) : t.Numbered := by
    cases hsome
    exact hr
  unfold State.takeBody at ht
  dsimp only at ht
  split at ht
  · cases ht
  · split at ht
    · split at ht
      · cases ht
      · exact of_some h.takeMemKey ht
    · exact of_some h.takeImageKey ht
    · exact of_some h.takeLinkKey ht
    · exact of_some h.takeLinkDrop ht
    · exact of_some h.takeConfidential ht
    · exact of_some h.endSession ht
    · cases ht

theorem refuseChannel {s : State} {o : Op} {f : FnId} {id : Nat} (h : s.Numbered) : (s.refuseChannel o f id).Numbered :=
  h.endSession.count.raise.logPkg.faultOp

theorem takeMessage {s : State} {o : Op} {f : FnId} {z : Session} {bs : List Byte} (h : s.Numbered) :
    (s.takeMessage o f z bs).Numbered := by
  unfold State.takeMessage
  split
  · exact h.refuseChannel
  · dsimp only
    split
    · exact h.modSec.refuseChannel
    · rename_i hbody
      have ht := h.modSec.takeBody hbody
      exact ite ht.ctlWrite.done ht.ctlWrite.faultOp

theorem execChannelMessage {q : QueueId} {d : Desc} {s : State} (h : s.Numbered) : Keeps (execChannelMessage q d s) :=
  next (issue h (fun _ _ h1 => ite h1.faultOp (ite h1.faultOp (by
    split
    · exact h1.refuseChannel
    · exact h1.takeMessage))))

theorem execMemKey {f : FnId} {key : BitVec 512} {s : State} (h : s.Numbered) : Keeps (execMemKey f key s) :=
  Keeps.ite (next h.takeMemKey) (next h)

theorem execImageKey {f : FnId} {key : BitVec 256} {s : State} (h : s.Numbered) : Keeps (execImageKey f key s) :=
  Keeps.ite (next h.takeImageKey) (next h)

theorem execLinkKey {f : FnId} {job : Word} {activation : BitVec 64} {key : BitVec 256} {s : State} (h : s.Numbered) :
    Keeps (execLinkKey f job activation key s) := by
  unfold Machine.execLinkKey
  split
  · exact next h.takeLinkKey
  · exact next h

theorem execLinkDrop {f : FnId} {job : Word} {slot : Fin 4} {s : State} (h : s.Numbered) : Keeps (execLinkDrop f job slot s) :=
  Keeps.ite (next h.takeLinkDrop) (next h)

theorem execConfidential {f : FnId} {s : State} (h : s.Numbered) : Keeps (execConfidential f s) :=
  Keeps.ite (next h.takeConfidential) (next h)

theorem execCloseSession {f : FnId} {s : State} (h : s.Numbered) : Keeps (execCloseSession f s) := Keeps.ite (next h.endSession) (next h)

theorem execSessionExpiry {f : FnId} {s : State} (h : s.Numbered) : Keeps (execSessionExpiry f s) := by
  unfold Machine.execSessionExpiry
  split
  · exact Keeps.ite (next h.endSession) (next h)
  · exact next h

theorem execGetCertificates {q : QueueId} {d : Desc} {s : State} (h : s.Numbered) : Keeps (execGetCertificates q d s) :=
  next (issue h (fun _ _ h1 => deliver h1 (fun _ h2 => h2.done)))

theorem execMeasureRegion {q : QueueId} {d : Desc} {s : State} (h : s.Numbered) : Keeps (execMeasureRegion q d s) :=
  next (issue h (fun _ _ h1 => ite h1.faultOp (ite h1.complete (ite h1.refuseOpen h1.modSec.done))))

theorem execUnmeasure {q : QueueId} {d : Desc} {s : State} (h : s.Numbered) : Keeps (execUnmeasure q d s) :=
  next (issue h (fun _ _ h1 => h1.modSec.done))

/-! ### Boot -/

theorem restart {s : State} {source : Nat} (_h : s.Numbered) : (s.restart source).Numbered := reset

theorem bootRom {s : State} {lanes0 lanes1 : Fin 3} (h : s.Numbered) : (s.bootRom lanes0 lanes1).Numbered := h.setBoot

theorem execPowerOnReset {lanes0 lanes1 : Fin 3} {straps : BitVec 2} {s : State} (h : s.Numbered) :
    Keeps (execPowerOnReset lanes0 lanes1 straps s) :=
  next h.restart.setBoot.bootRom

theorem execRailLoss {_rail : Fin 19} {s : State} (h : s.Numbered) : Keeps (execRailLoss _rail s) := next h.restart.setBoot

theorem execDevRstN {lanes0 lanes1 : Fin 3} {s : State} (h : s.Numbered) : Keeps (execDevRstN lanes0 lanes1 s) :=
  Keeps.ite (next h) (next h.restart.setBoot.bootRom)

theorem ignoreBootCtrl {s : State} (h : s.Numbered) : (s.ignoreBootCtrl).Numbered := ite h.pageError h

theorem execWarm {key : Byte} {lanes0 lanes1 : Fin 3} {s : State} (h : s.Numbered) : Keeps (execWarm key lanes0 lanes1 s) :=
  Keeps.ite (next h.ignoreBootCtrl) (next h.restart.setLogLogNextRegs.bootRom)

theorem bootFail {s : State} {cause : Nat} (h : s.Numbered) : (s.bootFail cause).Numbered := h.setBoot.raise

theorem startDies {s : State} {env : BootEnv} (h : s.Numbered) : (s.startDies env).Numbered :=
  ite h.logPkg.setBoot h.logPkg.setBoot.logPkg.raise

theorem trainStacks {s : State} {env : BootEnv} (h : s.Numbered) : (s.trainStacks env).Numbered := foldl h fun _ _ h1 => h1.trained

theorem testSram {s : State} {env : BootEnv} (h : s.Numbered) : (s.testSram env).Numbered :=
  foldl (foldl h fun _ _ h1 => h1.modCell) fun _ _ h2 => h2.setPart

theorem bootCells {s : State} {env : BootEnv} (h : s.Numbered) : (s.bootCells env).Numbered := foldl h fun _ _ h1 => h1.modCell

theorem fillService {s : State} (h : s.Numbered) : (s.fillService).Numbered := foldl h fun _ _ h1 => h1.modCell

theorem bootRepairs {s : State} {st : Nat} (h : s.Numbered) : (s.bootRepairs st).Numbered :=
  foldl h fun _ _ h1 => ite h1.setPage h1.setStack

theorem bootPlan {s : State} {d : Nat} (h : s.Numbered) : (s.bootPlan d).Numbered := setDie (foldl h.setDie.plan fun _ _ h1 => h1.mapOne)

theorem bootCellMap {s : State} {env : BootEnv} (h : s.Numbered) : (s.bootCellMap env).Numbered :=
  foldl (keepOr (foldl h.setPower.bootCells.fillService fun _ _ h1 => h1.bootRepairs) fun h3 => h3.storeCellMap) fun _ _ h4 => h4.bootPlan

theorem bootFabric {s : State} {env : BootEnv} (h : s.Numbered) : (s.bootFabric env).Numbered :=
  foldl h.setBoot fun _ _ h1 => ite h1.setPort h1

theorem bootReady {s : State} {h : Nat} {env : BootEnv} (hs : s.Numbered) : (s.bootReady h env).Numbered := hs.setBoot.raise

theorem retryBoot {s : State} (h : s.Numbered) : (s.retryBoot).Numbered := h.setDirCellsDiesHbmsPartsPower

theorem bootSteps {s : State} {h : Nat} {env : BootEnv} (hs : s.Numbered) : (s.bootSteps h env).Numbered :=
  ite hs.retryBoot.bootFail (ite (bootFail hs.retryBoot.startDies.trainStacks.testSram) (ite (bootFail
    hs.retryBoot.startDies.trainStacks.testSram) (ite (bootFail (bootCellMap hs.retryBoot.startDies.trainStacks.testSram)) (bootReady
    (bootFabric (bootCellMap hs.retryBoot.startDies.trainStacks.testSram))))))

theorem execGo {env : BootEnv} {s : State} (h : s.Numbered) : Keeps (execGo env s) :=
  Keeps.ite (next h.ignoreBootCtrl) (Keeps.ite (next h.bootFail) (next h.setBoot.bootSteps))

theorem execRefclkStop {clock : Fin 4} {s : State} (h : s.Numbered) : Keeps (execRefclkStop clock s) :=
  Keeps.ite (Keeps.ite (next h.setBoot.setDlk.count.raise.logPkg) (next h.setBoot.setDlk)) (next (foldl h.setBoot fun _ _ h1 => ite
    h1.loseLink h1.setPort))

theorem execRefclkReturn {clock : Fin 4} {s : State} (h : s.Numbered) : Keeps (execRefclkReturn clock s) :=
  Keeps.ite (next (ite h.setBoot.setDlk h.setBoot)) (next (foldl h.setBoot fun _ _ h1 => ite h1.setPort h1))

theorem execPkcFailure {s : State} (h : s.Numbered) : Keeps (execPkcFailure s) := Keeps.ite (next h) (next h.setBoot.deviceFault)

/-! ### Registers -/

theorem clearRc {s : State} {w : Window} {off : Nat} (h : s.Numbered) : (s.clearRc w off).Numbered := by
  unfold State.clearRc
  split
  · exact h
  · exact ite h.setReg h

theorem snap {s : State} {w : Window} {off : Nat} (h : s.Numbered) : (s.snap w off).Numbered := by
  unfold State.snap
  dsimp only
  split
  · exact ite h.setSnapshots h.setSnapshots
  · exact h

theorem read32 {s : State} {w : Window} {off : Nat} (h : s.Numbered) : (s.read32 w off).Numbered := h.snap.clearRc.setRdDataFresh

theorem execRcRead {w : Window} {off : BitVec 26} {s : State} (h : s.Numbered) : Keeps (execRcRead w off s) := next h.read32

theorem execLowWordRead {w : Window} {off : BitVec 26} {s : State} (h : s.Numbered) : Keeps (execLowWordRead w off s) := next h.read32

theorem refuseAccess {s : State} {w : Window} {off code : Nat} (h : s.Numbered) : (s.refuseAccess w off code).Numbered := by
  unfold State.refuseAccess
  split
  · exact h.pageError
  · exact h.pageError

theorem ignoreWrite {s : State} {w : Window} {off : Nat} (h : s.Numbered) : (s.ignoreWrite w off).Numbered := h.refuseAccess

theorem rwWrite {s : State} {w : Window} {off : Nat} {go : State → State} (h : s.Numbered) (hgo : ∀ t, t.Numbered → (go t).Numbered) :
    (s.rwWrite w off go).Numbered :=
  ite h (ite h.refuseAccess (hgo _ h))

theorem actWrite {s : State} {w : Window} {off : Nat} {go : State → State} (h : s.Numbered) (hgo : ∀ t, t.Numbered → (go t).Numbered) :
    (s.actWrite w off go).Numbered :=
  ite h (hgo _ h)

theorem clearErrors {s : State} {w : Window} {off : Nat} (h : s.Numbered) : (s.clearErrors w off).Numbered :=
  foldl h fun _ _ h1 => h1.setReg

theorem clearIrq {s : State} {w : Window} {off v : Nat} (h : s.Numbered) : (s.clearIrq w off v).Numbered := by
  unfold State.clearIrq
  split
  · exact h
  · exact ite h h.setReg

theorem setLock {s : State} {w : Window} {off v : Nat} (h : s.Numbered) : (s.setLock w off v).Numbered := ite h.setReg h

theorem execErrClear {w : Window} {off : BitVec 26} {s : State} (h : s.Numbered) : Keeps (execErrClear w off s) :=
  next (actWrite h (fun _ h1 => h1.clearErrors))

theorem execIrqStatWrite {w : Window} {off : BitVec 26} {v : Word} {s : State} (h : s.Numbered) : Keeps (execIrqStatWrite w off v s) :=
  next (actWrite h (fun _ h1 => h1.clearIrq))

theorem execLock {w : Window} {off : BitVec 26} {v : Word} {s : State} (h : s.Numbered) : Keeps (execLock w off v s) :=
  next (actWrite h (fun _ h1 => h1.setLock))

theorem applyQueue {s : State} (h : s.Numbered) : (s.applyQueue).Numbered := ite h.setReg h.takeQueue.setReg

theorem execApply {s : State} (h : s.Numbered) : Keeps (execApply s) := next (actWrite h (fun _ h1 => h1.applyQueue))

theorem writeChipId {s : State} {v : Nat} (h : s.Numbered) : (s.writeChipId v).Numbered := ite h.ignoreWrite h.setReg.elect.sendHellos

theorem execChipIdWrite {v : Word} {s : State} (h : s.Numbered) : Keeps (execChipIdWrite v s) :=
  next (rwWrite h (fun _ h1 => h1.writeChipId))

theorem orderFromPage {s : State} {v : Nat} (h : s.Numbered) : (s.orderFromPage v).Numbered :=
  ite h (by
    split
    · exact h.ignoreWrite
    · exact ite h.ignoreWrite h.orderQuarantine)

theorem execCmapOrder {v : Word} {s : State} (h : s.Numbered) : Keeps (execCmapOrder v s) :=
  next (actWrite h (fun _ h1 => h1.orderFromPage))

theorem writeBeatCfg {s : State} {v : Nat} (h : s.Numbered) : (s.writeBeatCfg v).Numbered :=
  ite h.ignoreWrite (helloIfChanged h.setReg.modBeat.elect h)

theorem execBeatCfgWrite {v : Word} {s : State} (h : s.Numbered) : Keeps (execBeatCfgWrite v s) :=
  next (rwWrite h (fun _ h1 => h1.writeBeatCfg))

theorem stageLow {s : State} {off v : Nat} (h : s.Numbered) : (s.stageLow off v).Numbered := h.setReg.setReg

theorem setPair {s : State} {lowOff low high : Nat} (h : s.Numbered) : (s.setPair lowOff low high).Numbered :=
  h.setReg.setReg.setReg.setReg

theorem armEpoch {s : State} {high : Nat} (h : s.Numbered) : (s.armEpoch high).Numbered := ite h.ignoreWrite h.setPair.modBeat

theorem execEpochEdgeWrite {v : Word} {s : State} (h : s.Numbered) : Keeps (execEpochEdgeWrite v s) :=
  next (rwWrite h (fun _ h1 => h1.armEpoch))

theorem writeMasterId {s : State} {v : Nat} (h : s.Numbered) : (s.writeMasterId v).Numbered := helloIfChanged h.setReg.elect h

theorem writeHoldLimit {s : State} {v : Nat} (h : s.Numbered) : (s.writeHoldLimit v).Numbered := ite h.ignoreWrite h.setReg

theorem writePlanCtrl {s : State} {v : Nat} (h : s.Numbered) : (s.writePlanCtrl v).Numbered :=
  ite (foldl h.setReg fun _ _ h1 => h1.startPlan) h.setReg

theorem execPlanCtrlStart {v : Word} {s : State} (h : s.Numbered) : Keeps (execPlanCtrlStart v s) :=
  next (rwWrite h (fun _ h1 => h1.writePlanCtrl))

theorem writeGovCfg {s : State} {v : Nat} (h : s.Numbered) : (s.writeGovCfg v).Numbered := ite h.ignoreWrite h.setReg

theorem execGovCfgWrite {v : Word} {s : State} (h : s.Numbered) : Keeps (execGovCfgWrite v s) :=
  next (rwWrite h (fun _ h1 => h1.writeGovCfg))

theorem writeMarginCtrl {s : State} {st v : Nat} (h : s.Numbered) : (s.writeMarginCtrl st v).Numbered := h.setReg

theorem sweepFromPage {s : State} {st v : Nat} {width height : Byte} (h : s.Numbered) : (s.sweepFromPage st v width height).Numbered :=
  ite h.writeMarginCtrl (ite h.ignoreWrite h.writeMarginCtrl.sweepResult.trained)

theorem execMarginCtrlStart {stack : StackId} {v : Word} {width height : Byte} {s : State} (h : s.Numbered) :
    Keeps (execMarginCtrlStart stack v width height s) :=
  next (rwWrite h (fun _ h1 => h1.sweepFromPage))

theorem writePortCfg {s : State} {p v : Nat} (h : s.Numbered) : (s.writePortCfg p v).Numbered :=
  ite h (ite h.ignoreWrite (sendHellos (ite h.setReg.dropLink.setPort h.setReg)))

theorem retrainPort {s : State} {p : Nat} (h : s.Numbered) : (s.retrainPort p).Numbered := ite h (ite h.dropLink h.setPort)

theorem execPortRetrain {port : PortId} {v : Word} {s : State} (h : s.Numbered) : Keeps (execPortRetrain port v s) :=
  next (rwWrite h (fun _ h1 => ite h1.writePortCfg.retrainPort h1.writePortCfg))

theorem dropEntry {s : State} {e : LogEntry} (h : s.Numbered) : (s.dropEntry e).Numbered :=
  foldl h fun _ _ h1 => ite h1.addReg.raiseLog h1

theorem writeRdSeq {s : State} {w : Window} {v : Nat} (h : s.Numbered) : (s.writeRdSeq w v).Numbered :=
  ite h.setReg (setLog (foldl h.setReg fun _ _ h1 => h1.dropEntry))

theorem execRdSeqWrite {w : Window} {v : Word} {s : State} (h : s.Numbered) : Keeps (execRdSeqWrite w v s) :=
  next (rwWrite h (fun _ h1 => h1.writeRdSeq))

theorem writeBlock {s : State} {k : PageKind} {i off v : Nat} (h : s.Numbered) : (s.writeBlock k i off v).Numbered := by
  unfold State.writeBlock
  dsimp only
  split
  · exact h.writeChipId
  · exact h.setPair
  · exact h.writeBeatCfg
  · exact h.writeMasterId
  · exact h.writeHoldLimit
  · exact h.setPair
  · exact h.armEpoch
  · exact h.writeGovCfg
  · exact h.writePlanCtrl
  · exact ite h.writePortCfg.retrainPort h.writePortCfg
  · exact h.writeRdSeq
  · exact ite h.stageLow (by
      split
      · exact h.setReg
      · exact h)

theorem writeRw {s : State} {w : Window} {k : PageKind} {i off v : Nat} (h : s.Numbered) : (s.writeRw w k i off v).Numbered :=
  ite h.setReg (by
    split
    · exact h.writeBlock
    · exact h.writeRdSeq)

theorem writeAction {s : State} {w : Window} {k : PageKind} {off v : Nat} (h : s.Numbered) : (s.writeAction w k off v).Numbered := by
  unfold State.writeAction
  split
  · exact ite h.clearErrors h
  · exact h.clearIrq
  · exact h.setLock
  · exact ite h.applyQueue h
  · exact h.orderFromPage
  · exact h

theorem write32 {s : State} {w : Window} {off v : Nat} (h : s.Numbered) : (s.write32 w off v).Numbered := by
  unfold State.write32
  split
  · exact h
  · exact ite (rwWrite h (fun _ h1 => h1.writeRw)) h.writeAction

theorem execRegisterWrite {w : Window} {off : BitVec 26} {bytes : Nat} {v : BitVec 64} {s : State} (h : s.Numbered) :
    Keeps (execRegisterWrite w off bytes v s) :=
  Keeps.ite (next h.write32) (Keeps.ite (next h.write32.write32) (next (actWrite h (fun _ h1 => h1.refuseAccess))))

theorem answer {s : State} {always : Bool} {bs : List Byte} (h : s.Numbered) : (s.answer always bs).Numbered :=
  ite h (ite h.setSmbData (ite h.setSmbDataFresh h.setSmbData))

theorem execGetState {s : State} (h : s.Numbered) : Keeps (execGetState s) := next h.answer

theorem execGetThermal {s : State} (h : s.Numbered) : Keeps (execGetThermal s) := next h.answer

theorem execGetPower {s : State} (h : s.Numbered) : Keeps (execGetPower s) := next h.answer

theorem execGetEvents {s : State} (h : s.Numbered) : Keeps (execGetEvents s) := next h.answer

theorem mctpAnswer {s : State} {command eid : Byte} (h : s.Numbered) : (s.mctpAnswer command eid).Numbered := by
  unfold State.mctpAnswer
  split
  · exact h.setBoot.answer
  · exact h.answer
  · exact h.draw.answer
  · exact h.answer
  · exact h.answer

theorem execMctpControl {command eid : Byte} {s : State} (h : s.Numbered) : Keeps (execMctpControl command eid s) :=
  Keeps.ite (next h.mctpAnswer) (next h)

theorem tap {s : State} {ir : Nat} {data : BitVec 64} (h : s.Numbered) : (s.tap ir data).Numbered := h.setBootScanData

theorem execBypass {s : State} (h : s.Numbered) : Keeps (execBypass s) := Keeps.ite (next h.tap) (next h)

theorem execIdcode {s : State} (h : s.Numbered) : Keeps (execIdcode s) := Keeps.ite (next h.tap) (next h)

theorem execSamplePreload {boundary : BitVec 64} {s : State} (h : s.Numbered) : Keeps (execSamplePreload boundary s) :=
  Keeps.ite (next h) (Keeps.ite (next h.tap) (next h.draw.setBoot.tap))

theorem execExtest {s : State} (h : s.Numbered) : Keeps (execExtest s) := Keeps.ite (next h.tap) (next h)

/-! ### Retire -/

theorem keepHolds {s : State} {o : Op} (h : s.Numbered) : (s.keepHolds o).Numbered := ite h h.setHeldOps

theorem retire {s : State} {o : Op} (h : s.Numbered) : (s.retire o).Numbered :=
  finishUnshares (ite h.keepHolds.endMove.fail h.keepHolds.endMove.complete)

theorem execOperationRetire {q : QueueId} {opId : BitVec 16} {s : State} (h : s.Numbered) : Keeps (execOperationRetire q opId s) := by
  unfold Machine.execOperationRetire
  split
  · exact next h
  · exact next h.retire

/-! ### Dispatch -/

theorem exec {i : Instr} {s : State} (h : s.Numbered) : Keeps (exec i s) := by
  unfold Machine.exec
  split
  · exact h.execConvert
  · exact h.execAdd
  · exact h.execSub
  · exact h.execMul
  · exact h.execVectorMax
  · exact h.execVectorMin
  · exact h.execAxpy
  · exact h.execExp
  · exact h.execRecip
  · exact h.execRsqrt
  · exact h.execAct
  · exact h.execRowOp
  · exact h.execRowReduce
  · exact h.execRowNorm
  · exact h.execNormStats
  · exact h.execAdam
  · exact h.execRouteTopk
  · exact h.execMatrixOperation
  · exact h.execVectorEntry
  · exact h.execStationaryRowWrite
  · exact h.execClose
  · exact h.execOperationRetire
  · exact h.execTrussSum
  · exact h.execTrussMax
  · exact h.execTrussMin
  · exact h.execMaxIdx
  · exact h.execMinIdx
  · exact h.execTrussLeafRead
  · exact h.execDown
  · exact h.execUp
  · exact h.execDownT
  · exact h.execUpT
  · exact h.execWgradA
  · exact h.execWgradB
  · exact h.execJoinTimeout
  · exact h.execMoveOperation
  · exact h.execRowRepair
  · exact h.execPageReplacement
  · exact h.execReduce
  · exact h.execShardGather
  · exact h.execStageSend
  · exact h.execScarf
  · exact h.execScarfRound
  · exact h.execBeatWait
  · exact h.execLoadPlan
  · exact h.execLoadClass
  · exact h.execSetSeed
  · exact h.execSetMode
  · exact h.execSetWatch
  · exact h.execWriteWatch
  · exact h.execReadWatch
  · exact h.execRollHistory
  · exact h.execLoadHistory
  · exact h.execConfigurePartition
  · exact h.execSetWindow
  · exact h.execRetireSlot
  · exact h.execSlotDrained
  · exact h.execClaim
  · exact h.execShare
  · exact h.execUnshare
  · exact h.execRelease
  · exact h.execReadDirectory
  · exact h.execPageLeavesOwner
  · exact h.execPageScrub
  · exact h.execDirectoryChangeApply
  · exact h.execDefineFrame
  · exact h.execFrameDigest
  · exact h.execConfigureContext
  · exact h.execActivate
  · exact h.execBeginTraining
  · exact h.execEndTraining
  · exact h.execRelocate
  · exact h.execPromote
  · exact h.execProbeCheck
  · exact h.execReleaseContext
  · exact h.execContextScrub
  · exact h.execReadContext
  · exact h.execReplaceFrame
  · exact h.execLayerSwap
  · exact h.execDrainLimitExpiry
  · exact h.execPassBegin
  · exact h.execPassEnd
  · exact h.execSetSwapPolicy
  · exact h.execMeasureFrame
  · exact h.execSetJobMap
  · exact h.execJobReg
  · exact h.execSetStageQueue
  · exact h.execStageFree
  · exact h.execSaveCheckpoint
  · exact h.execRestoreCheckpoint
  · exact h.execSetEpochPair
  · exact h.execReportReady
  · exact h.execCreateFunction
  · exact h.execResize
  · exact h.execResizeEffect
  · exact h.execResizeLapsed
  · exact h.execFreeze
  · exact h.execThaw
  · exact h.execRestore
  · exact h.execDisable
  · exact h.execDrainBeatsExpiry
  · exact h.execFunctionScrubbing
  · exact h.execFunctionOff
  · exact h.execReadCounters
  · exact h.execBindFrame
  · exact h.execUnbind
  · exact h.execSetMortiseRange
  · exact h.execSetAperture
  · exact h.execExtension
  · exact h.execSetQueue
  · exact h.execSetCoalesce
  · exact h.execSetEventVector
  · exact h.execReport
  · exact h.execChannelOpen
  · exact h.execChannelMessage
  · exact h.execMemKey
  · exact h.execImageKey
  · exact h.execLinkKey
  · exact h.execLinkDrop
  · exact h.execConfidential
  · exact h.execCloseSession
  · exact h.execSessionExpiry
  · exact h.execGetCertificates
  · exact h.execMeasureRegion
  · exact h.execUnmeasure
  · exact h.execRotateKey
  · exact h.execKeySweepPage
  · exact h.execSetCap
  · exact h.execSetPowerGroup
  · exact h.execPwrSlack
  · exact h.execPwrShift
  · exact h.execRetrainStack
  · exact h.execMarginSweep
  · exact h.execCoreSelfTest
  · exact h.execTailWrite
  · exact h.execCplHeadWrite
  · exact h.execCoalesceTimer
  · exact h.execCompanionLineWrite
  · exact h.execSnoop
  · exact h.execFlit
  · exact h.execDarlekLinkLoss
  · exact h.execBeatEdge
  · exact h.execReleaseEvent
  · exact h.execCollectiveEvent
  · exact h.execMoveEvent
  · exact h.execCommitEvent
  · exact h.execPowerRamp
  · exact h.execShim
  · exact h.execResizeEvent
  · exact h.execDeadline
  · exact h.execCoreMove
  · exact h.execPlannedMoveComplete
  · exact h.execReduceTimeout
  · exact h.execSync
  · exact h.execSyncSend
  · exact h.execEpoch
  · exact h.execHoldReq
  · exact h.execHoldGrant
  · exact h.execReady
  · exact h.execVote
  · exact h.execDecisionEcho
  · exact h.execEchoTimeout
  · exact h.execCommit
  · exact h.execAbort
  · exact h.execDecideLost
  · exact h.execHoldover
  · exact h.execBackupTakeover
  · exact h.execCadInPulse
  · exact h.execCadInMissing
  · exact h.execDelay
  · exact h.execDelayRemeasure
  · exact h.execLctrl
  · exact h.execLctrlSend
  · exact h.execHello
  · exact h.execHelloSend
  · exact h.execPortTraining
  · exact h.execPortRetry
  · exact h.execFabricLinkLost
  · exact h.execData
  · exact h.execRedWindow
  · exact h.execRedPartial
  · exact h.execRedResult
  · exact h.execRedResend
  · exact h.execManagementOrderEffect
  · exact h.execCellMapChange
  · exact h.execCoreScrub
  · exact h.execGovernorStep
  · exact h.execDieSensorRead
  · exact h.execStackTemperatureRead
  · exact h.execTelemetryCalibration
  · exact h.execAgeingMonitorRead
  · exact h.execMarginPlan
  · exact h.execActiveTest
  · exact h.execTestDue
  · exact h.execPohRecord
  · exact h.execCalibrationRecordWrite
  · exact h.execStoreCompaction
  · exact h.execAvsRetry
  · exact h.execPowerOnReset
  · exact h.execRailLoss
  · exact h.execDevRstN
  · exact h.execRefclkStop
  · exact h.execRefclkReturn
  · exact h.execGo
  · exact h.execWarm
  · exact h.execPkcFailure
  · exact h.execErrClear
  · exact h.execIrqStatWrite
  · exact h.execLock
  · exact h.execRcRead
  · exact h.execLowWordRead
  · exact h.execApply
  · exact h.execCmapOrder
  · exact h.execChipIdWrite
  · exact h.execEpochEdgeWrite
  · exact h.execBeatCfgWrite
  · exact h.execPlanCtrlStart
  · exact h.execMarginCtrlStart
  · exact h.execPortRetrain
  · exact h.execGovCfgWrite
  · exact h.execRdSeqWrite
  · exact h.execRegisterWrite
  · exact h.execGetState
  · exact h.execGetThermal
  · exact h.execGetPower
  · exact h.execGetEvents
  · exact h.execMctpControl
  · exact h.execBypass
  · exact h.execIdcode
  · exact h.execSamplePreload
  · exact h.execExtest
  · exact h.execDecisionMessage
  · exact h.execDarlekPortLoss
  · exact h.execDroppedFrame
  · exact h.execPartitionScrub

/-! ### Step -/

theorem retryOne {s : State} {i : Instr} (h : s.Numbered) : (retryOne s i).Numbered := by
  refine ite h ?_
  split
  · exact h
  · refine ite h.setParked ?_
    split
    · rename_i ht; exact h.exec _ ht
    · exact h
    · exact h

theorem retryParked {s : State} (h : s.Numbered) : (retryParked s).Numbered := watchAll (foldl h.setParked fun _ _ h1 => h1.retryOne)

theorem step {s : State} (h : s.Numbered) : Keeps (step s) := by
  unfold Machine.step
  split
  · exact next h.retryParked
  · exact h.setPending.exec

end Sys2Proof.Machine.State.Numbered

namespace Sys2Proof.Laws

open Sys2Proof.Machine

/-- Settles O59: every command, and every retry of a waiting one, keeps the numbers of the outstanding operations apart. -/
theorem operationsNumbered : Obligations.OperationsNumbered := fun _ t hnodup hbelow hstep =>
  State.Numbered.step ⟨hnodup, hbelow⟩ t hstep

end Sys2Proof.Laws

/-! # The step, and the side ports -/

namespace Sys2Proof.Laws
open Sys2Proof.Machine

/-- Settles O56: the two branches of `step`. -/
theorem stepRunsFront : Obligations.StepRunsFront := by
  unfold Obligations.StepRunsFront
  intro s c rest
  refine ⟨fun h => ?front, fun h => ?empty⟩
  case front => simp only [step, h]
  case empty => simp only [step, h]

/-- With nothing waiting and no queue set the idle step changes nothing. -/
theorem retryParked_idle {s : State} (hp : s.parked = []) (hq : s.queues = []) : retryParked s = s := by
  have hs : { s with parked := [] } = s := by rw [← hp]
  rw [retryParked, hp, List.foldl_nil, hs, State.watchAll, hq]
  rfl

theorem step_reset : step State.reset = .next State.reset :=
  ((stepRunsFront State.reset .apply []).2 rfl).trans (congrArg Host.Outcome.next (retryParked_idle rfl rfl))

/-- Settles O60: after reset there is no memory entry and no operation, and the idle step leaves the state as it is. -/
theorem resetKeeps : Obligations.ResetKeeps := by
  unfold Obligations.ResetKeeps
  exact ⟨rfl, .nil, fun _ h => absurd h List.not_mem_nil, State.reset, step_reset, rfl, rfl, rfl⟩

section answers
variable {s : State} {always : Bool} {bs : List Byte}

theorem answer_unpowered (h : s.boot.powered = false) : s.answer always bs = s := by
  unfold State.answer; simp [h]

theorem answer_failed (h : s.boot.powered = true) (hf : s.boot.pkcFailed = true) :
    s.answer always bs = { s with smbData := leBytes 2 0x73C1 } := by
  unfold State.answer; simp [h, hf]

theorem answer_given (h : s.boot.powered = true) (hf : s.boot.pkcFailed = false) (ha : always = true ∨ s.boot.st = 8) :
    s.answer always bs = { s with smbData := bs, fresh := s.fresh + 8 } := by
  unfold State.answer; simp [h, hf, ha]

theorem answer_early (h : s.boot.powered = true) (hf : s.boot.pkcFailed = false) (ha : always = false) (hs : s.boot.st ≠ 8) :
    s.answer always bs = { s with smbData := List.replicate bs.length 0 } := by
  unfold State.answer; simp [h, hf, ha, hs]

/-- The four things a command that answers with `bs` does (R484, R485). -/
theorem answer_cases {i : Instr} (hi : exec i s = .next (s.answer always bs)) :
    (s.boot.powered = false → exec i s = .next s)
    ∧ (s.boot.powered = true → s.boot.pkcFailed = true → exec i s = .next { s with smbData := leBytes 2 0x73C1 })
    ∧ (s.boot.powered = true → s.boot.pkcFailed = false → (always = true ∨ s.boot.st = 8) → ∃ t, exec i s = .next t ∧ t.smbData = bs
        ∧ { t with smbData := s.smbData, fresh := s.fresh } = s)
    ∧ (s.boot.powered = true → s.boot.pkcFailed = false → always = false → s.boot.st ≠ 8 →
        exec i s = .next { s with smbData := List.replicate bs.length 0 }) := by
  rw [hi]
  refine ⟨fun h => ?_, fun h hf => ?_, fun h hf ha => ⟨_, rfl, ?_⟩, fun h hf ha hs => ?_⟩
  · rw [answer_unpowered h]
  · rw [answer_failed h hf]
  · rw [answer_given h hf ha]; exact ⟨rfl, rfl⟩
  · rw [answer_early h hf ha hs]

/-- Once the PKC has failed every MCTP control message is answered with the failure's event code (R485). -/
theorem mctpAnswer_failed (h : s.boot.powered = true) (hf : s.boot.pkcFailed = true) (command eid : Byte) :
    (s.mctpAnswer command eid).smbData = leBytes 2 0x73C1 := by
  have hd : ∀ (u : State) (bs : List Byte), u.boot.powered = true → u.boot.pkcFailed = true → (u.answer true bs).smbData = leBytes 2 0x73C1 :=
    fun u bs h hf => by rw [answer_failed h hf]
  unfold State.mctpAnswer
  split
  all_goals exact hd _ _ h hf

theorem mctpAnswer_setEid (h : s.boot.powered = true) (hf : s.boot.pkcFailed = false) (eid : Byte) :
    s.mctpAnswer 1 eid = { s with boot := { s.boot with eid := eid }, smbData := [0, 0, eid, 0], fresh := s.fresh + 8 } :=
  answer_given (s := { s with boot := { s.boot with eid := eid } }) h hf (.inl rfl)

/-- A scan of a powered device; an unpowered one takes none (R486). -/
theorem scan_cases {i : Instr} {ir : Nat} {data : BitVec 64} (hi : exec i s = if s.boot.powered then .next (s.tap ir data) else .next s) :
    (s.boot.powered = true → exec i s = .next { s with boot := { s.boot with tapIr := ir }, scanData := data })
    ∧ (s.boot.powered = false → exec i s = .next s) := by
  rw [hi]
  exact ⟨fun h => if_pos h, fun h => if_neg (by simp [h])⟩

theorem exec_samplePreload_confidential (hc : s.anyConfidential = true) (boundary : BitVec 64) :
    exec (.samplePreload boundary) s = if s.boot.powered then .next (s.tap 1 0) else .next s := by
  show execSamplePreload boundary s = _
  unfold execSamplePreload
  cases s.boot.powered <;> simp [hc]

theorem exec_samplePreload (h : s.boot.powered = true) (hc : s.anyConfidential = false) (boundary : BitVec 64) :
    ∃ t, exec (.samplePreload boundary) s = .next t ∧ t.boot.boundary = boundary ∧ t.boot.tapIr = 2 ∧ t.ops = s.ops ∧ t.mem = s.mem := by
  have he : exec (.samplePreload boundary) s = execSamplePreload boundary s := rfl
  unfold execSamplePreload at he
  rw [if_neg (by simp [h]), if_neg (by simp [hc])] at he
  exact ⟨_, he, rfl, rfl, rfl, rfl⟩

end answers

/-- Settles O55: each SMBus command is one answer, each scan one selection of the test access port. -/
theorem sidePorts : Obligations.SidePorts := by
  unfold Obligations.SidePorts
  intro s eid boundary
  refine ⟨answer_cases rfl, answer_cases (bs := words _ ++ _) rfl, answer_cases rfl, answer_cases rfl, ?setEid, ?failed, scan_cases rfl,
    scan_cases rfl, scan_cases rfl, fun hc => scan_cases (exec_samplePreload_confidential hc boundary),
    fun h hc => exec_samplePreload h hc boundary⟩
  case setEid =>
    intro h hf
    have he : exec (.mctpControl 1 eid) s = .next (s.mctpAnswer 1 eid) := if_pos h
    rw [mctpAnswer_setEid h hf] at he
    exact ⟨_, he, rfl, rfl, rfl, rfl⟩
  case failed =>
    intro h hf command
    exact ⟨_, if_pos h, mctpAnswer_failed h hf command eid⟩

end Sys2Proof.Laws

/-! # The completion record (R425, Table 17-4) -/

namespace Sys2Proof.Machine

/-- Where a queue's next record goes. -/
def Queue.slot (q : Queue) : Nat := compKey (fld q.record 176 134 + 64 * (q.cplIndex.toNat % 2 ^ fld q.record 181 177))

/-- The phase of a queue's next record: set on even passes through the ring. -/
def Queue.phase (q : Queue) : Bool := decide (q.cplIndex.toNat / 2 ^ fld q.record 181 177 % 2 = 0)

end Sys2Proof.Machine

namespace Sys2Proof.Laws
open Sys2Proof.Machine

/-- A record written to memory reads as itself. -/
theorem ofNat_nat_write {w n : Nat} (h : w = 8 * n) (s : State) (a : Nat) (r : BitVec w) :
    BitVec.ofNat w ((s.write a (leBytes n r.toNat)).nat a n) = r := by
  have hb := memBytes_write_same s.mem a (leBytes n r.toNat)
  rw [length_leBytes] at hb
  rw [State.nat, State.write_mem, hb, ofBytes_leBytes_toNat h, BitVec.ofNat_toNat, BitVec.setWidth_eq]

theorem takeFirst_snd {α : Type} (p : α → Bool) (l : List α) : (takeFirst p l).2 = l.eraseP p := by
  induction l with
  | nil => rfl
  | cons x l ih => cases h : p x <;> simp [takeFirst, h, ih]

/-- A completion without IRQ, with room in the ring and nothing waiting, writes its record at the ring index. -/
theorem postRecord_room {s : State} {n : QueueId} (hfull : (s.queue n.val).cplFull = false) (hw : (s.queue n.val).waiting = [])
    (r : Record) : s.postRecord n r false = s.putRecord n r := by
  unfold State.postRecord
  simp [hfull, hw]

section record
variable (o : Op) (status cause count beat cycle detail : Nat)

/-- The fields of a completion record, as Table 17-4 lays them out, before the phase is set. -/
theorem completionRecord_fields : let r := completionRecord o false status cause count beat cycle detail
    fld r 15 0 = fld o.desc 51 36 ∧ fld r 25 16 = o.queue.val ∧ fld r 29 26 = fld o.desc 3 0 ∧ fld r 31 31 = 0
    ∧ fld r 39 32 = status % 256 ∧ fld r 47 40 = cause % 256 ∧ fld r 63 48 = min count 65535
    ∧ fld r 127 64 = beat % 2 ^ 64 ∧ fld r 159 144 = fld o.desc 35 20 ∧ fld r 511 160 = detail % 2 ^ 352 := by
  have hop := fld_lt o.desc 51 36
  have hq := o.queue.isLt
  have hclass := fld_lt o.desc 3 0
  have htag := fld_lt o.desc 35 20
  have hdet := Nat.mod_lt detail (Nat.two_pow_pos 352)
  unfold completionRecord
  rw [show b2n false = 0 from rfl]
  generalize detail % 2 ^ 352 = det at *
  generalize fld o.desc 51 36 = op at *
  generalize fld o.desc 3 0 = class_ at *
  generalize fld o.desc 35 20 = tag at *
  simp (disch := omega) only [fld, BitVec.toNat_ofNat, field_mod]
  simp only [field, Nat.shiftRight_eq_div_pow]
  refine ⟨?_, ?_, ?_, ?_, ?_, ?_, ?_, ?_, ?_, ?_⟩
  case refine_10 =>
    have hdiv : ∀ x : Nat, x < 2 ^ 160 → (x + det * 2 ^ 160) / 2 ^ 160 = det := fun x hx => by omega
    rw [hdiv _ (by omega)]
    exact Nat.mod_eq_of_lt hdet
  all_goals omega

/-- The phase sets its own bit only. -/
theorem fld_phase {hi lo : Nat} (h : hi < 512) (hb : hi < 30 ∨ 30 < lo) (r : Record) (v : Nat) : fld (withFld r 30 30 v) hi lo = fld r hi lo :=
  fld_withFld_of_disjoint h (by omega) (by omega) r v

theorem flag_eq_false_iff {n i : Nat} (d : BitVec n) : flag d i = false ↔ fld d i i = 0 := by
  rw [fld, field, flag, Nat.shiftRight_eq_div_pow, BitVec.getLsbD, Nat.testBit_eq_decide_div_mod_eq]
  simp

theorem flag_phase (r : Record) (b : Bool) : flag (withFld r 30 30 (b2n b)) 30 = b := by
  have h : fld (withFld r 30 30 (b2n b)) 30 30 = b2n b := fld_withFld_of_lt (by omega) (by cases b <;> decide) r
  cases b with
  | false => exact (flag_eq_false_iff _).2 h
  | true =>
    refine (Bool.not_eq_false _).mp fun hf => ?_
    rw [(flag_eq_false_iff _).1 hf] at h
    exact absurd h (by decide)

end record

theorem putRecord_eq (s : State) (n : QueueId) (r : Record) : let q := s.queue n.val
    s.putRecord n r = (s.write q.slot (leBytes 64 (withFld r 30 30 (b2n q.phase)).toNat)).setQueue n.val
      { q with cplIndex := q.cplIndex + 1 } := by
  intro q
  unfold State.putRecord
  extract_lets q' log2 idx phase r' t
  exact rfl

/-- What `putRecord` does to memory and to the queues, and where it leaves the rest (R425). -/
theorem putRecord_spec (s : State) (n : QueueId) (r : Record) : let q := s.queue n.val
    let t := s.putRecord n r
    (∀ a, a < q.slot ∨ q.slot + 64 ≤ a → memByte t.mem a = memByte s.mem a)
    ∧ BitVec.ofNat 512 (t.nat q.slot 64) = withFld r 30 30 (b2n q.phase)
    ∧ t.queue n.val = { q with cplIndex := q.cplIndex + 1 } ∧ (∀ k, k ≠ n.val → t.queue k = s.queue k) ∧ t.ops = s.ops := by
  intro q t
  have ht : t = _ := putRecord_eq s n r
  clear_value t
  subst ht
  refine ⟨fun a ha => ?out, ?record, State.queue_setQueue .., fun k hk => ?others, ?ops⟩
  case out => rw [State.setQueue_mem]; exact State.write_out s _ _ a (by rwa [length_leBytes])
  case record => rw [State.nat, State.setQueue_mem]; exact ofNat_nat_write (n := 64) rfl s _ _
  case others => rw [State.queue_setQueue_ne _ _ _ _ hk.symm, State.queue, State.write_queues]; rfl
  case ops => rw [State.setQueue_ops, State.write_ops]

/-- A completion that asks for no interrupt and meets room in the ring: the operation leaves, its holds end, its record is put. -/
theorem complete_room {s : State} {o : Op} (hfull : (s.queue o.queue.val).cplFull = false) (hw : (s.queue o.queue.val).waiting = [])
    (hirq : flag o.desc 18 = false) (status cause count detail : Nat) : ∃ cycle last,
    s.complete o status cause count detail
      = { ((s.dropOp o.ref).releaseHolds o).draw.2.putRecord o.queue
            (Machine.completionRecord o false status cause count s.beatNow cycle detail) with lastCpl := last } := by
  have hq : ((s.dropOp o.ref).releaseHolds o).draw.2.queue o.queue.val = s.queue o.queue.val := by
    rw [State.queue, State.draw, State.releaseHolds_queues, State.dropOp, State.queue]
  unfold State.complete
  dsimp only
  rw [hirq, postRecord_room (by rw [hq, hfull]) (by rw [hq, hw])]
  exact ⟨_, _, rfl⟩

/-- Settles O9: the record is written once at the ring index; its fields are those of the operation and of its end. -/
theorem completionRecord : Obligations.CompletionRecord := by
  unfold Obligations.CompletionRecord
  intro s o status cause count detail q log2 at_ t r hfull hw hirq
  obtain ⟨cycle, last, ht⟩ : ∃ cycle last, t = _ := complete_room hfull hw hirq status cause count detail
  obtain ⟨hout, hrecord, hqueue, hothers, hops⟩ := putRecord_spec ((s.dropOp o.ref).releaseHolds o).draw.2 o.queue
    (Machine.completionRecord o false status cause count s.beatNow cycle detail)
  obtain ⟨hop, hq, hclass, htaken, hstatus, hcause, hcount, hbeat, htag, hdetail⟩ :=
    completionRecord_fields o status cause count s.beatNow cycle detail
  clear_value t
  subst ht
  have hr : r = withFld _ 30 30 (b2n q.phase) := hrecord
  clear_value r
  subst hr
  refine ⟨hout, ?op, ?q, ?cls, ?phase, ?taken, ?status, ?cause, ?count, ?beat, ?tag, ?detail, hqueue, hothers,
    hops.trans (takeFirst_snd ..)⟩
  case phase => rw [flag_phase, Queue.phase, decide_eq_true_iff]
  case taken => rw [flag_eq_false_iff, fld_phase (by omega) (by omega), htaken]
  case op => rw [fld_phase (by omega) (by omega), hop]
  case q => rw [fld_phase (by omega) (by omega), hq]
  case cls => rw [fld_phase (by omega) (by omega), hclass]
  case status => rw [fld_phase (by omega) (by omega), hstatus]
  case cause => rw [fld_phase (by omega) (by omega), hcause]
  case count => rw [fld_phase (by omega) (by omega), hcount]
  case beat => rw [fld_phase (by omega) (by omega), hbeat]
  case tag => rw [fld_phase (by omega) (by omega), htag]
  case detail => rw [fld_phase (by omega) (by omega), hdetail]

end Sys2Proof.Laws

/-! # What sending leaves alone: everything but the ports, the link slots, the frames in flight and a counter of the port page -/

namespace Sys2Proof.Machine

/-- The second state differs from the first only in what sending frames touches. -/
structure Traffic (s t : State) : Prop where
  rest : t = { s with ports := t.ports, links := t.links, outbox := t.outbox, regs := t.regs, fresh := t.fresh }

namespace Traffic
variable {s t u : State}

theorem refl (s : State) : Traffic s s := ⟨rfl⟩

theorem trans (h1 : Traffic s t) (h2 : Traffic t u) : Traffic s u := by
  obtain ⟨h1⟩ := h1
  obtain ⟨h2⟩ := h2
  rw [h1] at h2
  exact ⟨h2⟩

theorem ite {p : Prop} [Decidable p] (h1 : Traffic s t) (h2 : Traffic s u) : Traffic s (if p then t else u) := by
  split
  · exact h1
  · exact h2

theorem foldl {α : Type} (f : State → α → State) (xs : List α) (s : State) (h : ∀ s x, Traffic s (f s x)) : Traffic s (xs.foldl f s) := by
  induction xs generalizing s with
  | nil => exact refl s
  | cons x xs ih => exact (h s x).trans (ih _)

theorem fns (h : Traffic s t) : t.fns = s.fns := by rw [h.rest]
theorem fn (h : Traffic s t) (f : FnId) : t.fn f = s.fn f := by rw [State.fn, h.fns, State.fn]
theorem ops (h : Traffic s t) : t.ops = s.ops := by rw [h.rest]
theorem mem (h : Traffic s t) : t.mem = s.mem := by rw [h.rest]
theorem jobs (h : Traffic s t) : t.jobs = s.jobs := by rw [h.rest]
theorem beat (h : Traffic s t) : t.beat = s.beat := by rw [h.rest]
theorem parked (h : Traffic s t) : t.parked = s.parked := by rw [h.rest]
theorem mail (h : Traffic s t) : t.mail = s.mail := by rw [h.rest]
theorem reduces (h : Traffic s t) : t.reduces = s.reduces := by rw [h.rest]
theorem queues (h : Traffic s t) : t.queues = s.queues := by rw [h.rest]

theorem setPort (s : State) (p : Nat) (x : Port) : Traffic s (s.setPort p x) := ⟨rfl⟩
theorem setLink (s : State) (i : Nat) (x : LinkSlot) : Traffic s (s.setLink i x) := ⟨rfl⟩
theorem setOutbox (s : State) (x : List Outbound) : Traffic s { s with outbox := x } := ⟨rfl⟩
theorem wait (s : State) (off : Nat) : Traffic s (s.wait off) := ⟨rfl⟩

theorem sendOn (s : State) (p : Nat) (fr : Frame) : Traffic s (s.sendOn p fr) :=
  ite (refl s) (ite (ite ((setPort ..).trans (wait ..)) (setPort ..)) (refl s))

theorem sendDown (s : State) (msg : BitVec 256) : Traffic s (s.sendDown msg) := foldl _ _ _ fun s p => sendOn s p _

theorem sendUpTree (s : State) (msg : BitVec 256) : Traffic s (s.sendUpTree msg) := by
  unfold State.sendUpTree; split
  · exact sendOn ..
  · exact refl s

theorem sendMgmt (s : State) (chip : Nat) (payload : List Byte) : Traffic s (s.sendMgmt chip payload) := by
  unfold State.sendMgmt; extract_lets pos; split
  · exact sendOn ..
  · exact refl s

theorem sendHello (s : State) (p : Nat) : Traffic s (s.sendHello p) := ite (refl s) (sendOn ..)
theorem sendHellos (s : State) : Traffic s s.sendHellos := foldl _ _ _ sendHello

theorem sealFrame (s : State) (f : FnId) (fr : Frame) : Traffic s (s.sealFrame f fr).2 := by
  unfold State.sealFrame; split
  · exact refl s
  · exact setLink ..

theorem sendMessage (s : State) (f : FnId) (r : OpRef) (port pos chip sub : Nat) (body : List Byte) :
    Traffic s (s.sendMessage f r port pos chip sub body) := by
  unfold State.sendMessage
  extract_lets size parts n
  refine foldl _ _ _ fun s b => ?_
  exact ((sealFrame ..).trans (sendOn ..)).trans (ite (setOutbox ..) (refl _))

theorem sendNext (s : State) (f : FnId) (r : OpRef) (p sub : Nat) (body : List Byte) : Traffic s (s.sendNext f r p sub body) := sendMessage ..

theorem dropLinks (s : State) (job : Nat) : Traffic s (s.dropLinks job) := ite (foldl _ _ _ fun _ _ => ite (setLink ..) (refl _)) (refl s)

end Traffic

end Sys2Proof.Machine

/-! # Job maps and stage queues (R280, R281, R290, R291) -/

namespace Sys2Proof.Machine

theorem State.fn_modFn (s : State) (f : FnId) (g : Fn → Fn) : (s.modFn f g).fn f = g (s.fn f) := State.fn_setFn ..

theorem State.job_modJob (s : State) (f : FnId) (g : JobState → JobState) : ((s.modJob f g).fn f).job = g (s.fn f).job :=
  congrArg Fn.job (State.fn_modFn ..)

/-- Completing an operation leaves every function as it is. -/
theorem State.fn_complete (s : State) (o : Op) (status cause count detail : Nat) (f : FnId) :
    (s.complete o status cause count detail).fn f = s.fn f := State.fn_congr (State.complete_fns ..) f

/-- Telling the master of a job changes no function. -/
theorem State.sendJobReg_fns (s : State) (m : BitVec 512) (remove : Bool) : (s.sendJobReg m remove).fns = s.fns := by
  have hreg (u : State) (msg : Nat) : (u.onJobReg msg).fns = u.fns := by
    unfold State.onJobReg; extract_lets job j; split
    · rfl
    · split <;> rfl
  unfold State.sendJobReg
  extract_lets msg u
  have hu : u.fns = s.fns := by
    subst u; split
    · exact hreg ..
    · rfl
  exact (Traffic.foldl _ _ _ fun u c => Traffic.sendMgmt ..).fns.trans hu

/-- A map taken anew is the function's, with the topology of the ports that have a partner (R281). -/
theorem State.job_takeMap {s : State} {f : FnId} {m : BitVec 512} (hm : jmJobId m ≠ 0) :
    ((s.takeMap f m).fn f).job = { (s.fn f).job with
      map := m, pendingMap := none, st := if (s.fn f).job.st = 3 then 3 else 1, remapped := true, topo := s.partnerMask } := by
  unfold State.takeMap
  rw [((Traffic.dropLinks ..).trans (Traffic.sendHellos _)).fn, State.job_modJob, if_neg hm]

end Sys2Proof.Machine

namespace Sys2Proof.Laws
open Sys2Proof.Machine Sys2Proof.Safety

section
variable {s b : State} {q : QueueId} {d : Desc} {o : Op}

theorem exec_setJobMap_of_control (h : Control s q d 0x40 o b) (hr : b.recordCause o (ctAddr d) 64 = 0) :
    let m : BitVec 512 := BitVec.ofNat 512 (b.record o 64)
    exec (.setJobMap q d) s = .next (
      if b.jobMapCause o.fn m ≠ 0 then b.faultOp o (b.jobMapCause o.fn m) else (b.acceptMap o.fn m).done o) :=
  congrArg Host.Outcome.next ((control_issue h rfl _).trans (if_neg (not_not.mpr hr)))

theorem exec_setStageQueue_of_control (h : Control s q d 0x41 o b) (hr : b.recordCause o (ctAddr d) 32 = 0) :
    let r : BitVec 256 := BitVec.ofNat 256 (b.record o 32)
    exec (.setStageQueue q d) s = .next (
      if b.stageQueueBad o.fn r then b.faultOp o 0x74
      else (b.putStageQ o.fn (sqQid r) { record := r, credits := sqDepthM1 r + 1, nextMb := 0, held := [] }).done o) :=
  congrArg Host.Outcome.next ((control_issue h rfl _).trans (if_neg (not_not.mpr hr)))

end

theorem stageQ?_putStageQ (s : State) (f : FnId) (q : Nat) (x : StageQ) : (s.putStageQ f q x).stageQ? f q = some x := by
  rw [State.stageQ?, State.putStageQ, State.job_modJob, SMap.get_put_same]

theorem stageQ?_putStageQ_ne (s : State) (f : FnId) {q k : Nat} (h : k ≠ q) (x : StageQ) : (s.putStageQ f q x).stageQ? f k = s.stageQ? f k := by
  rw [State.stageQ?, State.putStageQ, State.job_modJob, SMap.get_put_ne _ _ _ _ _ h.symm, State.stageQ?]

/-- Settles O33: a map, a queue and a freed slot each come to one change of the function's job state. -/
theorem jobSet : Obligations.JobSet := by
  unfold Obligations.JobSet
  intro s b q d o f
  refine ⟨fun h hr => ?map, fun h hr => ?queue, fun h x hx hend hheld => ?free⟩
  case map =>
    intro m
    have hexec : exec (.setJobMap q d) s = .next (if b.jobMapCause f m ≠ 0 then b.faultOp o (b.jobMapCause f m) else (b.acceptMap f m).done o) :=
      exec_setJobMap_of_control h hr
    clear_value m
    refine ⟨fun hc => ?bad, fun hc hm hopen => ?waits, fun hc hm hopen => ?taken⟩
    case bad => exact hexec.trans (congrArg _ (if_pos hc))
    case waits =>
      refine ⟨_, hexec.trans (congrArg _ (if_neg (not_not.mpr hc))), ?_⟩
      rw [State.done, State.fn_complete, State.acceptMap, if_neg hm, if_pos hopen, State.fn_congr (State.sendJobReg_fns ..), State.job_modJob]
    case taken =>
      have hjob : (((b.acceptMap f m).done o).fn f).job = ((b.takeMap f m).fn f).job := by
        rw [State.done, State.fn_complete, State.acceptMap, if_neg hm, if_neg (by rw [hopen]; decide),
          State.fn_congr (State.sendJobReg_fns ..)]
      rw [State.job_takeMap hm] at hjob
      refine ⟨_, hexec.trans (congrArg _ (if_neg (not_not.mpr hc))), ?_⟩
      rw [hjob]
      exact ⟨rfl, rfl, rfl, rfl⟩
  case queue =>
    intro r
    have hexec := exec_setStageQueue_of_control h hr
    refine ⟨fun hbad => ?bad, fun hbad => ⟨_, hexec.trans (congrArg _ (if_neg (by rw [hbad]; decide))), ?_⟩⟩
    case bad => exact hexec.trans (congrArg _ (if_pos hbad))
    exact ⟨stageQ?_putStageQ .., fun k hk => stageQ?_putStageQ_ne _ _ hk _, rfl⟩
  case free =>
    have hexec : exec (.stageFree q d) s = _ := congrArg Host.Outcome.next (control_issue h rfl _)
    rw [show b.stageQ? o.fn (sgFreeQid d) = some x from hx] at hexec
    dsimp only at hexec
    rw [if_neg (by omega), if_neg (by simpa using hheld)] at hexec
    exact ⟨_, hexec, stageQ?_putStageQ .., fun k hk => stageQ?_putStageQ_ne _ _ hk _, rfl, rfl⟩

end Sys2Proof.Laws

/-! # The master of a job and its backup (R324, R325, R328) -/

namespace Sys2Proof.SMap

/-- The second of two writes of values other than the default is the one that stands, whatever the map. -/
theorem put_put {α : Type} [DecidableEq α] {d v w : α} (hv : v ≠ d) (hw : w ≠ d) (m : SMap α) (k : Nat) :
    put d (put d m k v) k w = put d m k w := by
  simp only [put, if_neg hv, if_neg hw]
  induction m with
  | nil => simp [insert]
  | cons p m ih =>
    obtain ⟨k', x⟩ := p
    rcases Nat.lt_trichotomy k k' with h | rfl | h
    · simp [insert, h]
    · simp [insert]
    · simp [insert, Nat.not_lt_of_gt h, Nat.ne_of_gt h, ih]

end Sys2Proof.SMap

namespace Sys2Proof.Laws
open Sys2Proof.Machine Sys2Proof.Safety

section
variable {s : State} {job step : Nat}

/-- A job's record that holds a READY or a decision is not the reset one, so a second write of it is the one that stands. -/
theorem setJob_setJob {k k' : MasterJob} (h : k.readies ≠ []) (h' : k'.decision ≠ none) :
    (s.setJob job k).setJob job k' = s.setJob job k' :=
  congrArg (fun js => { s with jobs := js }) (SMap.put_put (fun e => h (congrArg MasterJob.readies e)) (fun e => h' (congrArg MasterJob.decision e)) _ _)

/-- A READY that is not ignored and of a new origin (R324, R325). -/
theorem onReady_new {origin : Nat} (hm : (s.job job).members ≠ 0) (hi : (s.job job).ignores step = false)
    (hnew : BitVec.ofNat 16 origin ∉ (s.job job).readies) :
    let k : MasterJob := { s.job job with readies := (s.job job).readies ++ [BitVec.ofNat 16 origin] }
    s.onReady job step origin = if (s.job job).members ≤ (s.job job).readies.length + 1 then (s.setJob job k).decideStep job step true 0
      else s.setJob job k := by
  intro k
  unfold State.onReady
  extract_lets j rs u
  have hrs : rs = j.readies ++ [BitVec.ofNat 16 origin] := if_neg (by simpa using hnew)
  rw [if_neg (by rw [hi]; simpa using hm)]
  subst u
  rw [hrs, List.length_append]
  rfl

end

/-- Settles O29: the branches of `onReady` and `onVote`, which both come to `decideStep`. -/
theorem masterDecides : Obligations.MasterDecides := by
  unfold Obligations.MasterDecides
  intro s msg job step j out decided
  refine ⟨fun hmaster hkind hmembers hignores hnew => ?ready, fun hmaster hkind hignores => ?vote,
    fun hmaster => ⟨fun hkind => ?readyUp, fun hkind => ?voteUp⟩⟩
  case ready =>
    intro k x
    have hexec : exec (.ready msg) s = .next (s.onReady job step (bmOrigin msg)) := (if_neg (not_not.mpr hkind)).trans (if_pos hmaster)
    rw [onReady_new hmembers hignores hnew] at hexec
    refine ⟨fun hmore => hexec.trans (congrArg _ (if_neg (Nat.not_le.mpr hmore))), fun hlast => hexec.trans (congrArg _ ((if_pos hlast).trans ?_))⟩
    have hk : (s.setJob job k).job job = k := SMap.get_put_same ..
    have hset : (s.setJob job k).setJob job (k.decided x s.beatNow s.hasBackup) = decided x k :=
      setJob_setJob (by simp [k]) (Option.some_ne_none x)
    unfold State.decideStep
    rw [hk]
    exact congrArg (fun u : State => out (u.shiftPower job step) x) hset
  case vote =>
    intro aborts x
    have hexec : exec (.vote msg) s = .next (s.onVote job step (bmArg2 msg % 256)) := (if_neg (not_not.mpr hkind)).trans (if_pos hmaster)
    rw [State.onVote, if_neg (by rw [hignores]; decide)] at hexec
    exact hexec
  case readyUp => exact (if_neg (not_not.mpr hkind)).trans (if_neg (by rw [hmaster]; decide))
  case voteUp => exact (if_neg (not_not.mpr hkind)).trans (if_neg (by rw [hmaster]; decide))

/-- A backup that has failed is noted, and the decision goes to the next one or out (R325). -/
theorem retryBackup_eq (s : State) (job : Nat) (x : Decision) : ∃ u : State,
    u.beat.failedBackups = s.beat.failedBackups ++ [s.beat.backup] ∧ (u.job job).sentBeat = s.beatNow
    ∧ s.retryBackup job x = if u.hasBackup then u.sendMgmt u.beat.backup.toNat (u.decisionPayload job x)
        else (u.setJob job { u.job job with echoed := true }).broadcast job x := by
  unfold State.retryBackup
  extract_lets v w x1 x2 x3 u
  exact ⟨u, rfl, congrArg MasterJob.sentBeat (SMap.get_put_same ..), rfl⟩

/-- Settles O30: each message comes to one branch of its command. -/
theorem backupHolds : Obligations.BackupHolds := by
  unfold Obligations.BackupHolds
  intro s src job step isCommit cause aborts final msg j
  refine ⟨fun hbackup => ?held, fun x hmaster hechoed hdecision => ?unechoed, fun hkeeps => ?registered⟩
  case held =>
    intro x
    exact if_neg (by rw [hbackup]; decide)
  case unechoed =>
    have hx : s.unechoed job.toNat = some x := (if_neg (by rw [hechoed]; decide)).trans hdecision
    have hecho : exec (.decisionEcho src job step) s = if s.isMaster ∧ src = s.beat.backup ∧ x.step = step then .next (s.release job.toNat x)
        else .next s := by
      show execDecisionEcho src job step s = _
      rw [execDecisionEcho, hx]
    have htimeout : exec (.echoTimeout job) s = if s.isMaster ∧ j.sentBeat + 2 * s.beat.lead ≤ s.beatNow then .next (s.retryBackup job.toNat x)
        else .next s := by
      show execEchoTimeout job s = _
      rw [execEchoTimeout, hx]
    refine ⟨fun hsrc hstep => hecho.trans (if_pos ⟨hmaster, hsrc, hstep⟩), fun hother => hecho.trans (if_neg ?_), fun hdue => ?_⟩
    · rintro ⟨-, hsrc, hstep⟩
      exact hother.elim (· hsrc) (· hstep)
    · obtain ⟨u, hfailed, hbeat, hu⟩ := retryBackup_eq s job.toNat x
      exact ⟨_, u, htimeout.trans (if_pos ⟨hmaster, hdue⟩), hfailed, hbeat, hu⟩
  case registered =>
    intro k
    have hexec : exec (.jobReg src msg) s = .next (s.onJobReg msg.toNat) := if_pos hkeeps
    refine ⟨fun hremove => hexec.trans (congrArg _ (if_pos hremove)), fun hset hknown => hexec.trans (congrArg _ ?_)⟩
    exact (if_neg (by rw [hset]; decide)).trans (if_neg fun h => hknown h.1)

/-! # The member (R321, R323, R329, R388 to R390) -/

theorem complete_ops (s : State) (o : Op) (status cause count detail : Nat) :
    (s.complete o status cause count detail).ops = s.ops.eraseP (fun x => x.is o.ref) :=
  (Notices.postRecord _ _ _ _).ops.trans (takeFirst_snd ..)

theorem kill_ops (s : State) (o : Op) (status cause : Nat) : (s.kill o status cause).ops = s.ops.eraseP (fun x => x.is o.ref) :=
  complete_ops ..

theorem kill_fns (s : State) (o : Op) (status cause : Nat) : (s.kill o status cause).fns = s.fns := State.complete_fns ..

/-- Removing an operation removes its reference. -/
theorem eraseP_refs (ops : List Op) (r : OpRef) : (ops.eraseP (fun x => x.is r)).map Op.ref = (ops.map Op.ref).erase r := by
  rw [List.erase_eq_eraseP, List.eraseP_map]
  refine congrArg (List.map Op.ref) (congrArg (fun p => ops.eraseP p) (funext fun x => ?_))
  simp [Op.is, Op.ref, Function.comp, Prod.ext_iff, eq_comm, Bool.beq_eq_decide_eq]

/-- Operations that are killed are no longer outstanding, and none comes in. -/
theorem mem_foldl_kill (status cause : Nat) (os : List Op) {s : State} (hnd : (s.ops.map Op.ref).Nodup) {x : Op}
    (hx : x ∈ (os.foldl (fun s o => s.kill o status cause) s).ops) : x ∈ s.ops ∧ x ∉ os := by
  induction os generalizing s with
  | nil => exact ⟨hx, List.not_mem_nil⟩
  | cons o os ih =>
    have hrefs : ((s.kill o status cause).ops.map Op.ref) = (s.ops.map Op.ref).erase o.ref := by rw [kill_ops, eraseP_refs]
    obtain ⟨hin, hout⟩ := ih (by rw [hrefs]; exact hnd.erase _) hx
    have hne : x.ref ≠ o.ref := ((hnd.mem_erase_iff).mp (hrefs ▸ List.mem_map_of_mem hin)).1
    refine ⟨List.mem_of_mem_eraseP (kill_ops s o status cause ▸ hin), ?_⟩
    rintro (_ | ⟨_, h⟩)
    · exact hne rfl
    · exact hout h

theorem foldl_kill_fns (status cause : Nat) (os : List Op) (s : State) : (os.foldl (fun s o => s.kill o status cause) s).fns = s.fns := by
  induction os generalizing s with
  | nil => rfl
  | cons o os ih => exact (ih _).trans (kill_fns ..)

/-- A job that breaks is in state 3, and the operations stay. -/
theorem breakJob_spec (s : State) (f : FnId) : ((s.breakJob f).fn f).job.st = 3 ∧ (s.breakJob f).ops = s.ops := by
  unfold State.breakJob
  split
  · next h => exact ⟨h, rfl⟩
  · exact ⟨by rw [State.fn_congr (Notices.raise ..).fns, State.job_modJob], (Notices.raise ..).ops⟩

section
variable {s b : State} {q : QueueId} {d : Desc} {o : Op}

theorem exec_reportReady_of_control (h : Control s q d 0x46 o b) : exec (.reportReady q d) s = .next (
    if b.issuedBefore o then b.park (.reportReady q d) o
    else if (b.fn o.fn).step.fail then b.complete o 9 0 0 0
    else if (b.fn o.fn).step.decision.isSome then b.complete o 8 0 0 0
    else if flag d 64 then (b.failStep o.fn 6).complete o 9 0 0 0
    else (b.sendReady o.fn).done o) := congrArg Host.Outcome.next (control_issue h rfl _)

end

/-- The READY of a mapped function outside a power group (R323). -/
theorem sendReady_ungrouped {b : State} {f : FnId} (hmapped : b.mapped f = true) (hgroup : b.power.groupOn = false) :
    b.sendReady f = (b.modStep f (fun st => { st with sent := true, ready := true })).toMaster 5 (b.openStep f) (jmJobId (b.fn f).job.map)
      (((b.fn f).active.map (fun p => fld p.header 47 32)).getD 0) := by
  have hfn := State.fn_modFn b f (fun x => x.modStep fun st => { st with sent := true, ready := true })
  unfold State.sendReady
  extract_lets plan u
  have hslack : u.sendSlack f = u := if_neg fun h => absurd (hgroup.symm.trans h.1) (by decide)
  have hopen : u.openStep f = b.openStep f := by unfold State.openStep; rw [show u.fn f = _ from hfn]; rfl
  rw [if_pos hmapped, hslack, hopen, show (u.fn f).job = (b.fn f).job by rw [show u.fn f = _ from hfn]; rfl]
  rfl

/-- Settles O32: the branches of each command in turn. -/
theorem memberReports : Obligations.MemberReports := by
  unfold Obligations.MemberReports
  intro s b q d o f job msg offset st
  refine ⟨fun h => ?report, fun h hc => ?pair, fun hmaster => ?slack, fun hgroup hjob => ?shift,
    fun c hcommit hready hdec hdue hwhole => ?lost⟩
  case report =>
    have hexec := exec_reportReady_of_control h
    refine ⟨fun hw => hexec.trans (congrArg _ (if_pos hw)), fun hw hfail => ?failed, fun hw hfail hdec => ?decided,
      fun hw hfail hdec hvote hmapped => ?alone, fun hw hfail hdec hvote hmapped hgroup => ?sent⟩
    all_goals rw [if_neg (by rw [hw]; decide)] at hexec
    case failed => exact hexec.trans (congrArg _ (if_pos hfail))
    all_goals rw [if_neg (by rw [show (b.fn o.fn).step.fail = false from hfail]; decide)] at hexec
    case decided => exact hexec.trans (congrArg _ (if_pos hdec))
    all_goals rw [if_neg (by rw [show (b.fn o.fn).step.decision = none from hdec]; decide), if_neg (by rw [hvote]; decide)] at hexec
    case alone => rw [hexec, State.sendReady, if_neg (by rw [hmapped]; decide)]
    case sent => rw [hexec, sendReady_ungrouped hmapped hgroup]
  case pair => exact congrArg Host.Outcome.next ((control_issue h rfl _).trans (if_neg (not_not.mpr hc)))
  case slack => exact ⟨_, if_pos hmaster, congrArg MasterJob.slacks (SMap.get_put_same ..)⟩
  case shift => exact congrArg Host.Outcome.next (if_pos ⟨hgroup, congrArg BitVec.toNat hjob⟩)
  case lost =>
    have hexec : exec (.decideLost f) s = execDecideLost f s := rfl
    unfold execDecideLost at hexec
    dsimp only at hexec
    rw [hcommit] at hexec
    dsimp only at hexec
    rw [if_pos ⟨hready, by rw [hdec]; rfl, hdue, hwhole⟩] at hexec
    refine ⟨_, hexec, ?_, fun hnd x hx hfn => ?_⟩
    · rw [State.fn_congr ((Notices.raise ..).trans (Notices.logFn ..)).fns]
      exact (breakJob_spec _ f).1
    · rw [((Notices.raise ..).trans (Notices.logFn ..)).ops, (breakJob_spec _ f).2] at hx
      obtain ⟨hin, hout⟩ := mem_foldl_kill 1 0x87 _ hnd hx
      by_contra hr
      exact hout (List.mem_filter.mpr ⟨hin, by simpa [hfn] using hr⟩)

end Sys2Proof.Laws

/-! # What operations that end leave of a function and of the package (R20, R327, R335) -/

theorem Sys2Proof.Laws.Notices.dies {s t : Sys2Proof.Machine.State} (h : Sys2Proof.Laws.Notices s t) : t.dies = s.dies := by
  rw [h.rest]; rfl

namespace Sys2Proof.Machine

/-- A function but for its step, its job, what its caches hold and the cores it waits for. -/
def Fn.charter (x : Fn) : Fn := { x with step := StepState.reset, job := JobState.reset, lines := [], slices := [], unavailable := [] }

/-- Every function keeps its charter; the partitions and the dies stay. -/
structure CharterKept (s t : State) : Prop where
  charter : ∀ f, (t.fn f).charter = (s.fn f).charter
  parts : t.parts = s.parts
  dies : t.dies = s.dies

namespace CharterKept
open Sys2Proof.Laws (Notices)

variable {s t u : State}

theorem refl (s : State) : CharterKept s s := ⟨fun _ => rfl, rfl, rfl⟩

theorem trans (h1 : CharterKept s t) (h2 : CharterKept t u) : CharterKept s u :=
  ⟨fun f => (h2.charter f).trans (h1.charter f), h2.parts.trans h1.parts, h2.dies.trans h1.dies⟩

theorem of_eq (hf : t.fns = s.fns) (hp : t.parts = s.parts) (hd : t.dies = s.dies) : CharterKept s t :=
  ⟨fun f => congrArg Fn.charter (State.fn_congr hf f), hp, hd⟩

theorem notices (h : Notices s t) : CharterKept s t := of_eq h.fns h.parts h.dies

theorem ite {c : Prop} [Decidable c] (ht : CharterKept s t) (hu : CharterKept s u) : CharterKept s (if c then t else u) := by
  split
  · exact ht
  · exact hu

theorem foldl {α : Type} (step : State → α → State) (xs : List α) (s : State) (h : ∀ s x, CharterKept s (step s x)) :
    CharterKept s (xs.foldl step s) :=
  List.foldlRecOn xs step (refl s) fun t ht x _ => ht.trans (h t x)

theorem modFn (s : State) (f : FnId) {g : Fn → Fn} (h : ∀ x, (g x).charter = x.charter) : CharterKept s (s.modFn f g) where
  charter k := by
    by_cases hk : f = k
    · subst hk; rw [State.fn_modFn, h]
    · rw [State.modFn, State.fn_setFn_ne _ _ _ _ hk]
  parts := rfl
  dies := rfl

theorem modStep (s : State) (f : FnId) (g : StepState → StepState) : CharterKept s (s.modStep f g) := modFn s f fun _ => rfl
theorem modJob (s : State) (f : FnId) (g : JobState → JobState) : CharterKept s (s.modJob f g) := modFn s f fun _ => rfl
theorem setJob (s : State) (j : Nat) (x : MasterJob) : CharterKept s (s.setJob j x) := of_eq rfl rfl rfl
theorem modMe (s : State) (i : Nat) (g : Me → Me) : CharterKept s (s.modMe i g) := of_eq rfl rfl rfl
theorem modSlot (s : State) (i k : Nat) (g : Slot → Slot) : CharterKept s (s.modSlot i k g) := of_eq rfl rfl rfl
theorem setCtx (s : State) (c : Nat) (x : BitVec 1024) : CharterKept s (s.setCtx c x) := of_eq rfl rfl rfl
theorem setLink (s : State) (i : Nat) (x : LinkSlot) : CharterKept s (s.setLink i x) := of_eq rfl rfl rfl
theorem setPort (s : State) (p : Nat) (x : Port) : CharterKept s (s.setPort p x) := of_eq rfl rfl rfl
theorem count (s : State) (off n : Nat) : CharterKept s (s.count off n) := of_eq rfl rfl rfl
theorem raise (s : State) (page bit : Nat) : CharterKept s (s.raise page bit) := notices (.raise ..)
theorem logFn (s : State) (code : Nat) (f : FnId) (inst d0 d1 : Nat) : CharterKept s (s.logFn code f inst d0 d1) := notices (.logFn ..)

/-! ## Operations that end -/

theorem complete (s : State) (o : Op) (status cause n detail : Nat) : CharterKept s (s.complete o status cause n detail) :=
  of_eq (Notices.postRecord ..).fns (Notices.postRecord ..).parts (Notices.postRecord ..).dies

theorem kill (s : State) (o : Op) (status cause : Nat) : CharterKept s (s.kill o status cause) :=
  have hparked : CharterKept s { s with parked := (takeFirst (parkedFor o) s.parked).2 } := of_eq rfl rfl rfl
  hparked.trans (complete ..)

theorem killAll (s : State) (os : List Op) (status : Nat) : CharterKept s (s.killAll os status) := foldl _ _ _ fun s o => kill s o status 0

/-! ## Frames that go out -/

theorem sendOn (s : State) (p : Nat) (fr : Frame) : CharterKept s (s.sendOn p fr) :=
  ite (refl s) (ite (ite ((setPort ..).trans (notices (.wait ..))) (setPort ..)) (refl s))

theorem sendDown (s : State) (msg : BitVec 256) : CharterKept s (s.sendDown msg) := foldl _ _ _ fun s p => sendOn s p _

theorem sendUpTree (s : State) (msg : BitVec 256) : CharterKept s (s.sendUpTree msg) := by
  unfold State.sendUpTree; split
  · exact sendOn ..
  · exact refl s

theorem sendMgmt (s : State) (chip : Nat) (payload : List Byte) : CharterKept s (s.sendMgmt chip payload) := by
  unfold State.sendMgmt; dsimp only; split
  · exact sendOn ..
  · exact refl s

/-! ## Decisions and the step boundary -/

theorem offsetOf (s : State) (j : MasterJob) (chip : Nat) : CharterKept s (s.offsetOf j chip).2 := by
  unfold State.offsetOf; split
  · exact refl s
  · split
    · exact refl s
    · split
      · exact of_eq rfl rfl rfl
      · exact refl s

theorem shiftMember (s : State) (job chip : Nat) (w : Int) : CharterKept s (s.shiftMember job chip w) := by
  unfold State.shiftMember
  extract_lets j
  have hoff : CharterKept s (s.offsetOf j chip).2 := offsetOf ..
  generalize s.offsetOf j chip = r at hoff
  obtain ⟨old, t⟩ := r
  exact (hoff.trans (setJob ..)).trans (ite (ite (of_eq rfl rfl rfl) (refl _)) (sendMgmt ..))

theorem shiftPower (s : State) (job step : Nat) : CharterKept s (s.shiftPower job step) :=
  ite (refl s) (foldl _ _ _ fun s _ => (shiftMember s ..).trans (shiftMember ..))

theorem spoilScarf (s : State) (f : FnId) : CharterKept s (s.spoilScarf f) := by
  unfold State.spoilScarf; split
  · exact refl s
  · exact foldl _ _ _ fun _ _ => of_eq rfl rfl rfl

theorem breakJob (s : State) (f : FnId) : CharterKept s (s.breakJob f) := ite (refl s) ((modJob ..).trans (raise ..))

theorem allWatch (s : State) (f : FnId) (g : BitVec 1024 → BitVec 1024) : CharterKept s (s.allWatch f g) := by
  unfold State.allWatch; split
  · refine foldl _ _ _ fun s id => ?_
    split
    · exact of_eq rfl rfl rfl
    · exact refl s
  · exact refl s

theorem endTrainings (s : State) (f : FnId) : CharterKept s (s.endTrainings f) :=
  (foldl _ _ _ fun s _ => ite (setCtx ..) (refl s)).trans (modStep ..)

theorem endScarf (s : State) (f : FnId) : CharterKept s (s.endScarf f) := by
  unfold State.endScarf; split
  · exact refl s
  · dsimp only; split
    · exact (modJob ..).trans (complete ..)
    · exact modJob ..

theorem discardStages (s : State) (f : FnId) : CharterKept s (s.discardStages f) := (killAll ..).trans (ite (refl _) (count ..))

theorem dropLinks (s : State) (job : Nat) : CharterKept s (s.dropLinks job) :=
  ite (foldl _ _ _ fun s _ => ite (setLink ..) (refl s)) (refl s)

theorem sendHellos (s : State) : CharterKept s s.sendHellos := foldl _ _ _ fun s _ => ite (refl s) (sendOn ..)

theorem takeMap (s : State) (f : FnId) (m : BitVec 512) : CharterKept s (s.takeMap f m) :=
  ((modJob ..).trans (dropLinks ..)).trans (sendHellos _)

theorem runSave (s : State) (o : Op) (d : Desc) : CharterKept s (s.runSave o d) := by
  unfold State.runSave; dsimp only; split
  · exact complete ..
  · exact ((notices (.write ..)).trans ((modJob ..).trans (complete ..))).trans (raise ..)

theorem boundary (s : State) (f : FnId) : CharterKept s (s.boundary f) := by
  unfold State.boundary
  extract_lets t u v w job openNow x
  have hu : CharterKept s u := (modJob s ..).trans (of_eq rfl rfl rfl)
  have hv : CharterKept s v := hu.trans (modJob u ..)
  have hw : CharterKept v w := by
    subst w; split
    · exact takeMap ..
    · exact refl v
  have hx : CharterKept w x := foldl _ _ _ fun s _ => ite (setLink ..) (refl s)
  refine (hv.trans (hw.trans hx)).trans ?_
  split
  · split
    · exact runSave ..
    · exact refl x
  · exact refl x

theorem applyDecision (s : State) (f : FnId) (d : Decision) : CharterKept s (s.applyDecision f d) := by
  unfold State.applyDecision
  extract_lets job j t u ctxs v w x y u' v' w' x' y' z' e'
  have ht : CharterKept s t := setJob ..
  refine ite ?commit ?abort
  case commit =>
    have hv : CharterKept t v := (modStep t ..).trans (of_eq rfl rfl rfl)
    have hw : CharterKept v w := (endTrainings ..).trans (endScarf ..)
    exact ((ht.trans (hv.trans hw)).trans ((allWatch ..).trans (count ..))).trans ((discardStages ..).trans (boundary ..))
  case abort =>
    have hw : CharterKept t w' := ((modStep t f _).trans (endTrainings ..)).trans (allWatch ..)
    have hx : CharterKept w' x' := of_eq rfl rfl rfl
    have hz : CharterKept x' z' := ((count ..).trans (raise ..)).trans (logFn ..)
    have he : CharterKept z' e' := ite (((breakJob ..).trans (raise ..)).trans (logFn ..)) (refl z')
    exact (ht.trans (hw.trans (hx.trans (hz.trans he)))).trans (boundary ..)

theorem holdDecision (s : State) (job : Nat) (d : Decision) : CharterKept s (s.holdDecision job d) := by
  refine foldl _ _ _ fun s f => ite (refl s) ?_
  extract_lets t scarf u v w
  have hu : CharterKept t u := (of_eq rfl rfl rfl : CharterKept t { t with reduces := t.reduces.filter (fun r => decide (r.fn ≠ f)) }).trans
    (foldl _ _ _ fun s p => setPort s p _)
  have hw : CharterKept t w := ite (refl t) ((hu.trans (killAll ..)).trans (ite ((spoilScarf ..).trans (breakJob ..)) (refl v)))
  exact ((modStep s f _).trans hw).trans (ite (applyDecision ..) (refl w))

theorem decideStep (s : State) (job step : Nat) (isCommit : Bool) (cause : Nat) : CharterKept s (s.decideStep job step isCommit cause) :=
  ((setJob ..).trans (ite (shiftPower ..) (refl _))).trans (ite (sendMgmt ..) ((sendDown ..).trans (holdDecision ..)))

theorem toMaster (s : State) (kind step job arg2 : Nat) : CharterKept s (s.toMaster kind step job arg2) :=
  ite (ite (ite (refl s) ((setJob ..).trans (ite (decideStep ..) (refl _)))) (ite (refl s) (decideStep ..))) (sendUpTree ..)

/-- A failure leaves the stacks, and so do the vote and the decisions that come of it. -/
theorem fail (s : State) (o : Op) (cause detail : Nat) : CharterKept s (s.fail o cause detail) :=
  (complete ..).trans (ite (ite (refl _) ((modStep ..).trans (ite ((modStep ..).trans (toMaster ..)) (refl _)))) (refl _))

/-! ## Work that is withdrawn -/

theorem addArrival (s : State) (inst slot : Nat) (d : Desc) (a : Arrival) : CharterKept s (s.addArrival inst slot d a) :=
  (modSlot s ..).trans (ite (of_eq rfl rfl rfl) (refl _))

theorem drainRows (inst slot : Nat) (as : List Arrival) (s : State) : CharterKept s (drainRows inst slot as s) := by
  induction as generalizing s with
  | nil => exact modSlot ..
  | cons a rest ih =>
    unfold Machine.drainRows
    refine ite (modSlot ..) ?_
    split
    · exact (addArrival ..).trans (ih _)
    · exact ih s

theorem openSlot (s : State) (core inst slot : Nat) (d : Desc) : CharterKept s (s.openSlot core inst slot d) := by
  unfold State.openSlot; exact modSlot ..

theorem reopen (s : State) (inst slot : Nat) : CharterKept s (s.reopen inst slot) := by
  unfold State.reopen; dsimp only; split
  · exact refl s
  · split
    · exact modSlot ..
    · exact ((modSlot ..).trans (openSlot ..)).trans (drainRows ..)

theorem freeSlot (s : State) (inst slot : Nat) : CharterKept s (s.freeSlot inst slot) :=
  ((modSlot s inst slot _).trans (modMe _ inst _)).trans (reopen ..)

theorem forgetWork (s : State) (c : Nat) (r : OpRef) (status : Option Nat) : CharterKept s (s.forgetWork c r status) := by
  unfold State.forgetWork
  extract_lets clean t x gone u
  have hu : CharterKept s u := of_eq rfl rfl rfl
  refine hu.trans (foldl _ _ _ fun s j => ?_)
  split
  · exact kill ..
  · exact fail ..
  · exact refl s

theorem forgetTruss (s : State) (o : Op) : CharterKept s (s.forgetTruss o) := foldl _ _ _ fun s _ => modSlot s ..

theorem loseSlot (s : State) (c : Nat) (r : OpRef) : CharterKept s (s.loseSlot c r) := by
  unfold State.loseSlot; split
  · exact (ite (forgetTruss ..) (forgetWork ..)).trans (fail ..)
  · exact refl s

theorem discardOne (s : State) (x : Contents) (newest : Bool) : CharterKept s (s.discardOne x newest) := by
  unfold State.discardOne
  extract_lets k t u ended ops
  have hu : CharterKept s u := (ite (modSlot ..) (refl s)).trans (count ..)
  have hended : CharterKept u { u with heldOps := u.heldOps.filter (fun h => !h.added.contains k), ops := ops } := of_eq rfl rfl rfl
  exact hu.trans (ite (refl u) (hended.trans (freeSlot ..)))

theorem discardBy (s : State) (plan : List (Contents × Bool) × List (Nat × OpRef)) : CharterKept s (s.discardBy plan) :=
  ((foldl _ _ _ fun s _ => loseSlot s ..).trans (foldl _ _ _ fun s _ => discardOne s ..)).trans (foldl _ _ _ fun _ _ => of_eq rfl rfl rfl)

theorem cancelCore (s : State) (c status : Nat) : CharterKept s (s.cancelCore c status) := by
  refine foldl _ _ _ fun s o => ?_
  split
  · exact ite (((forgetTruss ..).trans (kill ..)).trans (discardBy ..)) ((forgetWork ..).trans (kill ..))
  · exact refl s

theorem discardCore (s : State) (c : Nat) : CharterKept s (s.discardCore c) := by
  unfold State.discardCore State.discard
  extract_lets t
  have ht : CharterKept s t := discardBy ..
  exact (ht.trans (modMe t _ _)).trans (modMe _ _ _)

/-! ## Cores that leave or take over, and pages that go -/

theorem setCell (s : State) (c : CoreId) (x : Cell) : CharterKept s (s.setCell c x) := of_eq rfl rfl rfl
theorem modCell (s : State) (c : CoreId) (g : Cell → Cell) : CharterKept s (s.modCell c g) := setCell ..
theorem setCtxs (s : State) (m : SMap (BitVec 1024)) : CharterKept s { s with ctxs := m } := of_eq rfl rfl rfl
theorem setQueue (s : State) (n : Nat) (x : Queue) : CharterKept s (s.setQueue n x) := of_eq rfl rfl rfl
theorem clearPage (s : State) (page : Nat) : CharterKept s (s.clearPage page) := of_eq rfl rfl rfl

theorem clearCore (s : State) (c : Nat) : CharterKept s (s.clearCore c) :=
  (((clearPage ..).trans (clearPage ..)).trans (clearPage ..)).trans (clearPage ..)

theorem clearFnPages (s : State) (f : Nat) : CharterKept s (s.clearFnPages f) := foldl _ _ _ clearPage

theorem prepareCore (s : State) (c : CoreId) : CharterKept s (s.prepareCore c) := by
  have h : CharterKept s ((s.scrubEngines c.val).scrubScratchpad c.val) :=
    of_eq (by simp only [State.scrubScratchpad, State.scrubEngines, State.setMe_fns, State.setTe_fns])
      (by simp only [State.scrubScratchpad, State.scrubEngines, State.setMe_parts, State.setTe_parts])
      (by simp only [State.scrubScratchpad, State.scrubEngines, State.setMe_dies, State.setTe_dies])
  exact h.trans (clearCore ..)

theorem enterService (s : State) (f : FnId) (logical : Nat) (c : CoreId) : CharterKept s (s.enterService f logical c) := by
  unfold State.enterService State.serve
  exact (prepareCore ..).trans (modCell ..)

theorem supersedeMove (s : State) (c : CoreId) : CharterKept s (s.supersedeMove c) :=
  ite ((setCell ..).trans (notices (.logEvent ..))) (refl s)

theorem storeRecord (s : State) (type scope : Nat) (payload : List Byte) : CharterKept s (s.storeRecord type scope payload) :=
  of_eq (by rw [State.storeRecord]) (by rw [State.storeRecord]) (by rw [State.storeRecord])

theorem countMapChange (s : State) : CharterKept s s.countMapChange :=
  (storeRecord s ..).trans (notices (State.countMapChange_notices s))

theorem removeCore (s : State) (c : CoreId) : CharterKept s (s.removeCore c) := by
  unfold State.removeCore
  extract_lets t x
  have ht : CharterKept s t := (((supersedeMove ..).trans (cancelCore ..)).trans (discardCore ..)).trans (clearCore ..)
  exact ht.trans (ite ((setCell t ..).trans (countMapChange _)) (setCell t ..))

theorem leaveCore (s : State) (c : CoreId) : CharterKept s (s.leaveCore c) :=
  (((supersedeMove ..).trans (cancelCore ..)).trans (discardCore ..)).trans (modCell ..)

theorem chooseCores (s : State) (f : FnId) (logical : List Nat) : CharterKept s (s.chooseCores f logical) :=
  foldl _ _ _ fun s l => by
    split
    · exact (prepareCore ..).trans (modCell ..)
    · exact refl s

theorem releasePages (s : State) (pages : List Nat) : CharterKept s (s.releasePages pages) := of_eq rfl rfl rfl

theorem dropQueues (s : State) (qs : List Nat) : CharterKept s (s.dropQueues qs) := foldl _ _ _ fun s n => setQueue s n _

/-- Cached lines and slices of a range go; nothing else of a function changes (R200). -/
theorem invalidate (s : State) (a n : Nat) : CharterKept s (s.invalidate a n) := by
  unfold State.invalidate
  split
  · exact refl s
  · extract_lets lo hi
    refine foldl _ _ _ fun s f => ?_
    extract_lets x ls ss t u
    have ht : CharterKept s t := foldl _ _ _ fun s l => by
      split
      · exact count ..
      · exact refl s
    have hu : CharterKept t u := by
      subst u; split
      · exact ite (refl t) (count ..)
      · exact refl t
    exact ite (refl s) ((ht.trans hu).trans (modFn u f fun _ => rfl))

theorem setMem (s : State) (m : List Host.Cell) (p : List Nat) : CharterKept s { s with mem := m, poison := p } := of_eq rfl rfl rfl

theorem zeroRange (s : State) (a n : Nat) : CharterKept s (s.zeroRange a n) := by
  unfold State.zeroRange
  exact (setMem s _ _).trans (invalidate ..)

end CharterKept

end Sys2Proof.Machine

/-! # Functions that are created and resized (R335 to R339, R342, R494) -/

namespace Sys2Proof.Machine

/-! ## Partitions given and taken -/

theorem State.part_setPart_eq (s : State) (p q : Nat) (x : Part) : (s.setPart p x).part q = if p = q then x else s.part q := SMap.get_put ..

theorem CharterKept.part {s t : State} (h : CharterKept s t) (p : Nat) : t.part p = s.part p := by rw [State.part, h.parts, State.part]

/-- The parts of a function that its charter fixes. -/
theorem Fn.of_charter {x y : Fn} (h : x.charter = y.charter) : x.st = y.st ∧ x.record = y.record ∧ x.sec = y.sec ∧ x.frames = y.frames
    ∧ x.resize = y.resize ∧ x.mapOp = y.mapOp :=
  ⟨show x.charter.st = y.charter.st by rw [h], show x.charter.record = y.charter.record by rw [h],
    show x.charter.sec = y.charter.sec by rw [h], show x.charter.frames = y.charter.frames by rw [h],
    show x.charter.resize = y.charter.resize by rw [h], show x.charter.mapOp = y.charter.mapOp by rw [h]⟩

/-- What changes the charter of no function. -/
theorem State.charter_foldl {step : State → Nat → State} (h : ∀ s p f, ((step s p).fn f).charter = (s.fn f).charter) (ps : List Nat)
    (s : State) (f : FnId) : ((ps.foldl step s).fn f).charter = (s.fn f).charter := by
  induction ps generalizing s with
  | nil => rfl
  | cons p ps ih => exact (ih _).trans (h s p f)

/-- A step for each of some partitions changes them alone; doing it twice is doing it once. -/
theorem State.part_foldl {step : State → Nat → State} {g : Part → Part}
    (h : ∀ s p q, (step s p).part q = if p = q then g (s.part q) else s.part q) (hg : ∀ x, g (g x) = g x) (ps : List Nat) (s : State) (q : Nat) :
    (ps.foldl step s).part q = if q ∈ ps then g (s.part q) else s.part q := by
  induction ps generalizing s with
  | nil => simp
  | cons p ps ih =>
    rw [List.foldl_cons, ih, h]
    by_cases hq : p = q
    · subst hq; simp [hg]
    · simp [hq, Ne.symm hq]

theorem State.part_giveParts (s : State) (f : FnId) (ps : List Nat) (q : Nat) :
    (s.giveParts f ps).part q = if q ∈ ps then { Part.reset with owner := some f, failed := (s.part q).failed } else s.part q :=
  part_foldl (g := fun x => { Part.reset with owner := some f, failed := x.failed }) (fun s p q => by
    rw [part_setPart_eq, (CharterKept.zeroRange s ..).part]
    by_cases hq : p = q
    · subst hq; simp
    · simp [hq]) (fun _ => rfl) ps s q

theorem State.part_tenonParts (s : State) (ps : List Nat) (q : Nat) :
    (s.tenonParts ps).part q = if q ∈ ps then { s.part q with mode := 3 } else s.part q :=
  part_foldl (g := fun x => { x with mode := 3 }) (fun s p q => by
    rw [part_setPart_eq]
    by_cases hq : p = q
    · subst hq; simp
    · simp [hq]) (fun _ => rfl) ps s q

theorem State.part_dropParts (s : State) (ps : List Nat) (q : Nat) :
    (s.dropParts ps).part q = if q ∈ ps then { s.part q with scrubbing := true } else s.part q :=
  part_foldl (g := fun x => { x with scrubbing := true }) (fun s p q => by
    rw [part_setPart_eq]
    by_cases hq : p = q
    · subst hq; simp
    · simp [hq]) (fun _ => rfl) ps s q

theorem State.charter_setPart (s : State) (p : Nat) (x : Part) (f : FnId) : ((s.setPart p x).fn f).charter = (s.fn f).charter := by
  rw [State.fn, State.setPart_fns, State.fn]

theorem State.charter_giveParts (s : State) (g : FnId) (ps : List Nat) (f : FnId) : ((s.giveParts g ps).fn f).charter = (s.fn f).charter :=
  charter_foldl (fun s _ f => (charter_setPart _ _ _ f).trans ((CharterKept.zeroRange s ..).charter f)) ps s f

theorem State.charter_tenonParts (s : State) (ps : List Nat) (f : FnId) : ((s.tenonParts ps).fn f).charter = (s.fn f).charter :=
  charter_foldl (fun _ _ f => charter_setPart _ _ _ f) ps s f

theorem State.charter_dropParts (s : State) (ps : List Nat) (f : FnId) : ((s.dropParts ps).fn f).charter = (s.fn f).charter :=
  charter_foldl (fun _ _ f => charter_setPart _ _ _ f) ps s f

theorem CharterKept.takeCores (s : State) (f : FnId) (logical : List Nat) : CharterKept s (s.takeCores f logical) :=
  foldl _ _ _ fun s l => by
    split
    · exact (enterService ..).trans (countMapChange _)
    · exact modFn s f fun _ => rfl

/-! ## A function as it is created -/

/-- A function just created: RUNNING under its record, KEY_GEN 0 and the key drawn; a session opened before goes on (R359, R355). -/
theorem State.charter_create (s : State) (f : FnId) (r : BitVec 4096) {key : Nat} (hkey : s.draw.1 % 2 ^ 512 = key) :
    ((s.create f r).fn f).charter
      = ((Fn.created r key).modSec (fun y => { y with session := (s.fn f).sec.session })).charter := by
  unfold State.create
  dsimp only
  rw [charter_tenonParts, charter_giveParts, (CharterKept.chooseCores ..).charter, State.modSec, State.fn_modFn, State.fn_setFn, hkey]
  rfl

/-- A resize that takes effect changes the record; it stands no longer (R338). -/
theorem State.charter_applyResize (s : State) (f : FnId) (r : BitVec 4096) :
    ((s.applyResize f r).fn f).charter = ({ s.fn f with record := r, resize := none } : Fn).charter := by
  unfold State.applyResize
  dsimp only
  rw [(CharterKept.dropQueues ..).charter, charter_giveParts, charter_dropParts, (CharterKept.takeCores ..).charter,
    (CharterKept.foldl _ _ _ CharterKept.removeCore).charter, State.fn_modFn]
  rfl

/-- A function just created has its partitions as SCRATCH, those of the tenon cache apart (R167, R197). -/
theorem State.part_create (s : State) (f : FnId) (r : BitVec 4096) (p : Nat) :
    let ps := setBits 64 ({ Fn.reset with record := r } : Fn).partMask
    (s.create f r).part p =
      if p ∈ ps then { Part.reset with owner := some f, failed := (s.part p).failed, mode := if p ∈ cacheParts ps then 3 else 0 }
      else s.part p := by
  intro ps
  have hmask (key : Nat) : (Fn.created r key).partMask = ({ Fn.reset with record := r } : Fn).partMask := rfl
  have hsub : p ∈ cacheParts ps → p ∈ ps := List.mem_of_mem_drop
  unfold State.create
  dsimp only
  rw [part_tenonParts, part_giveParts, (CharterKept.chooseCores ..).part, hmask]
  generalize s.draw.1 % 2 ^ 512 = key
  have hb : (((s.draw.2.clearFnPages f.val).setFn f (Fn.created r key)).modSec f
      fun y => { y with session := (s.draw.2.fn f).sec.session }).part p = s.part p := by
    rw [State.part, State.modSec, State.modFn, State.setFn_parts, State.setFn_parts, (CharterKept.clearFnPages ..).parts, State.draw, State.part]
  rw [hb]
  by_cases hp : p ∈ ps
  · by_cases hc : p ∈ cacheParts ps
    · rw [if_pos hc, if_pos hp, if_pos hp, if_pos hc]
    · rw [if_neg hc, if_pos hp, if_pos hp, if_neg hc]; rfl
  · rw [if_neg (mt hsub hp), if_neg hp, if_neg hp]

end Sys2Proof.Machine

namespace Sys2Proof.Laws
open Sys2Proof.Machine Sys2Proof.Safety

section
variable {s b : State} {q : QueueId} {d : Desc} {o : Op}

theorem exec_createFunction_of_control (h : Control s q d 0x50 o b) (hr : b.recordCause o (ctAddr d) 512 = 0) :
    exec (.createFunction q d) s = .next (
      if b.createCause (ctFn d) (b.resourceRecord o) ≠ 0 then b.faultOp o (b.createCause (ctFn d) (b.resourceRecord o))
      else (b.create (ctFn d) (b.resourceRecord o)).awaitMap o (ctFn d)) :=
  congrArg Host.Outcome.next ((control_issue h rfl _).trans (if_neg (not_not.mpr hr)))

theorem exec_resize_of_control (h : Control s q d 0x51 o b) (hr : b.recordCause o (ctAddr d) 512 = 0) :
    let f := ctFn d
    let r := b.resourceRecord o
    let x : Fn := { Fn.reset with record := r }
    exec (.resize q d) s = .next (
      if b.resizeCause f r ≠ 0 then b.faultOp o (b.resizeCause f r)
      else match firstFailing (b.admitFails f x) with
        | some p => b.refuseResize o p
        | none =>
          if b.tooSoon f (rzEffect d) then b.refuseResize o (untied 0x08 0xFFFFFFFF)
          else if b.quietUnplaced f x (x.cores - (b.fn f).cores) then b.faultOp o 0x99
          else b.acceptResize o f r) :=
  congrArg Host.Outcome.next ((control_issue h rfl _).trans (if_neg (not_not.mpr hr)))

end

/-- With no plan and no class, no share is too small (R337). -/
theorem admitFails_idle {b : State} {f : FnId} (x : Fn) (ha : (b.fn f).active = none) (hp : (b.fn f).pendingPlan = none)
    (hc : (b.fn f).classes = []) : b.admitFails f x = [] := by
  unfold State.admitFails
  simp [ha, hp, hc]

/-- The parts of a function that its creation sets, whatever completes it. -/
theorem awaitMap_spec {u : State} {o : Op} {f : FnId} : let t := u.awaitMap o f
    (∀ p, t.part p = u.part p) ∧ ∃ m, t.fn f = { u.fn f with mapOp := m } ∧ m = if (u.fn f).cores = 0 then (u.fn f).mapOp else some o.ref := by
  unfold State.awaitMap
  split
  · next h =>
    refine ⟨fun p => (CharterKept.complete ..).part p, (u.fn f).mapOp, ?_, rfl⟩
    rw [State.done, State.fn_complete]
  · next h => exact ⟨fun _ => rfl, some o.ref, State.fn_modFn .., rfl⟩

/-- Settles O37: a creation by its charter and its partitions, a resize by the outcome of its checks and of its beat. -/
theorem functionsMade : Obligations.FunctionsMade := by
  unfold Obligations.FunctionsMade
  refine ⟨fun s b q d o hr => ?asked, fun s f z o hz ho => ?due⟩
  case asked =>
    intro f r x
    refine ⟨fun h => ?create, fun h => ?resize⟩
    case create =>
      have hexec : exec (.createFunction q d) s = .next (
          if b.createCause f r ≠ 0 then b.faultOp o (b.createCause f r) else (b.create f r).awaitMap o f) := exec_createFunction_of_control h hr
      clear_value r
      refine ⟨fun hc => hexec.trans (congrArg _ (if_pos hc)), fun hc => ⟨_, hexec.trans (congrArg _ (if_neg (not_not.mpr hc))), ?_⟩⟩
      obtain ⟨hpart, m, hm, hmap⟩ := awaitMap_spec (u := b.create f r) (o := o) (f := f)
      obtain ⟨key, hkey⟩ : ∃ key, b.draw.1 % 2 ^ 512 = key := ⟨_, rfl⟩
      have hcharter := State.charter_create b f r hkey
      obtain ⟨hst, hrec, hsec, hframes, -, hmapOp⟩ := Fn.of_charter hcharter
      have hcores : ((b.create f r).fn f).cores = x.cores := by
        rw [Fn.cores, fnByte, hrec]; rfl
      have hparts (p : Nat) : ((b.create f r).awaitMap o f).part p = _ := (hpart p).trans (State.part_create b f r p)
      rw [hm]
      refine ⟨hst, hrec, congrArg SecState.keyGen hsec, (congrArg SecState.key0 hsec).trans hkey.symm, (congrArg SecState.session hsec :), hframes,
        ?mapOp, fun p hp => ?given, fun p hp => ?others⟩
      case mapOp => rw [hmap, hcores, hmapOp]; rfl
      case given => rw [hparts, if_pos hp]; exact ⟨rfl, rfl, rfl⟩
      case others => rw [hparts, if_neg hp]
    case resize =>
      have hexec := exec_resize_of_control h hr
      refine ⟨fun hc => hexec.trans (congrArg _ (if_pos hc)), fun hc ha hp hcl => ?_⟩
      have hexec := hexec.trans (congrArg _ (if_neg (not_not.mpr hc)))
      rw [admitFails_idle _ ha hp hcl] at hexec
      have hsoon : b.tooSoon f (rzEffect d) = decide (fld d 255 192 < b.beatNow + b.beat.lead) := by
        rw [State.tooSoon, ha]; rfl
      refine ⟨fun hnow => ?soon, fun hlater hplace => ?stands⟩
      case soon => exact hexec.trans (congrArg _ (if_pos (by rw [hsoon]; simpa using hnow)))
      case stands =>
        rw [if_neg (by rw [hsoon]; simpa using hlater), if_neg (by rw [hplace]; decide), State.acceptResize, (Issues_desc h.issues).1] at hexec
        exact hexec
  case due =>
    have heffect : exec (.resizeEffect f) s = if (s.fn f).active.isNone ∧ (s.fn f).mapOp.isNone ∧ z.effect.toNat ≤ s.beatNow
        then .next (s.resizeNow f) else .next s := by
      show execResizeEffect f s = _
      rw [execResizeEffect, hz]
    have hlapsed : exec (.resizeLapsed f) s = if (s.fn f).active.isSome ∧ z.effect.toNat < s.beatNow
        then .next (s.endResize f 1 0x9B) else .next s := by
      show execResizeLapsed f s = _
      rw [execResizeLapsed, hz]
    refine ⟨fun ha hm hdue => ?effect, fun hlate => heffect.trans (if_neg fun h => absurd h.2.2 (Nat.not_le.mpr hlate)),
      fun ha hdue => hlapsed.trans ?lapsed, fun hlate => hlapsed.trans (if_neg fun h => absurd h.2 (Nat.not_lt.mpr hlate))⟩
    case effect =>
      have hcharter := State.charter_applyResize s f z.record
      refine ⟨_, (s.applyResize f z.record).raiseFn f 0, heffect.trans (if_pos ⟨by rw [ha]; rfl, by rw [hm]; rfl, hdue⟩), ?_, ?_,
        State.testBit_reg_raise _ (by omega), by rw [State.resizeNow, hz]⟩
      all_goals rw [State.fn_congr (Notices.raiseFn ..).fns]
      · exact (Fn.of_charter hcharter).2.1
      · exact (Fn.of_charter hcharter).2.2.2.2.1
    case lapsed =>
      refine (if_pos ⟨Option.isSome_iff_ne_none.mpr ha, hdue⟩).trans (congrArg _ ?_)
      rw [State.endResize, hz]
      dsimp only
      rw [show (s.modFn f fun x => { x with resize := none }).op? z.op = some o from ho]
      rfl

end Sys2Proof.Laws

/-! # Functions that drain, are scrubbed and go off (R343, R372) -/

namespace Sys2Proof.Machine

theorem State.setQueue_queues (s : State) (q : Nat) (x : Queue) (m : SMap Queue) : { s.setQueue q x with queues := m } = { s with queues := m } :=
  rfl

theorem State.clearPage_regs (s : State) (page : Nat) (m : SMap Word) : { s.clearPage page with regs := m } = { s with regs := m } := rfl

/-- Queues that return to the pool: nothing else changes. -/
theorem State.dropQueues_rest (s : State) (qs : List Nat) : ∃ m, s.dropQueues qs = { s with queues := m } := by
  unfold State.dropQueues
  generalize Queue.reset = x
  induction qs generalizing s with
  | nil => exact ⟨s.queues, rfl⟩
  | cons q qs ih =>
    obtain ⟨m, hm⟩ := ih (s.setQueue q x)
    exact ⟨m, hm.trans (setQueue_queues ..)⟩

/-- The pages of a function that are cleared: nothing but registers changes. -/
theorem State.clearPages_rest (s : State) (pages : List Nat) : ∃ m, pages.foldl State.clearPage s = { s with regs := m } := by
  induction pages generalizing s with
  | nil => exact ⟨s.regs, rfl⟩
  | cons page pages ih =>
    obtain ⟨m, hm⟩ := ih (s.clearPage page)
    exact ⟨m, hm.trans (clearPage_regs ..)⟩

theorem State.st_abortFn (s : State) (f : FnId) : ((s.abortFn f).fn f).st = .aborting := by
  unfold State.abortFn
  dsimp only
  rw [State.fn_modFn]

/-- A frame that ends takes its bindings with it; of a function nothing else changes. -/
theorem State.fn_undefineFrame (s : State) (id : Nat) (f : FnId) : ∃ frames serving,
    (s.undefineFrame id).fn f = { s.fn f with frames := frames, serving := serving } := by
  unfold State.undefineFrame
  dsimp only [State.fn]
  rw [State.setFrame_fns]
  exact ⟨_, _, Vector.getElem_map ..⟩

theorem State.fn_undefineFrames (ids : List Nat) (s : State) (f : FnId) : ∃ frames serving,
    (ids.foldl State.undefineFrame s).fn f = { s.fn f with frames := frames, serving := serving } := by
  induction ids generalizing s with
  | nil => exact ⟨_, _, rfl⟩
  | cons id ids ih =>
    obtain ⟨a, b, hrest⟩ := ih (s.undefineFrame id)
    obtain ⟨c, e, hfirst⟩ := s.fn_undefineFrame id f
    exact ⟨a, b, by rw [List.foldl_cons, hrest, hfirst]⟩

/-- What is scrubbed keeps its record and whether it is confidential; its keys are zero (R368, R372). -/
theorem State.startScrub_spec (s : State) (f : FnId) : let t := s.startScrub f
    (t.fn f).st = .scrubbing ∧ (t.fn f).record = (s.fn f).record
    ∧ (t.fn f).sec = { SecState.reset with confidential := (s.fn f).sec.confidential }
    ∧ ∀ p < 64, (s.part p).owner = some f → (t.part p).scrubbing = true := by
  unfold State.startScrub
  extract_lets job cores u parts v w x y z t
  have hu : CharterKept s u := CharterKept.foldl _ _ _ fun s c => CharterKept.discardCore s c.val
  have hv : v.fn f = Fn.scrubbed (u.fn f) := State.fn_modFn ..
  have hx : x.fn f = v.fn f := (Traffic.dropLinks w job).fn f
  obtain ⟨frames, serving, hy⟩ : ∃ frames serving, y.fn f = { x.fn f with frames := frames, serving := serving } := State.fn_undefineFrames ..
  have hz : CharterKept y z := (CharterKept.releasePages ..).trans (CharterKept.setCtxs ..)
  have hcharter : (t.fn f).charter = (y.fn f).charter :=
    (State.charter_dropParts ..).trans ((hz.trans (CharterKept.foldl _ _ _ CharterKept.leaveCore)).charter f)
  obtain ⟨hst, hrec, hsec, -⟩ := Fn.of_charter hcharter
  obtain ⟨-, hrecu, hsecu, -⟩ := Fn.of_charter (hu.charter f)
  rw [hst, hrec, hsec, hy, hx, hv]
  refine ⟨rfl, hrecu, ?_, fun p hp howner => ?_⟩
  · rw [← hsecu]; rfl
  · have hmem : p ∈ parts := List.mem_filter.mpr ⟨List.mem_range.mpr hp, by rw [hu.part, howner]; exact decide_eq_true rfl⟩
    rw [State.part_dropParts, if_pos hmem]

end Sys2Proof.Machine

namespace Sys2Proof.Laws
open Sys2Proof.Machine Sys2Proof.Safety

theorem exec_disable_of_control {s b : State} {q : QueueId} {d : Desc} {o : Op} (h : Control s q d 0x55 o b) :
    let x := b.fn (ctFn d)
    exec (.disable q d) s = .next (
      if fld d 191 160 = 0 then b.faultOp o 0xC0
      else if x.st = .off ∨ x.st = .draining ∨ x.st = .aborting ∨ x.st = .scrubbing then b.faultOp o 0x90
      else b.disable o (ctFn d)) :=
  congrArg Host.Outcome.next (control_issue h rfl _)

/-- With no resize, no freeze and no cell map to wait for, a function without abort only drains (R343). -/
theorem disable_drains {b : State} {o : Op} {f : FnId} (hr : (b.fn f).resize = none) (hz : (b.fn f).freeze = none)
    (hm : (b.fn f).mapOp = none) (ha : flag o.desc 134 = false) (hs : (b.fn f).st ≠ .frozen) :
    b.disable o f = b.setFn f { b.fn f with st := .draining, disableOp := some o.ref, drainEnd := b.beatNow + fld o.desc 191 160 } := by
  unfold State.disable
  extract_lets frozen t u
  have ht : t = b := by
    have he : b.endResize f 2 0 = b := by rw [State.endResize, hr]
    have hc : b.cancelFreeze f = b := by rw [State.cancelFreeze, hz]
    have hx : b.cancelMap f = b := by rw [State.cancelMap, hm]
    subst t; rw [he, hc, hx]
  have hfrozen : frozen = false := decide_eq_false hs
  rw [ha, hfrozen]
  subst u
  rw [ht]
  rfl

theorem disable_aborts {b : State} {o : Op} {f : FnId} (h : flag o.desc 134 = true ∨ (b.fn f).st = .frozen) :
    ((b.disable o f).fn f).st = .aborting := by
  unfold State.disable
  extract_lets frozen t u
  rw [if_pos (by simpa [frozen] using h), State.st_abortFn]

/-- Settles O38: each command by the branch its guard takes; a scrub by what it keeps of the function. -/
theorem functionsDisabled : Obligations.FunctionsDisabled := by
  unfold Obligations.FunctionsDisabled
  refine ⟨fun s b q d o h => ?disable, fun s f => ?ends⟩
  case disable =>
    intro f x gone
    have hexec := exec_disable_of_control h
    have hdesc := (Issues_desc h.issues).1
    refine ⟨fun h0 => hexec.trans (congrArg _ (if_pos h0)), fun h0 hg => hexec.trans (congrArg _ ((if_neg h0).trans (if_pos hg))),
      fun h0 hg ha => ⟨_, hexec.trans (congrArg _ ((if_neg h0).trans (if_neg hg))), disable_aborts (by rwa [hdesc])⟩,
      fun h0 hg ha hs hr hz hm => hexec.trans (congrArg _ ((if_neg h0).trans ((if_neg hg).trans ?_)))⟩
    rw [disable_drains hr hz hm (by rwa [hdesc]) hs, hdesc]
  case ends =>
    intro x
    have hexpiry : exec (.drainBeatsExpiry f) s = if x.st = .draining ∧ x.drainEnd ≤ s.beatNow ∧ !(s.opsOf f).isEmpty then .next (s.abortFn f)
        else .next s := rfl
    have hscrub : exec (.functionScrubbing f) s = if (x.st = .draining ∨ x.st = .aborting) ∧ (s.opsOf f).isEmpty then .next (s.startScrub f)
        else .next s := rfl
    have hoff : exec (.functionOff f) s = execFunctionOff f s := rfl
    unfold execFunctionOff at hoff
    refine ⟨fun hs hend hops => ⟨_, hexpiry.trans (if_pos ⟨hs, hend, by simpa using hops⟩), State.st_abortFn s f⟩,
      fun hno => hexpiry.trans (if_neg ?_), fun hs hops => ⟨_, hscrub.trans (if_pos ⟨hs, by rw [hops]; rfl⟩), State.startScrub_spec s f⟩,
      fun hd ha => hscrub.trans (if_neg fun h => h.1.elim hd ha), fun r o hs hall hop ho => ?off, fun hno => hoff.trans (if_neg ?_)⟩
    · rintro ⟨hs, hend, hops⟩
      rcases hno with h | h | h
      · exact h hs
      · exact Nat.not_le.mpr h hend
      · rw [h] at hops; exact absurd hops (by decide)
    · case off =>
      extract_lets mine u at hoff
      have hmem : u.mem = s.mem ∧ u.ops = s.ops := by
        obtain ⟨m, hm⟩ := s.dropQueues_rest mine
        obtain ⟨m', hm'⟩ := (s.dropQueues mine).clearPages_rest _
        have hu : u = _ := congrArg (fun t : State => t.setFn f Fn.reset) (hm'.trans (by rw [hm]))
        rw [hu]
        exact ⟨rfl, rfl⟩
      have hfound : x.disableOp.bind u.op? = some o := by
        rw [hop, Option.bind_some, State.op?, hmem.2]; exact ho
      rw [if_pos ⟨hs, hall⟩, hfound] at hoff
      exact ⟨u, hoff, State.fn_setFn .., hmem⟩
    · rintro ⟨hs, hall⟩
      rcases hno with h | h
      · exact h hs
      · rw [h] at hall; exact absurd hall (by decide)

end Sys2Proof.Laws

/-! # Functions that are frozen, thawed and restored (R340 to R342) -/

namespace Sys2Proof.Machine
open Sys2Proof.Laws (Notices)

/-! ## What freezing and restoring leave of a function -/

namespace CharterKept

theorem setPage (s : State) (p : Nat) (e : BitVec 64) : CharterKept s (s.setPage p e) := of_eq rfl rfl rfl
theorem setFrame (s : State) (i : Nat) (x : FrameState) : CharterKept s (s.setFrame i x) := of_eq rfl rfl rfl
theorem setTe (s : State) (i : Nat) (x : Te) : CharterKept s (s.setTe i x) := of_eq rfl rfl rfl
theorem write (s : State) (a : Nat) (bs : List Byte) : CharterKept s (s.write a bs) := notices (.write ..)
theorem addOp (s : State) (o : Op) : CharterKept s (s.addOp o) := of_eq rfl rfl rfl
theorem traffic {s t : State} (h : Traffic s t) : CharterKept s t := of_eq h.fns (by rw [h.rest]) (by rw [h.rest])

theorem vote (s : State) (f : FnId) (cause : Nat) : CharterKept s (s.vote f cause) := ite ((modStep ..).trans (toMaster ..)) (refl s)

theorem withdrawSave (s : State) (f : FnId) : CharterKept s (s.withdrawSave f) := by
  unfold State.withdrawSave; split
  · exact refl s
  · exact (modJob s f _).trans (of_eq rfl rfl rfl)

theorem bindMortises (s : State) (frame ctx : Nat) (cs : List Claim) : CharterKept s (s.bindMortises frame ctx cs) := setFrame s frame _

theorem putCtxs (s : State) (first : Nat) (bs : List Byte) : CharterKept s (s.putCtxs first bs) :=
  foldl _ _ _ fun _ _ => ite ((setCtx ..).trans (bindMortises ..)) (setCtx ..)

theorem putBanks (s : State) (c : CoreId) (st : Nat) (bs : List Byte) : CharterKept s (s.putBanks c st bs) := by
  unfold State.putBanks
  extract_lets bank t u v
  exact ((modMe s _ _).trans (modMe u _ _)).trans (setTe v _ _)

theorem mapPages (s : State) (ps : List Nat) (g : BitVec 64 → BitVec 64) : CharterKept s (s.mapPages ps g) :=
  foldl _ _ _ fun s p => setPage s p _

theorem putPart (s : State) (f : FnId) (cb : List Byte) (own : Bool) (p : Part2) : CharterKept s (s.putPart f cb own p) := by
  unfold State.putPart
  extract_lets bs pages t
  split
  · split
    · exact write ..
    · exact refl s
  · split
    · exact putBanks ..
    · exact refl s
  · exact write ..
  · exact putCtxs ..
  · have ht : CharterKept s t := ite (refl s) (mapPages ..)
    exact ht.trans (write ..)
  · exact refl s

theorem readDesc (s : State) (n : QueueId) : CharterKept s (s.readDesc n) := by
  unfold State.readDesc
  extract_lets q d o' o t c
  have ht : CharterKept s t := (setQueue s ..).trans (addOp ..)
  exact ite (ht.trans (complete ..)) ht

theorem readDescs (s : State) (n : QueueId) (fuel : Nat) : CharterKept s (s.readDescs n fuel) := by
  induction fuel generalizing s with
  | zero => exact refl s
  | succ fuel ih => exact ite (refl s) (ite ((notices (.wait ..)).trans (notices (.blame ..))) ((readDesc ..).trans (ih _)))

theorem watch (s : State) (n : QueueId) : CharterKept s (s.watch n) := ite (readDescs ..) ((readDescs ..).trans (write ..))

theorem stopQueue (s : State) (n : QueueId) (beyond : Nat) : CharterKept s (s.stopQueue n beyond) :=
  ((setQueue ..).trans (notices (.logEvent ..))).trans (((count ..).trans (raise ..)).trans (notices (.pageError ..)))

theorem seeTail (s : State) (n : QueueId) : CharterKept s (s.seeTail n) :=
  ite (refl s) (ite (stopQueue ..) ((setQueue ..).trans (watch ..)))

theorem putQueue (s : State) (f : FnId) (v : Nat) (withdrawn : List Desc) : CharterKept s (s.putQueue f v withdrawn) := by
  unfold State.putQueue
  extract_lets r n head q
  exact (setQueue ..).trans (foldl _ _ _ fun s _ => addOp s _)

theorem putQueues (f : FnId) (cb : List Byte) (vs : List Nat) (s : State) (off : Nat) : CharterKept s (s.putQueues f cb vs off) := by
  induction vs generalizing s off with
  | nil => exact refl s
  | cons v vs ih => exact (putQueue ..).trans (ih _ _)

theorem sendJobReg (s : State) (m : BitVec 512) (remove : Bool) : CharterKept s (s.sendJobReg m remove) := by
  have hreg (u : State) (msg : Nat) : CharterKept u (u.onJobReg msg) := ite (setJob ..) (ite (refl u) (setJob ..))
  exact (ite (hreg ..) (refl s)).trans (foldl _ _ _ fun s c => traffic (.sendMgmt ..))

end CharterKept

theorem Fn.charter_caches (x : Fn) (ls : List Nat) (ss : List Slice) : ({ x with lines := ls, slices := ss } : Fn).charter = x.charter := rfl

theorem State.charter_setPartMode (s : State) (g : FnId) (p mode : Nat) (f : FnId) :
    ((s.setPartMode g p mode).fn f).charter = (s.fn f).charter := by
  unfold State.setPartMode
  extract_lets old t u
  have ht : (t.fn f).charter = (s.fn f).charter := by
    subst t
    rw [charter_setPart, (CharterKept.zeroRange ..).charter]
  have hu : (u.fn f).charter = (t.fn f).charter := 
    (CharterKept.modFn t g fun x => Fn.charter_caches x _ _).charter f
  split
  · exact hu.trans ht
  · exact ((CharterKept.raise u ..).charter f).trans (hu.trans ht)

theorem State.charter_putModes (s : State) (g : FnId) (cb : List Byte) (f : FnId) : ((s.putModes g cb).fn f).charter = (s.fn f).charter :=
  charter_foldl (fun s p f => by
    split
    · exact charter_setPartMode ..
    · rfl) _ s f

/-- A function that begins to freeze. -/
theorem State.startFreeze_spec (s : State) (o : Op) (f : FnId) : ∃ z : FreezeState, z.base = ctAddr o.desc
    ∧ ((s.startFreeze o f).fn f).charter = ({ s.fn f with st := .freezing, freeze := some z } : Fn).charter
    ∧ ∀ i < 8, memByte (s.startFreeze o f).mem (ctAddr o.desc + 248 + i) = 0 := by
  unfold State.startFreeze
  extract_lets x z t u
  have ht : (t.fn f).charter = ({ s.fn f with st := .freezing, freeze := some z } : Fn).charter := by
    rw [State.fn_congr (Notices.raiseFn ..).fns, State.fn_modFn]
  have hu : CharterKept t u := CharterKept.ite (CharterKept.vote ..) (CharterKept.refl t)
  have hw : CharterKept u (u.withdrawSave f) := CharterKept.withdrawSave ..
  refine ⟨z, rfl, ?_, fun i hi => ?_⟩
  · rw [(CharterKept.write ..).charter, hw.charter, hu.charter, ht]
  · rw [State.write_mem]
    exact (memByte_write_in _ _ (List.replicate 8 0) i hi).trans (List.getElem_replicate ..)

theorem Fn.freeze_of_charter {x y : Fn} (h : x.charter = y.charter) : x.freeze = y.freeze := show x.charter.freeze = y.charter.freeze by rw [h]

theorem Fn.seed_of_charter {x y : Fn} (h : x.charter = y.charter) : x.seed = y.seed := show x.charter.seed = y.charter.seed by rw [h]

theorem State.writeImage_spec (s : State) (f : FnId) (z : FreezeState) (g : FnId) :
    (s.writeImage f z).fn g = s.fn g ∧ (s.writeImage f z).heldOps = s.heldOps := by
  unfold State.writeImage
  dsimp only
  generalize s.fresh + 2 * 65536 * (s.fn f).cores = n
  rw [State.fn, State.write_fns, State.write_heldOps]
  exact ⟨rfl, rfl⟩

/-- A freeze ends with the function frozen, its image written, and none of its slots open (R340). -/
theorem State.finishFreeze_spec (s : State) (o : Op) (f : FnId) (z : FreezeState) : ∃ v : State, s.finishFreeze o f z = v.done o
    ∧ (v.fn f).st = .frozen ∧ (v.fn f).freeze.map (·.base) = some z.base ∧ ∀ h ∈ v.heldOps, h.fn ≠ f := by
  unfold State.finishFreeze
  extract_lets cores z' t u v
  have hv : v.fn f = { u.fn f with st := .frozen, freeze := some z' } := State.fn_modFn ..
  have hw (x : FreezeState) : ((v.writeImage f x).fn f) = v.fn f ∧ (v.writeImage f x).heldOps = v.heldOps := v.writeImage_spec f x f
  refine ⟨_, rfl, ?_, ?_, fun h hh => ?_⟩
  · rw [(hw z').1, hv]
  · rw [(hw z').1, hv]; rfl
  · rw [(hw z').2] at hh
    exact of_decide_eq_true (List.mem_filter.mp hh).2

/-- What an image gives a function of these, whatever it held; its keys and its session stay. -/
theorem Fn.from_spec (x : Fn) (cb : List Byte) (ih : Nat) (ps : List Part2) (resume : Nat) (g : SecState → SecState) :
    let y := (x.from cb ih ps resume).modSec g
    y.st = .running ∧ y.seed = BitVec.ofNat 64 (field ih 319 256) ∧ y.freeze = none ∧ y.sec = g x.sec := by
  unfold Fn.from
  exact ⟨rfl, rfl, rfl, rfl⟩

/-- A function as a restore leaves it: RUNNING with the image's seed; no freeze stands, and the staged key is used up (R342). -/
theorem State.restoreFn_spec (s : State) (f : FnId) (h : Nat) (ps : List Part2) (own : Bool) (key : Option Nat) (resume : Nat) :
    let x := (s.restoreFn f h ps own key resume).fn f
    x.st = .running ∧ x.seed = BitVec.ofNat 64 (field h 319 256) ∧ x.freeze = none ∧ x.sec.stagedKey = none := by
  unfold State.restoreFn
  extract_lets cb r t u v w y z vs a x
  have ht : (t.fn f).sec.stagedKey = none := by
    have hmodes := (Fn.of_charter (State.charter_putModes (s.takeBack f r own key) f cb f)).2.2.1
    rw [show (t.fn f).sec = _ from hmodes, State.takeBack, State.modSec, State.fn_modFn]
    rfl
  have hv : v.fn f = ((t.fn f).from cb h ps resume).modSec (fun x => { x with confidential := x.confidential || (headOf cb).testBit 83 }) := by
    rw [show v.fn f = _ from State.fn_modFn .., show u.fn f = _ from State.fn_modFn ..]
  have hy : CharterKept v y := (CharterKept.foldl _ _ _ fun s p => CharterKept.putPart s f cb own p).trans (CharterKept.modJob ..)
  have hz : CharterKept y z := CharterKept.ite ((CharterKept.sendJobReg ..).trans (CharterKept.traffic (.sendHellos _))) (CharterKept.refl y)
  have ha : CharterKept z a := CharterKept.putQueues ..
  have hx : x.charter = (v.fn f).charter :=
    (((hy.trans hz).trans ha).trans (CharterKept.foldl _ _ _ fun s v => CharterKept.seeTail s _)).charter f
  obtain ⟨hst, -, hsec, -⟩ := Fn.of_charter hx
  obtain ⟨hst', hseed, hfreeze, hsec'⟩ :=
    Fn.from_spec (t.fn f) cb h ps resume (fun x => { x with confidential := x.confidential || (headOf cb).testBit 83 })
  rw [hst, Fn.seed_of_charter hx, Fn.freeze_of_charter hx, hsec, hv, hsec']
  generalize t.fn f = x' at ht hst' hseed hfreeze ⊢
  exact ⟨hst', hseed, hfreeze, ht⟩

end Sys2Proof.Machine

namespace Sys2Proof.Laws
open Sys2Proof.Machine Sys2Proof.Safety

section
variable {s b : State} {q : QueueId} {d : Desc} {o : Op}

theorem exec_freeze_of_control (h : Control s q d 0x52 o b) (hz : (b.fn (ctFn d)).freeze = none) :
    let f := ctFn d
    let u := b.startFreeze o f
    exec (.freeze q d) s = .next (
      if b.freezeCause o f ≠ 0 then b.faultOp o (b.freezeCause o f)
      else match (u.fn f).freeze with
        | none => u.done o
        | some z => if u.freezeWaits f then u.park (.freeze q d) o else u.finishFreeze o f z) := by
  refine (congrArg Host.Outcome.next (control_issue h rfl _)).trans ?_
  dsimp only
  rw [hz, Option.filter_none]
  simp only [Option.isNone_none, Bool.true_and, decide_eq_true_eq, Option.isSome_none, Bool.false_eq_true, if_false]
    <;> rfl

theorem exec_thaw_of_control (h : Control s q d 0x53 o b) :
    let x := b.fn (ctFn d)
    exec (.thaw q d) s = .next (
      if x.st ≠ .frozen then b.faultOp o 0x90
      else if fld d 255 192 < b.beatNow + b.beat.lead then b.faultOp o 0xC0
      else (b.setFn (ctFn d) { x with
        st := .running, freeze := none, active := x.active.map (fun p => p.resumeAt (fld d 255 192)) }).done o) :=
  congrArg Host.Outcome.next (control_issue h rfl _)

end

/-- Settles O39: a freeze by how it begins and ends, a thaw by its checks, a restore by the function it makes. -/
theorem freezeAndRestore : Obligations.FreezeAndRestore := by
  unfold Obligations.FreezeAndRestore
  intro s b q d o f x
  refine ⟨fun h hz => ?freeze, fun h => ?thaw, fun h hr => ?restore⟩
  case freeze =>
    have hexec := exec_freeze_of_control h hz
    refine ⟨fun hc => hexec.trans (congrArg _ (if_pos hc)), fun hc => ?_⟩
    intro u
    obtain ⟨z, hbase, hcharter, hcommit⟩ := State.startFreeze_spec b o f
    have hexec := hexec.trans (congrArg _ (if_neg (not_not.mpr hc)))
    have hfz : ((b.startFreeze o f).fn f).freeze = some z := Fn.freeze_of_charter hcharter
    rw [hfz] at hexec
    rw [(Issues_desc h.issues).1] at hbase hcommit
    refine ⟨hcommit, fun hw => ⟨hexec.trans (congrArg _ (if_pos hw)), (Fn.of_charter hcharter).1⟩, fun hw => ?_⟩
    obtain ⟨v, hv, hst, hfreeze, hheld⟩ := u.finishFreeze_spec o f z
    exact ⟨v, hexec.trans (congrArg _ ((if_neg (by rw [hw]; decide)).trans hv)), hst, hbase ▸ hfreeze, hheld⟩
  case thaw =>
    have hexec := exec_thaw_of_control h
    refine ⟨fun hs => hexec.trans (congrArg _ (if_pos hs)), fun hs hb => hexec.trans (congrArg _ ((if_neg (not_not.mpr hs)).trans (if_pos hb))),
      fun hs hb => hexec.trans (congrArg _ ((if_neg (not_not.mpr hs)).trans (if_neg (Nat.not_lt.mpr hb))))⟩
  case restore =>
    intro m hm ps y
    have hexec : exec (.restore q d) s = .next (
        if b.restoreFnCause f (ctAddr d) m ps y ≠ 0 then b.faultOp o (b.restoreFnCause f (ctAddr d) m ps y)
        else match b.readmit f y (fld d 255 192) with
          | some p => b.complete o 1 0x98 0 (packDetail [(8, p.2.1)])
          | none => if b.ownFrozen f (ctAddr d) m then (b.restoreFn f m ps (b.ownFrozen f (ctAddr d) m) _ (fld d 255 192)).done o
            else (b.restoreFn f m ps (b.ownFrozen f (ctAddr d) m) _ (fld d 255 192)).awaitMap o f) :=
      congrArg Host.Outcome.next ((control_issue h rfl _).trans ((if_neg (not_not.mpr hr)).trans (if_neg fun hbad => hbad.2 hm)))
    refine ⟨fun hc => hexec.trans (congrArg _ (if_pos hc)), fun hc hadmit => ?_⟩
    rw [if_neg (not_not.mpr hc), hadmit] at hexec
    obtain ⟨hst, hseed, hfreeze, hkey⟩ := State.restoreFn_spec b f m ps (b.ownFrozen f (ctAddr d) m)
      (x.sec.stagedKey.or (if x.st = .frozen then x.sec.imageKey else none)) (fld d 255 192)
    cases hown : b.ownFrozen f (ctAddr d) m with
    | true =>
      refine ⟨_, hexec.trans (congrArg _ (if_pos hown)), ?_⟩
      rw [State.done, State.fn_complete]
      exact ⟨hst, hseed, hfreeze, hkey⟩
    | false =>
      refine ⟨_, hexec.trans (congrArg _ (if_neg (by rw [hown]; decide))), ?_⟩
      obtain ⟨-, mapOp, hm, -⟩ := awaitMap_spec (u := b.restoreFn f m ps (b.ownFrozen f (ctAddr d) m)
        (x.sec.stagedKey.or (if x.st = .frozen then x.sec.imageKey else none)) (fld d 255 192)) (o := o) (f := f)
      rw [hm]
      exact ⟨hst, hseed, hfreeze, hkey⟩

end Sys2Proof.Laws

/-! # Checkpoints (R299 to R301) -/

namespace Sys2Proof.Laws
open Sys2Proof.Machine Sys2Proof.Safety

theorem Notices.scramble (s : State) (a n : Nat) : Notices s (s.scramble a n) := ⟨rfl, State.write_wf s a _⟩

theorem Notices.loadWatch (s : State) (f : FnId) (first n base : Nat) : Notices s (s.loadWatch f first n base) :=
  Notices.foldl _ _ _ fun t i => by
    split
    · exact Notices.write ..
    · exact Notices.refl t

section
variable {s b : State} {q : QueueId} {d : Desc} {o : Op} {c : CoreId}

/-- The regions that a save or a restore names in the scratchpad of a core. -/
def regionsOf (b : State) (c : CoreId) (d : Desc) : List (Nat × Nat × Nat) := b.regionList (spKey c.val (ckOff d)) (ckRegions d)

theorem exec_saveCheckpoint_of_control (hcore : OnCore b o c) (h : Control s q d 0x43 o b) (hc : b.saveCause o (regionsOf b c d) = 0) :
    exec (.saveCheckpoint q d) s = .next (
      if b.stepOpen o.fn then
        if (b.fn o.fn).job.save.isSome then b.park (.saveCheckpoint q d) o else b.modJob o.fn (fun j => { j with save := some (o.ref, d) })
      else b.runSave o d) :=
  congrArg Host.Outcome.next ((issueOnCore_of h.issues hcore rfl h.cls h.op rfl _).trans (if_neg (not_not.mpr hc)))

theorem exec_restoreCheckpoint_of_control (hcore : OnCore b o c) (h : Control s q d 0x44 o b)
    (hc : b.restoreCause o (regionsOf b c d) = 0)
    (hhold : b.decideHold o.fn ((regionsOf b c d).map (fun x => (x.1, x.2.1))) = false) :
    exec (.restoreCheckpoint q d) s = .next (b.runRestore o (regionsOf b c d)) :=
  congrArg Host.Outcome.next ((issueOnCore_of h.issues hcore rfl h.cls h.op rfl _).trans
    ((if_neg (not_not.mpr hc)).trans (if_neg (ne_true_of_eq_false hhold))))

/-- A save at once writes the record and keeps the step it was taken at (R299). -/
theorem runSave_spec (hcore : b.phys? o.fn (hdCore d) = some c) : ∃ u : State, b.runSave o d = (u.done o).raise (pageJobf o.fn.val) 2
    ∧ u.mem = memWrite b.mem (ctAddr d) (b.checkpointBytes o.fn (regionsOf b c d) (fld d 175 164) (fld d 188 176))
    ∧ (u.fn o.fn).job = { (b.fn o.fn).job with ckptStep := (b.fn o.fn).step.step, save := none } ∧ u.ops = b.ops := by
  unfold State.runSave
  dsimp only
  rw [hcore, regionsOf]
  dsimp only
  generalize b.checkpointBytes _ _ _ _ = bytes
  exact ⟨_, rfl, rfl, State.job_modJob .., rfl⟩

end

/-- What a restore makes of its function (R301). -/
theorem restored_spec (s : State) (f : FnId) (h : Nat) : let x := (s.restored f h).fn f
    x.step = { (s.fn f).step with step := BitVec.ofNat 64 (chStep h), epoch := false } ∧ x.seed = BitVec.ofNat 64 (field h 191 128)
    ∧ x.job = (if (s.fn f).job.st = 3 ∧ (s.fn f).job.remapped = true
        then { (s.fn f).job with st := if jmJobId (s.fn f).job.map = 0 then 0 else 1 } else (s.fn f).job)
    ∧ (s.restored f h).mem = s.mem := by
  unfold State.restored
  extract_lets t u x
  have hx : x = _ := State.fn_modFn ..
  have hu : u.fn f = { t.fn f with seed := BitVec.ofNat 64 (field h 191 128) } := State.fn_modFn ..
  have ht : t.fn f = (s.fn f).modStep (fun st => { st with step := BitVec.ofNat 64 (chStep h), epoch := false }) := State.fn_modFn ..
  rw [hx, hu, ht]
  exact ⟨rfl, rfl, rfl, rfl⟩

/-- Settles O34: a save by whether a step is open, a restore by whether its regions and its digest agree. -/
theorem checkpoints : Obligations.Checkpoints := by
  unfold Obligations.Checkpoints
  intro s b q d o c hcore f list
  refine ⟨fun h hc => ?save, fun h hc hhold => ?restore⟩
  case save =>
    have hexec := exec_saveCheckpoint_of_control hcore h hc
    refine ⟨fun hopen => ?now, fun hopen hnone => ?later⟩
    case now =>
      have hphys : b.phys? o.fn (hdCore d) = some c := (Issues_desc h.issues).1 ▸ hcore.core
      obtain ⟨u, hu, hmem, hjob, hops⟩ := runSave_spec hphys
      exact ⟨u, hexec.trans (congrArg _ ((if_neg (by rw [show b.stepOpen o.fn = false from hopen]; decide)).trans hu)), hmem, hjob, hops⟩
    case later =>
      exact hexec.trans (congrArg _ ((if_pos hopen).trans (if_neg (by rw [show (b.fn o.fn).job.save = none from hnone]; decide))))
  case restore =>
    intro base h' es bodies good j
    have hexec := exec_restoreCheckpoint_of_control hcore h hc hhold
    have hdesc := (Issues_desc h.issues).1
    unfold State.runRestore at hexec
    rw [hdesc] at hexec
    extract_lets f1 base1 h1 n1 es1 bodies1 rest1 good1 t u at hexec
    have hgood : good1 = true ↔ good := by
      simp only [good1, good, Bool.and_eq_true, List.all_eq_true, decide_eq_true_eq]
      rfl
    refine ⟨fun hg => ?good, fun hg => ?bad⟩
    case good =>
      have ht : Notices b t := Notices.foldl _ _ _ fun s x => Notices.foldl _ _ _ fun s a => Notices.write ..
      have hu : Notices t u := Notices.ite (Notices.loadWatch ..) (Notices.refl t)
      have hfn : u.fn f = b.fn f := State.fn_congr (ht.trans hu).fns f
      obtain ⟨hstep, hseed, hjob, hmem⟩ := restored_spec u f h'
      rw [hfn] at hstep hjob
      refine ⟨u.restored f h', hexec.trans (congrArg _ (if_neg ?_)), hstep, hseed, hjob, fun hw => hmem.trans ?_⟩
      · rw [hgood.mpr hg]; decide
      · have hnone : u = t := if_neg (by rw [hw]; decide)
        rw [hnone]
        rfl
    case bad =>
      have hv : Notices b _ := Notices.foldl (fun (t : State) (x : Nat × Nat × Nat) => (b.bothSides f x.1).foldl (fun t a => t.scramble a x.2.1) t)
        list b fun s x => Notices.foldl _ _ _ fun s a => Notices.scramble ..
      exact ⟨_, hexec.trans (congrArg _ (if_pos (by simpa using mt hgood.mp hg))), hv.fns, hv.ops⟩

end Sys2Proof.Laws

/-! # Keys and their sweep (R359 to R361, R365, R368, Table 15-3) -/

namespace Sys2Proof.Machine
open Sys2Proof.Laws (Notices)

/-- The pages a sweep has still to visit are told by the directory and the generation of the key. -/
theorem State.sweepLeft_congr {s t : State} {f : FnId} (hd : t.dir = s.dir) (hg : (t.fn f).sec.keyGen = (s.fn f).sec.keyGen) :
    t.sweepLeft f = s.sweepLeft f := by
  rw [State.sweepLeft, State.sweepLeft, hd, hg]

/-- The key of a function's present generation. -/
def SecState.key (x : SecState) : Nat := if x.keyGen.toNat % 2 = 0 then x.key0 else x.key1

/-- What the end of a sweep does, where its last page is done; before, nothing (R361). -/
theorem State.endSweep_spec (s : State) (f : FnId) : let t := s.endSweep f
    t.dir = s.dir ∧ t.ops = s.ops ∧ (t.fn f).sec.keyGen = (s.fn f).sec.keyGen ∧ (t.fn f).sec.key = (s.fn f).sec.key
    ∧ ((s.fn f).sec.sweep = true → (t.fn f).sec.sweep = !(t.sweepLeft f).isEmpty) := by
  intro t
  by_cases h : ((s.fn f).sec.sweep && (s.sweepLeft f).isEmpty) = true
  case neg =>
    have ht : t = s := if_neg h
    rw [ht]
    refine ⟨rfl, rfl, rfl, rfl, fun hs => ?_⟩
    rw [hs, Bool.true_and, Bool.not_eq_true] at h
    rw [hs, h, Bool.not_false]
  case pos =>
    obtain ⟨u, hu, hdir, hops, hfn⟩ : ∃ u : State, t = u.raise pageSec 0 ∧ u.dir = s.dir ∧ u.ops = s.ops
        ∧ u.fn f = (s.fn f).modSec (fun x => if (s.fn f).sec.keyGen.toNat % 2 = 0 then { x with sweep := false, key1 := 0 }
          else { x with sweep := false, key0 := 0 }) := ⟨_, if_pos h, rfl, rfl, State.fn_modFn ..⟩
    have hn : Notices u t := hu ▸ Notices.raise ..
    have hsec : (t.fn f).sec = if (s.fn f).sec.keyGen.toNat % 2 = 0 then { (s.fn f).sec with sweep := false, key1 := 0 }
        else { (s.fn f).sec with sweep := false, key0 := 0 } := by rw [State.fn_congr hn.fns, hfn]; rfl
    have hgen : (t.fn f).sec.keyGen = (s.fn f).sec.keyGen := by rw [hsec]; split <;> rfl
    have hd : t.dir = s.dir := hn.dir.trans hdir
    refine ⟨hd, hn.ops.trans hops, hgen, ?_, fun _ => ?_⟩
    · rw [SecState.key, hgen, hsec, SecState.key]
      split <;> rfl
    · rw [sweepLeft_congr hd hgen, ((Bool.and_eq_true ..).mp h).2, hsec]
      split <;> rfl

/-- A rotation takes the next generation, puts the key into the slot of its parity, and leaves a sweep where pages are under the old
key (R359, R360). -/
theorem State.rotate_spec (s : State) (f : FnId) (key : Nat) : let t := s.rotate f key
    (t.fn f).sec.keyGen = (s.fn f).sec.keyGen + 1 ∧ t.dir = s.dir ∧ t.ops = s.ops
    ∧ (if ((s.fn f).sec.keyGen + 1).toNat % 2 = 0 then (t.fn f).sec.key0 else (t.fn f).sec.key1) = key
    ∧ (t.fn f).sec.sweep = !(t.sweepLeft f).isEmpty := by
  unfold State.rotate
  extract_lets g t
  obtain ⟨u, ht, hdir, hops, hsec⟩ : ∃ u : State, t = u.endSweep f ∧ u.dir = s.dir ∧ u.ops = s.ops
      ∧ (u.fn f).sec = if g.toNat % 2 = 0 then { (s.fn f).sec with keyGen := g, key0 := key, sweep := true }
        else { (s.fn f).sec with keyGen := g, key1 := key, sweep := true } :=
    ⟨_, rfl, rfl, rfl, congrArg Fn.sec (State.fn_modFn ..)⟩
  have hgen : (u.fn f).sec.keyGen = g := by rw [hsec]; split <;> rfl
  have hsweep : (u.fn f).sec.sweep = true := by rw [hsec]; split <;> rfl
  have hkey : (u.fn f).sec.key = key := by
    rw [SecState.key, hgen, hsec]
    split <;> rfl
  obtain ⟨hd, ho, hg, hk, hs⟩ := u.endSweep_spec f
  rw [← ht] at hd ho hg hk hs
  refine ⟨hg.trans hgen, hd.trans hdir, ho.trans hops, ?_, hs hsweep⟩
  rw [SecState.key, hg, hgen] at hk
  exact hk.trans hkey

end Sys2Proof.Machine

namespace Sys2Proof.Laws
open Sys2Proof.Machine Sys2Proof.Safety

section
variable {s b : State} {q : QueueId} {d : Desc} {o : Op} {f : FnId}

/-- The causes of a rotation stand in rising order, so the first check that fails gives the cause. -/
theorem rotate_cause (gone busy confidential : Bool) :
    lowestCause [(gone, 0x90), (busy, 0xA0), (confidential, 0xA5)]
      = if gone then 0x90 else if busy then 0xA0 else if confidential then 0xA5 else 0 := by
  cases gone <;> cases busy <;> cases confidential <;> rfl

theorem exec_rotateKey_of_control (h : Control s q d 0x66 o b) :
    exec (.rotateKey q d) s = .next (
      if (b.fn (ctFn d)).st = .off ∨ (b.fn (ctFn d)).st = .scrubbing then b.faultOp o 0x90
      else if (b.fn (ctFn d)).sec.sweep then b.faultOp o 0xA0
      else if (b.fn (ctFn d)).sec.confidential then b.faultOp o 0xA5
      else (b.draw.2.rotate (ctFn d) (b.draw.1 % 2 ^ 512)).done o) := by
  refine (congrArg Host.Outcome.next (control_issue h rfl _)).trans (congrArg _ ?_)
  dsimp only
  simp only [rotate_cause, Bool.or_eq_true, decide_eq_true_eq]
  split
  · rfl
  · split
    · rfl
    · split <;> rfl

/-- Without an open channel no message is taken (R357). -/
theorem exec_message_unopened (h : s.channelOpened f = false) (key : BitVec 512) (image : BitVec 256) (job : Word) (activation : BitVec 64)
    (slot : Fin 4) : exec (.memKey f key) s = .next s ∧ exec (.imageKey f image) s = .next s
      ∧ exec (.linkKey f job activation image) s = .next s ∧ exec (.linkDrop f job slot) s = .next s ∧ exec (.confidential f) s = .next s := by
  have hno : ¬s.channelOpened f = true := by rw [h]; decide
  exact ⟨if_neg fun h => hno h.1, if_neg hno, if_neg fun h => hno h.1, if_neg fun h => hno h.1, if_neg fun h => hno h.1⟩

/-- A link slot is dropped where a newer one of the job stands beside it (R365). -/
theorem takeLinkDrop_of_newer {job : Word} {slot : Fin 4} (hm : s.mapped f = true) (hj : jmJobId (s.fn f).job.map = job.toNat)
    (hl : (s.link slot.val).job = job)
    (hnewer : ∃ i < 4, i ≠ slot.val ∧ (s.link i).job = job ∧ (s.link slot.val).activation ≤ (s.link i).activation) :
    s.takeLinkDrop f job.toNat slot.val = (0, s.setLink slot.val LinkSlot.reset) := by
  obtain ⟨i, hi, hne, hjob, hact⟩ := hnewer
  have hany : ((List.range 4).any fun i => decide (i ≠ slot.val) && decide ((s.link i).job = (s.link slot.val).job)
      && decide ((s.link slot.val).activation ≤ (s.link i).activation)) = true :=
    List.any_eq_true.mpr ⟨i, List.mem_range.mpr hi, by simp [hne, hjob, hl, hact]⟩
  refine if_neg ?_
  rw [hany, hm, hj, hl]
  simp

end

/-- Settles O43: a rotation by its first failing check and by what it leaves; a swept page by its references; a message by its guard. -/
theorem keysTaken : Obligations.KeysTaken := by
  unfold Obligations.KeysTaken
  refine ⟨fun s b q d o h => ?rotate, fun s f key image job activation slot page => ?messages⟩
  case rotate =>
    intro f x
    have hexec := exec_rotateKey_of_control h
    rw [show b.fn (ctFn d) = x from rfl] at hexec
    refine ⟨fun hs => hexec.trans (congrArg _ (if_pos hs)), fun h1 h2 hs => ?_, fun h1 h2 hs hc => ?_, fun h1 h2 hs hc => ?_⟩
    all_goals rw [if_neg (not_or.mpr ⟨h1, h2⟩)] at hexec
    · exact hexec.trans (congrArg _ (if_pos hs))
    · exact hexec.trans (congrArg _ ((if_neg (ne_true_of_eq_false hs)).trans (if_pos hc)))
    · obtain ⟨hgen, hdir, -, hkey, hsweep⟩ := b.draw.2.rotate_spec f (b.draw.1 % 2 ^ 512)
      exact ⟨_, hexec.trans (congrArg _ ((if_neg (ne_true_of_eq_false hs)).trans (if_neg (ne_true_of_eq_false hc)))), hgen, hdir, hkey, hsweep⟩
  case messages =>
    intro x e g
    have hpage : exec (.keySweepPage page) s = if !(s.fn g).sec.sweep || !(s.sweepLeft g).contains page || decide (pgMove e = 1) then .next s
        else if pgRef e ≠ 0 then .next (s.setPage page (withFld e 28 26 3))
        else .next ((s.setPage page (withFld (withFld e 28 26 0) 9 9 ((s.fn g).sec.keyGen.toNat % 2))).endSweep g) := rfl
    refine ⟨fun hopen hoff hdiffer => ?memKey, fun hs hp hm => ?swept, fun hno => hpage.trans (if_pos ?_), fun hopen => if_pos hopen,
      fun hopen hoff => ?ofChannel, fun hclosed => exec_message_unopened hclosed key image job activation slot⟩
    case memKey =>
      have hexec : exec (.memKey f key) s = .next (s.takeMemKey f key.toNat).2 := if_pos ⟨hopen, hoff, hdiffer⟩
      refine ⟨fun hs => ?_, fun hs => ?_⟩
      · rw [hexec, State.takeMemKey, if_pos hs]
      · rw [State.takeMemKey, if_neg (ne_true_of_eq_false hs)] at hexec
        obtain ⟨hgen, hdir, hops, hkey, hsweep⟩ := s.rotate_spec f key.toNat
        exact ⟨_, hexec, hgen, hdir, hops, hkey, hsweep⟩
    case swept =>
      have hexec := hpage.trans (if_neg (by simp [hs, hp, hm]))
      exact ⟨fun href => hexec.trans (if_pos href), fun href => ⟨_, hexec.trans (if_neg (not_not.mpr href)), (State.endSweep_spec ..).1⟩⟩
    case ofChannel =>
      have hlink : exec (.linkKey f job activation image) s = .next (s.takeLinkKey f job.toNat activation.toNat image.toNat).2.2 :=
        if_pos ⟨hopen, hoff⟩
      have hdrop : exec (.linkDrop f job slot) s = .next (s.takeLinkDrop f job.toNat slot.val).2 := if_pos ⟨hopen, hoff⟩
      have hconf : exec (.confidential f) s = .next (s.takeConfidential f).2 := if_pos ⟨hopen, hoff⟩
      refine ⟨fun i hi => ?_, fun hi => ?_, fun hm hj hl hnewer => ?_, fun hm hbig => ?_, fun hsmall => ?_⟩
      · rw [hlink, State.takeLinkKey, hi]
        simp only [BitVec.ofNat_toNat, BitVec.setWidth_eq]
      · rw [hlink, State.takeLinkKey, hi]
      · rw [hdrop, takeLinkDrop_of_newer hm hj hl hnewer]
      · rw [hconf, State.takeConfidential, if_pos ⟨hm, hbig⟩]
      · rw [hconf, State.takeConfidential, if_neg ?_]
        · rfl
        · rintro ⟨hm, hbig⟩
          exact hsmall.elim (fun h => absurd (h.symm.trans hm) (by decide)) (Nat.not_le.mpr hbig)
    · rcases hno with h | h | h
      · simp [h]
      · simp [h]
      · simp [h]

end Sys2Proof.Laws

/-! # Reports, channels and measured regions (R350 to R357) -/

namespace Sys2Proof.Machine
open Sys2Proof.Laws (Notices)

/-- The second state differs from the first only in functions, frames and counters: what a write to device memory invalidates. -/
structure Invalidated (s t : State) : Prop where
  rest : t = { s with fns := t.fns, frames := t.frames, regs := t.regs, fresh := t.fresh }

namespace Invalidated
variable {s t u : State}

theorem refl (s : State) : Invalidated s s := ⟨rfl⟩

theorem trans (h1 : Invalidated s t) (h2 : Invalidated t u) : Invalidated s u := by
  obtain ⟨h1⟩ := h1
  obtain ⟨h2⟩ := h2
  rw [h1] at h2
  exact ⟨h2⟩

theorem ite {p : Prop} [Decidable p] (h1 : Invalidated s t) (h2 : Invalidated s u) : Invalidated s (if p then t else u) := by
  split
  · exact h1
  · exact h2

theorem foldl {α : Type} (f : State → α → State) (xs : List α) (s : State) (h : ∀ s x, Invalidated s (f s x)) :
    Invalidated s (xs.foldl f s) :=
  List.foldlRecOn xs f (refl s) fun t ht x _ => ht.trans (h t x)

theorem mem (h : Invalidated s t) : t.mem = s.mem := by rw [h.rest]
theorem beat (h : Invalidated s t) : t.beat = s.beat := by rw [h.rest]
theorem ops (h : Invalidated s t) : t.ops = s.ops := by rw [h.rest]
theorem dir (h : Invalidated s t) : t.dir = s.dir := by rw [h.rest]

theorem count (s : State) (off n : Nat) : Invalidated s (s.count off n) := ⟨rfl⟩
theorem modFn (s : State) (f : FnId) (g : Fn → Fn) : Invalidated s (s.modFn f g) := ⟨rfl⟩
theorem setFrame (s : State) (i : Nat) (x : FrameState) : Invalidated s (s.setFrame i x) := ⟨rfl⟩

theorem invalidate (s : State) (a n : Nat) : Invalidated s (s.invalidate a n) := by
  unfold State.invalidate
  split
  · exact refl s
  · extract_lets lo hi
    refine foldl _ _ _ fun s f => ?_
    extract_lets x ls ss t u
    have ht : Invalidated s t := foldl _ _ _ fun s l => by
      split
      · exact count ..
      · exact refl s
    have hu : Invalidated t u := by
      subst u; split
      · exact ite (refl t) (count ..)
      · exact refl t
    exact ite (refl s) ((ht.trans hu).trans (modFn u ..))

theorem staleDigests (s : State) (a n : Nat) : Invalidated s (s.staleDigests a n) := foldl _ _ _ fun s _ => ite (setFrame s ..) (refl s)

/-- A write to device memory is the write and what it invalidates (R200, R254). -/
theorem writeDev (s : State) (a : Nat) (bs : List Byte) : Invalidated (s.write a bs) (s.writeDev a bs) := by
  unfold State.writeDev
  exact (invalidate ..).trans (staleDigests ..)

end Invalidated

theorem CharterKept.staleDigests (s : State) (a n : Nat) : CharterKept s (s.staleDigests a n) :=
  foldl _ _ _ fun s _ => ite (setFrame s ..) (refl s)

theorem CharterKept.writeDev (s : State) (a : Nat) (bs : List Byte) : CharterKept s (s.writeDev a bs) := by
  unfold State.writeDev
  exact ((write ..).trans (invalidate ..)).trans (staleDigests ..)

theorem State.writeDev_mem (s : State) (a : Nat) (bs : List Byte) : (s.writeDev a bs).mem = memWrite s.mem a bs :=
  (Invalidated.writeDev ..).mem.trans (State.write_mem ..)

/-! ## What the free values drawn for a report leave -/

/-- The state after some values were drawn. -/
def State.drawn (s : State) (n : Nat) : State := { s with fresh := s.fresh + n }

theorem State.reportBody_drawn (s : State) (n : Nat) (f : FnId) (kem : Option (Nat × Nat)) (nonce : Nat) (ids : List Nat) :
    (s.drawn n).reportBody f kem nonce ids = s.reportBody f kem nonce ids := by
  unfold State.reportBody
  rfl

theorem State.ctlWriteCause_drawn (s : State) (n : Nat) (o : Op) (a k : Nat) : (s.drawn n).ctlWriteCause o a k = s.ctlWriteCause o a k := rfl

theorem State.decideHold_drawn (s : State) (n : Nat) (f : FnId) (ranges : List (Nat × Nat)) :
    (s.drawn n).decideHold f ranges = s.decideHold f ranges := rfl

/-- The session that a report with KEM opens, and what a report leaves of one otherwise (R355). -/
def State.reported (s : State) (f : FnId) (kem : Option (Nat × Nat)) (digest : Nat) : State :=
  match kem with
  | some k => s.modSec f (fun x => { x with session := some {
      id := k.1, decapKey := k.2, digest := digest, opened := false, toDevice := 0, toTenant := 0, counter := 0, beat := s.beatNow } })
  | none => s

theorem State.session_reported (s : State) (f : FnId) (id decap digest : Nat) :
    ((s.reported f (some (id, decap)) digest).fn f).sec.session = some {
      id := id, decapKey := decap, digest := digest, opened := false, toDevice := 0, toTenant := 0, counter := 0, beat := s.beatNow } := by
  unfold State.reported State.modSec
  rw [State.fn_modFn]
  rfl

theorem State.reported_mem (s : State) (f : FnId) (kem : Option (Nat × Nat)) (digest : Nat) : (s.reported f kem digest).mem = s.mem := by
  unfold State.reported; split <;> rfl

theorem State.beatNow_congr {s t : State} (h : t.beat = s.beat) : t.beatNow = s.beatNow := by
  unfold State.beatNow; rw [h]

end Sys2Proof.Machine

namespace Sys2Proof.Laws
open Sys2Proof.Machine Sys2Proof.Safety

section
variable {s b : State} {q : QueueId} {d : Desc} {o : Op} {c : CoreId}

theorem exec_report_of_control (h : Control s q d 0x60 o b) (hcore : b.reportCore o = some c)
    (hlist : spOk (fld d 165 142) (2 * fld d 141 135) = true) (hnonce : spOk (fld d 189 166) 64 = true)
    (hcause : b.reportCause o ((List.range (fld d 141 135)).map (fun k => b.nat (spKey c.val (fld d 165 142) + 2 * k) 2)) = 0) :
    exec (.report q d) s = .next (b.writeReport (.report q d) o c) := by
  refine congrArg Host.Outcome.next ((control_issue h rfl _).trans ?_)
  rw [hcore]
  dsimp only
  rw [if_neg (by rw [rpList, rpCount, rpNonce, hlist, hnonce]; decide)]
  exact if_neg (not_not.mpr hcause)

/-- A report whose destination may be written: the bytes go there, and one with KEM opens a session (R351, R355). -/
theorem writeReport_eq (i : Sys2Proof.Instr) (hdesc : o.desc = d) :
    let nonce := b.nat (spKey c.val (fld d 189 166)) 64
    let ids := (List.range (fld d 141 135)).map (fun k => b.nat (spKey c.val (fld d 165 142) + 2 * k) 2)
    let kem := if flag d 134 then some (Config.freeValue b.fresh % (2 ^ 32 - 1) + 1, Config.freeValue (b.fresh + 1)) else none
    let body := b.reportBody o.fn kem nonce ids
    let bytes := body ++ signatureBlock (digest512 body) (Config.freeValue (b.fresh + 2))
    b.ctlWriteCause o (ctAddr d) bytes.length = 0 → b.decideHold o.fn [(ctAddr d, bytes.length)] = false →
    b.writeReport i o c
      = ((((b.drawn 3).writeDev (b.writeAddr o.fn (ctAddr d)) bytes).count (pageSec + 0x78)).reported o.fn kem (digest512 body)).done o := by
  intro nonce ids kem body bytes hwrite hhold
  have hbody : (b.drawn 3).reportBody o.fn kem nonce ids = body := State.reportBody_drawn ..
  subst hdesc
  unfold State.writeReport
  dsimp only [State.draw]
  change (b.drawn 3).deliver i o false ((b.drawn 3).reportBody o.fn kem nonce ids
    ++ signatureBlock (digest512 ((b.drawn 3).reportBody o.fn kem nonce ids)) (Config.freeValue (b.fresh + 2)))
    (fun s => ((s.count (pageSec + 0x78)).reported o.fn kem (digest512 ((b.drawn 3).reportBody o.fn kem nonce ids))).done o) = _
  rw [hbody]
  exact State.deliver_dev ((State.ctlWriteCause_drawn ..).trans hwrite) ((State.decideHold_drawn ..).trans hhold) i _

theorem exec_getCertificates_of_control (h : Control s q d 0x63 o b) :
    exec (.getCertificates q d) s
      = .next (b.deliver (.getCertificates q d) o false (Config.certificates.take (fld d 159 128)) (fun s => s.done o)) :=
  congrArg Host.Outcome.next (control_issue h rfl _)

theorem exec_channelOpen_of_control (h : Control s q d 0x61 o b) (hr : b.recordCause o (ctAddr d) 1568 = 0) :
    exec (.channelOpen q d) s = .next (match b.sessionFn o (fld d 159 128) with
      | none => b.faultOp o 0xA1
      | some g => if b.boot.noIdentity then b.faultOp o 0xA2
        else (b.modSec g (fun x => { x with session := x.session.map (fun z => z.derive (b.bytes (b.readAddr o.fn (ctAddr d)) 1568)) })).done o) :=
  congrArg Host.Outcome.next ((control_issue h rfl _).trans (if_neg (not_not.mpr hr)))

theorem exec_channelMessage_of_control (h : Control s q d 0x62 o b) (hr : b.recordCause o (ctAddr d) (fld d 187 172) = 0)
    (hw : b.ctlWriteCause o (fld d 171 128) 48 = 0) {g : FnId} {z : Session}
    (hg : b.sessionFn o (numAt (b.bytes (b.readAddr o.fn (ctAddr d)) (fld d 187 172)) 0 4) = some g) (hz : (b.fn g).sec.session = some z) :
    exec (.channelMessage q d) s = .next (b.takeMessage o g z (b.bytes (b.readAddr o.fn (ctAddr d)) (fld d 187 172))) := by
  refine congrArg Host.Outcome.next ((control_issue h rfl _).trans ((if_neg (not_not.mpr hr)).trans ((if_neg (not_not.mpr hw)).trans ?_)))
  have hfound : ((b.sessionFn o (numAt (b.bytes (b.readAddr o.fn (ctAddr d)) (fld d 187 172)) 0 4)).bind
      (fun f => (b.fn f).sec.session.map (fun z => (f, z)))) = some (g, z) := by
    rw [hg, Option.bind_some, hz]; rfl
  rw [show cmBytes d = fld d 187 172 from rfl, hfound]

/-- A message refused with CHANNEL ends the session it came in (R357). -/
theorem refuseChannel_spec (b : State) (o : Op) (g : FnId) (id : Nat) : ∃ u : State, b.refuseChannel o g id = u.faultOp o 0xA1
    ∧ (u.fn g).sec.session = none ∧ u.ops = b.ops := by
  have hn : Notices (b.endSession g) ((((b.endSession g).count (pageSec + 0x74)).raise pageSec 2).logPkg 0x8382 0 id g.val) :=
    ((Notices.count ..).trans (Notices.raise ..)).trans (Notices.logPkg ..)
  refine ⟨_, rfl, ?_, hn.ops⟩
  rw [State.fn_congr hn.fns, State.endSession, State.modSec, State.fn_modFn]
  rfl

theorem exec_measureRegion_of_control (h : Control s q d 0x64 o b) (hc : b.measureCause o = 0)
    (hfree : SMap.get (0, 0) (b.fn o.fn).sec.measured (fld d 133 128) = (0, 0)) (hcore : flag d 134 = true → b.coreOf o ≠ none) :
    let range := (if flag d 134 then 2 ^ 45 + hdCore d * 2 ^ 24 + fld d 87 64 else ctAddr d, fld d 191 160 * 128)
    exec (.measureRegion q d) s
      = .next ((b.modSec o.fn (fun x => { x with measured := SMap.put (0, 0) x.measured (fld d 133 128) range })).done o) := by
  refine congrArg Host.Outcome.next ((control_issue h rfl _).trans ((if_neg (not_not.mpr hc)).trans ((if_neg ?_).trans (if_neg (not_not.mpr hfree)))))
  rw [Bool.and_eq_true, not_and]
  intro hsp hnone
  exact hcore hsp (Option.isNone_iff_eq_none.mp hnone)

end

/-- Settles O42: a report by where its bytes go and the session it opens, a message by whether it verifies, the rest by their guards. -/
theorem attested : Obligations.Attested := by
  unfold Obligations.Attested
  refine ⟨fun s b q d o c h hcore hlist hnonce => ?report, fun s b q d o => ?channel, fun s f z hz => ?ends⟩
  case report =>
    intro f nonce ids id kem body bytes hcause hwrite hhold
    have hexec : exec (.report q d) s = .next
        (((((b.drawn 3).writeDev (b.writeAddr f (ctAddr d)) bytes).count (pageSec + 0x78)).reported f kem (digest512 body)).done o) :=
      (exec_report_of_control h hcore hlist hnonce hcause).trans (congrArg _ (writeReport_eq _ (Issues_desc h.issues).1 hwrite hhold))
    have hkem : kem = if flag d 134 then some (id, Config.freeValue (b.fresh + 1)) else none := rfl
    clear_value bytes body kem
    refine ⟨_, hexec, ?_, fun hk => ?_, fun hk => ?_⟩
    · rw [State.reported_mem, (Invalidated.count ..).mem, State.writeDev_mem, State.writeDev_mem, State.drawn]
    · rw [hkem, if_neg (ne_true_of_eq_false hk), State.reported]
      exact (Fn.of_charter (((CharterKept.writeDev (b.drawn 3) ..).trans (CharterKept.count ..)).charter f)).2.2.1
    · have hz := State.session_reported (((b.drawn 3).writeDev (b.writeAddr f (ctAddr d)) bytes).count (pageSec + 0x78)) f id
        (Config.freeValue (b.fresh + 1)) (digest512 body)
      rw [← hkem.trans (if_pos hk)] at hz
      exact ⟨_, hz, rfl, rfl, rfl, State.beatNow_congr ((Invalidated.count ..).beat.trans ((Invalidated.writeDev ..).beat.trans (State.write_beat ..)))⟩
  case channel =>
    intro f measured
    refine ⟨fun h hr => ?opens, fun h hr hw => ?message, fun h => ?certificates, fun h hc hfree => ?measure, fun h => ?unmeasure⟩
    case opens =>
      have hexec := exec_channelOpen_of_control h hr
      refine ⟨fun hnone => ?_, fun g hg => ⟨fun hid => ?_, fun hid => ?_⟩⟩
      · rw [hexec, hnone]
      · rw [hexec, hg]; exact congrArg _ (if_pos hid)
      · rw [hexec, hg]; exact congrArg _ (if_neg (ne_true_of_eq_false hid))
    case message =>
      intro bs g z hg hz
      have hexec := exec_channelMessage_of_control h hr hw hg hz
      refine ⟨fun hbad => ?_, fun body slot t hopen htake => ?_⟩
      · obtain ⟨u, hu, hsession, hops⟩ := refuseChannel_spec b o g z.id
        rw [State.takeMessage, hbad] at hexec
        exact ⟨u, hexec.trans (congrArg _ hu), hsession, hops⟩
      · rw [State.takeMessage, hopen] at hexec
        dsimp only at hexec
        rw [show (b.modSec g fun x => { x with session := some { z with counter := field (numAt bs 0 16) 127 64 + 1 } }).takeBody g body
          = some (0, slot, t) from htake, (Issues_desc h.issues).1] at hexec
        exact hexec
    case certificates =>
      intro bs hw hhold
      have hdesc := (Issues_desc h.issues).1
      subst hdesc
      exact (exec_getCertificates_of_control h).trans (congrArg _ (State.deliver_dev hw hhold _ _))
    case measure =>
      refine ⟨fun hsp => ?_, fun hsp hcore => ?_⟩
      · rw [exec_measureRegion_of_control h hc hfree (fun h => absurd (hsp.symm.trans h) (by decide)), if_neg (ne_true_of_eq_false hsp)]
        rfl
      · rw [exec_measureRegion_of_control h hc hfree fun _ => hcore, if_pos hsp]
        rfl
    case unmeasure => exact congrArg Host.Outcome.next (control_issue h rfl _)
  case ends =>
    intro ended
    have hopened : s.channelOpened f = z.opened := by rw [State.channelOpened, hz]
    refine ⟨?_, ?_⟩
    · show (if s.channelOpened f then _ else _) = _
      rw [hopened]
      split <;> rfl
    · show execSessionExpiry f s = _
      rw [execSessionExpiry, hz]
      by_cases h : z.opened = false ∧ z.beat + 2 ^ 28 ≤ s.beatNow
      · rw [if_pos h]
        exact if_pos (by simpa using h)
      · rw [if_neg h]
        exact if_neg (by simpa using h)

end Sys2Proof.Laws

/-! # Caps, power groups, levels and die temperatures (R377 to R395) -/

namespace Sys2Proof.Machine

/-- The second state differs from the first only in the cap ceilings of cores and in counters. -/
structure Lowered (s t : State) : Prop where
  rest : t = { s with cells := t.cells, fresh := t.fresh, regs := t.regs }
  cells : ∀ c, { t.cell c with capCeiling := 0 } = { s.cell c with capCeiling := 0 }

namespace Lowered
variable {s t u : State}

theorem refl (s : State) : Lowered s s := ⟨rfl, fun _ => rfl⟩

theorem trans (h1 : Lowered s t) (h2 : Lowered t u) : Lowered s u := by
  refine ⟨?_, fun c => (h2.cells c).trans (h1.cells c)⟩
  have hrest := h2.rest
  rw [h1.rest] at hrest
  exact hrest

theorem ite {p : Prop} [Decidable p] (h1 : Lowered s t) (h2 : Lowered s u) : Lowered s (if p then t else u) := by
  split
  · exact h1
  · exact h2

theorem foldl {α : Type} (f : State → α → State) (xs : List α) (s : State) (h : ∀ s x, Lowered s (f s x)) : Lowered s (xs.foldl f s) :=
  List.foldlRecOn xs f (refl s) fun t ht x _ => ht.trans (h t x)

theorem level (h : Lowered s t) (c : CoreId) : (t.cell c).level = (s.cell c).level := (congrArg Cell.level (h.cells c) :)
theorem target (h : Lowered s t) (c : CoreId) : (t.cell c).target = (s.cell c).target := (congrArg Cell.target (h.cells c) :)
theorem mem (h : Lowered s t) : t.mem = s.mem := by rw [h.rest]
theorem ops (h : Lowered s t) : t.ops = s.ops := by rw [h.rest]
theorem fns (h : Lowered s t) : t.fns = s.fns := by rw [h.rest]
theorem power (h : Lowered s t) : t.power = s.power := by rw [h.rest]

theorem wait (s : State) (off : Nat) : Lowered s (s.wait off) := ⟨rfl, fun _ => rfl⟩
theorem setFresh (s : State) (n : Nat) : Lowered s { s with fresh := n } := ⟨rfl, fun _ => rfl⟩

theorem modCell (s : State) (c : CoreId) (n : Nat) : Lowered s (s.modCell c fun x => { x with capCeiling := n }) := by
  refine ⟨rfl, fun k => ?_⟩
  unfold State.modCell
  rcases eq_or_ne c k with rfl | hne
  · rw [State.cell_setCell]
  · rw [State.cell_setCell_ne _ _ _ _ hne]

theorem setCeiling (s : State) (f : FnId) (n : Nat) : Lowered s (s.setCeiling f n) := foldl _ _ _ fun s c => modCell s c n

theorem capControl (s : State) : Lowered s s.capControl := by
  unfold State.capControl
  extract_lets fs used lent cs lowered t
  have hlowered : Lowered s lowered := foldl _ _ _ fun s _ => setCeiling s ..
  have ht : Lowered lowered t := setFresh ..
  exact ite (refl s) ((hlowered.trans ht).trans (ite (wait ..) (refl t)))

theorem reclaim (s : State) (f : FnId) : Lowered s (s.reclaim f) := foldl _ _ _ fun s _ => ite (refl s) (setCeiling s ..)

theorem countLevel (s : State) (c : CoreId) (demand : Nat) : Lowered s (s.countLevel c demand) := by
  unfold State.countLevel
  extract_lets x t u
  have ht : Lowered s t := ite ((wait ..).trans (wait ..)) (refl s)
  have hu : Lowered t u := ite ((wait ..).trans (wait ..)) (refl t)
  split
  · next f _ =>
    extract_lets v
    have hv : Lowered u v := ite (wait ..) (refl u)
    exact ((ht.trans hu).trans hv).trans (ite (wait ..) (refl v))
  · exact ht.trans hu

end Lowered

/-! ## A die that trips (R395, R433) -/

end Sys2Proof.Machine

namespace Sys2Proof.Laws.StacksKept
open Sys2Proof.Machine

theorem discardCore (s : State) (c : Nat) : StacksKept s (s.discardCore c) := by
  unfold State.discardCore State.discard
  extract_lets t
  have ht : StacksKept s t := discardBy ..
  exact (ht.trans (modMe t _ _)).trans (modMe _ _ _)

end Sys2Proof.Laws.StacksKept

namespace Sys2Proof.Machine

/-- A core whose engines stop leaves the charters, the dies, the stacks and the boot state. -/
theorem State.stopEngines_rest (s : State) (c : CoreId) : CharterKept s (s.stopEngines c) ∧ Laws.StacksKept s (s.stopEngines c) := by
  unfold State.stopEngines
  extract_lets t on
  have ht : CharterKept s t := (CharterKept.cancelCore s c.val 2).trans (.discardCore ..)
  have ht' : Laws.StacksKept s t := (Laws.StacksKept.cancelCore s c.val 2).trans (.discardCore ..)
  exact ⟨ht.trans (.killAll ..), ht'.trans (.killAll ..)⟩

theorem State.setDlk_thermN (s : State) (port v : Nat) : (s.setDlk port v).boot.thermN = s.boot.thermN := by
  unfold State.setDlk
  split <;> rfl

theorem State.setDlk_dies (s : State) (port v : Nat) : (s.setDlk port v).dies = s.dies := by
  unfold State.setDlk
  split <;> rfl

/-- The links that stop with a die leave the dies and THERM_N. -/
theorem State.stopLinks_rest (s : State) (die : Nat) :
    (s.stopLinks die).dies = s.dies ∧ (s.stopLinks die).boot.thermN = s.boot.thermN := by
  unfold State.stopLinks
  split
  · extract_lets ports
    generalize hu' : ports.foldl _ s = u
    have hu : u.dies = s.dies ∧ u.boot = s.boot := by
      rw [← hu']
      exact List.foldlRecOn ports _ (motive := fun (t : State) => t.dies = s.dies ∧ t.boot = s.boot) ⟨rfl, rfl⟩ fun t ht _ _ => ht
    exact ⟨(State.setDlk_dies ..).trans hu.1, (State.setDlk_thermN ..).trans (congrArg Boot.thermN hu.2)⟩
  · exact ⟨rfl, rfl⟩

/-- A device fault stays and leaves the dies. -/
theorem State.deviceFault_rest (s : State) (code inst d0 d1 : Nat) :
    (s.deviceFault code inst d0 d1).dies = s.dies ∧ (s.deviceFault code inst d0 d1).boot.fault = true := by
  unfold deviceFault
  extract_lets t boot u v
  have ht : Laws.Notices s t := .logPkg ..
  split
  · next hfault => exact ⟨ht.dies, hfault⟩
  · have hv : CharterKept u v := .foldl _ _ _ fun s c => .cancelCore s ..
    have hboot : v.boot = u.boot := (Laws.StacksKept.foldl _ _ _ fun s c => .cancelCore s ..).boot
    exact ⟨((CharterKept.killAll ..).dies.trans hv.dies).trans ht.dies,
      (congrArg Boot.fault ((Laws.StacksKept.killAll v _ 2).boot.trans hboot) :)⟩

/-- A die that trips shows it, pulls THERM_N and leaves a device fault; no other die changes. -/
theorem State.trip_spec (s : State) (die t : Nat) :
    (s.trip die t).dies = (s.setDie die { s.die die with tripped := true }).dies
      ∧ (s.trip die t).boot.thermN = true ∧ (s.trip die t).boot.fault = true := by
  unfold State.trip
  extract_lets x tripped boot pulled stopped
  have hdies : stopped.dies = tripped.dies := (CharterKept.foldl _ _ pulled fun s c => (State.stopEngines_rest s c).1).dies
  have hboot : stopped.boot = pulled.boot := (Laws.StacksKept.foldl _ _ pulled fun s c => (State.stopEngines_rest s c).2).boot
  obtain ⟨hlinks, hpin⟩ := State.stopLinks_rest stopped die
  obtain ⟨hfault, hset⟩ := State.deviceFault_rest (stopped.stopLinks die) 0x7341 die t 0
  refine ⟨(hfault.trans hlinks).trans hdies, ?_, hset⟩
  rw [(State.deviceFault_stacks ..).2, hpin, hboot]

end Sys2Proof.Machine

namespace Sys2Proof.Laws
open Sys2Proof.Machine Sys2Proof.Safety

variable {s b : State} {q : QueueId} {d : Desc} {o : Op}

/-! ## Caps and power groups -/

/-- What follows the checks of a cap: out of range is 0xB0, below the quiet functions 0x9A, the lower one. -/
theorem cap_checked {α : Type} (bad low : Bool) (refuse : Nat → α) (go : α) :
    (if lowestCause [(bad, 0xB0), (low, 0x9A)] ≠ 0 then refuse (lowestCause [(bad, 0xB0), (low, 0x9A)]) else go)
      = if low = true then refuse 0x9A else if bad = true then refuse 0xB0 else go := by
  cases bad <;> cases low <;> rfl

theorem exec_setCap_of_control (h : Control s q d 0x70 o b) : exec (.setCap q d) s = .next (
    if fld d 139 128 < b.quietPower + 700 then b.faultOp o 0x9A
    else if fld d 139 128 < 1000 ∨ 3200 < fld d 139 128 ∨ fld d 139 128 % 5 ≠ 0 then b.faultOp o 0xB0
    else { b with power := { b.power with nextCap := some (fld d 139 128) } }.done o) := by
  refine congrArg Host.Outcome.next ((control_issue h rfl _).trans ((cap_checked ..).trans ?_))
  refine if_congr decide_eq_true_iff rfl (if_congr ?_ rfl rfl)
  rw [Bool.or_eq_true, Bool.or_eq_true, decide_eq_true_iff, decide_eq_true_iff, decide_eq_true_iff, or_assoc]
  rfl

theorem exec_setPowerGroup_of_control (h : Control s q d 0x71 o b) : exec (.setPowerGroup q d) s = .next (
    if (b.jobFns (fld d 159 128)).isEmpty ∨ 800 < 5 * fld d 168 161 then b.faultOp o 0xB1
    else { b with power := b.power.setGroup d }.done o) :=
  congrArg Host.Outcome.next (control_issue h rfl _)

theorem Power.setGroup_eq (p : Power) (d : Desc) : p.setGroup d = { p with
    groupOn := flag d 160, groupJob := BitVec.ofNat 32 (fld d 159 128), shiftMax := 5 * fld d 168 161,
    nextOffset := if flag d 160 then p.nextOffset else some 0 } := by
  unfold Power.setGroup
  cases h : flag d 160 <;> rfl

/-! ## Levels -/

theorem target_le_capCeiling (s : State) (c : CoreId) (demand : Nat) : s.target c demand ≤ (s.cell c).capCeiling :=
  (min_le_left _ _).trans ((min_le_left _ _).trans (min_le_left _ _))

theorem target_le_thermal (s : State) (c : CoreId) (demand : Nat) : s.target c demand ≤ (s.cell c).thermal :=
  (min_le_left _ _).trans ((min_le_left _ _).trans (min_le_right _ _))

/-- A step of the governor sets one core's level and target; what follows counts and lowers ceilings. -/
theorem exec_governorStep_of_enabled {core : CoreId} (hst : (s.cell core).st = .inService)
    (hcool : (s.die (core.val / 6)).tripped = false) (demand : Fin 17) :
    ∃ t, exec (.governorStep core demand) s = .next t
      ∧ Lowered ((s.countLevel core demand.val).modCell core fun y =>
          { y with level := stepLevel (s.cell core).level (s.target core demand.val), target := s.target core demand.val }) t := by
  change ∃ t, execGovernorStep core demand s = .next t ∧ _
  unfold execGovernorStep
  extract_lets x u l v
  rw [if_neg (by simp [x, hst, hcool])]
  split
  · split
    · exact ⟨_, rfl, .reclaim ..⟩
    · exact ⟨_, rfl, .refl _⟩
  · exact ⟨_, rfl, .refl _⟩

/-! ## Die temperatures -/

/-- What a reading writes before a trip is judged. -/
theorem readCompute_rest (s : State) (die t : Nat) :
    Notices (s.setDie die { s.die die with
      temp := BitVec.ofNat 8 t, thermalCeiling := (s.die die).ceilingAfter t,
      sinceCeiling := (s.die die).readings ((s.die die).ceilingAfter t), throttling := (s.die die).throttles t }) (s.readCompute die t) := by
  unfold State.readCompute
  extract_lets x c on u v
  have hv : Notices u v := .ite (.wait ..) (.refl u)
  exact .ite (hv.trans ((Notices.raise ..).trans (.logPkg ..))) (.ite (hv.trans (.logPkg ..)) hv)

/-- The state that both kinds of die share once a reading was taken: the temperature, on a compute die throttling, no trip yet. -/
def State.AfterReading (s u : State) (die m : Nat) : Prop :=
  (u.die die).temp = BitVec.ofNat 8 m ∧ (u.die die).tripped = (s.die die).tripped
    ∧ (die < 4 → (u.die die).throttling = (s.die die).throttles m) ∧ u.boot = s.boot ∧ ∀ k, k ≠ die → u.die k = s.die k

theorem exec_dieSensorRead_spec (s : State) (die : Fin 10) (temp0 temp1 : Byte) :
    ∃ u, State.AfterReading s u die.val (max temp0.toNat temp1.toNat)
      ∧ exec (.dieSensorRead die temp0 temp1) s = .next (
          if 115 ≤ max temp0.toNat temp1.toNat ∧ !(u.die die.val).tripped then u.trip die.val (max temp0.toNat temp1.toNat) else u) := by
  generalize hm : max temp0.toNat temp1.toNat = m
  generalize hread : (coresOfDie die.val).foldl (fun (s : State) c => s.modCell c (fun x => { x with temp0 := temp0, temp1 := temp1 })) s = v
  have hv : v.dies = s.dies ∧ v.boot = s.boot := by
    rw [← hread]
    exact List.foldlRecOn _ _ (motive := fun (t : State) => t.dies = s.dies ∧ t.boot = s.boot) ⟨rfl, rfl⟩ fun t ht _ _ => ht
  have hdie (k : Nat) : v.die k = s.die k := congrArg (SMap.get Die.reset · k) hv.1
  refine ⟨if die.val < 4 then v.readCompute die.val m else v.setDie die.val { v.die die.val with temp := BitVec.ofNat 8 m }, ?_, ?_⟩
  · unfold State.AfterReading
    split
    · next hlt =>
      have hrest := readCompute_rest v die.val m
      have hget (k : Nat) := congrArg (SMap.get Die.reset · k) hrest.dies
      have hown := (hget die.val).trans (State.die_setDie ..)
      refine ⟨congrArg Die.temp hown, ?_, fun _ => ?_, hrest.boot.trans hv.2, fun k hk => ?_⟩
      · exact (congrArg Die.tripped hown).trans (congrArg Die.tripped (hdie die.val) :)
      · exact (congrArg Die.throttling hown).trans (congrArg (fun x => Die.throttles x m) (hdie die.val) :)
      · exact ((hget k).trans (State.die_setDie_ne _ _ _ _ (Ne.symm hk))).trans (hdie k)
    · next hge =>
      refine ⟨?_, ?_, fun h => absurd h hge, hv.2, fun k hk => (State.die_setDie_ne _ _ _ _ (Ne.symm hk)).trans (hdie k)⟩
      · rw [State.die_setDie]
      · rw [State.die_setDie, hdie]
  · change execDieSensorRead die temp0 temp1 s = _
    unfold execDieSensorRead
    dsimp only
    rw [hm, hread]
    exact (apply_ite Host.Outcome.next ..).symm

/-- Settles O44: the cap and the group by their checks, levels by what follows a step, the dies by what a trip leaves. -/
theorem powerHeld : Obligations.PowerHeld := by
  unfold Obligations.PowerHeld
  refine ⟨fun s b q d o => ?caps, fun s power reserved => ?telemetry, fun s core demand => ?governor, fun s die temp0 temp1 => ?sensor⟩
  case caps =>
    intro cap
    refine ⟨fun h => ?cap, fun h => ?group⟩
    case cap =>
      have hexec := exec_setCap_of_control h
      refine ⟨fun hbad => ?_, fun _ _ _ hlow => hexec.trans (congrArg _ (if_pos hlow)), fun hmin hmax hstep hquiet => ?_⟩
      · rw [if_pos hbad] at hexec
        rw [hexec, apply_ite (b.faultOp o)]
      · have hok : ¬ (cap < 1000 ∨ 3200 < cap ∨ cap % 5 ≠ 0) := by omega
        rw [hexec, if_neg (Nat.not_lt.mpr hquiet), if_neg hok]
    case group =>
      have hexec := exec_setPowerGroup_of_control h
      refine ⟨fun hbad => ?_, fun hjob hmax => ?_⟩
      · rw [hexec, if_pos (by simpa using hbad)]
      · rw [hexec, if_neg (by simp [hjob, hmax]), Power.setGroup_eq]
  case telemetry =>
    have hrest := Lowered.capControl { s with power := { s.power with package := power.toNat, reserved := reserved.toNat } }
    exact ⟨_, rfl, hrest.power, hrest.mem, hrest.ops, hrest.fns⟩
  case governor =>
    intro x
    refine ⟨fun hoff => if_pos hoff, fun hst hcool => ?_⟩
    obtain ⟨t, hexec, hrest⟩ := exec_governorStep_of_enabled hst hcool demand
    have hcount := Lowered.countLevel s core demand.val
    have htarget : (t.cell core).target = s.target core demand.val := by
      rw [hrest.target, State.modCell, State.cell_setCell]
    refine ⟨t, hexec, htarget, htarget.trans_le (target_le_capCeiling ..), htarget.trans_le (target_le_thermal ..), ?_, fun k hk => ?_,
      hrest.mem.trans hcount.mem, hrest.ops.trans hcount.ops⟩
    · rw [hrest.level, State.modCell, State.cell_setCell]
      rfl
    · rw [hrest.level, State.modCell, State.cell_setCell_ne _ _ _ _ (Ne.symm hk), hcount.level]
  case sensor =>
    intro m x
    obtain ⟨u, ⟨htemp, htripped, hthrottle, hboot, hother⟩, hexec⟩ := exec_dieSensorRead_spec s die temp0 temp1
    by_cases htrip : 115 ≤ m ∧ x.tripped = false
    · obtain ⟨hdies, hpin, hfault⟩ := State.trip_spec u die.val m
      have hown : (u.trip die.val m).die die.val = { u.die die.val with tripped := true } :=
        (congrArg (SMap.get Die.reset · die.val) hdies).trans (State.die_setDie ..)
      have hgo : 115 ≤ m ∧ !(u.die die.val).tripped := ⟨htrip.1, (congrArg not htripped).trans (congrArg not htrip.2)⟩
      refine ⟨u.trip die.val m, hexec.trans (congrArg _ (if_pos hgo)), ?_, fun hlt => ?_, fun _ _ => ⟨?_, hpin, hfault⟩,
        fun hlt => absurd htrip.1 (Nat.not_le.mpr hlt), fun k hk => ?_⟩
      · rw [hown]
        exact htemp
      · rw [hown]
        rw [show ({ u.die die.val with tripped := true } : Die).throttling = x.throttles m from hthrottle hlt]
        simp [Die.throttles]
      · rw [hown]
      · exact ((congrArg (SMap.get Die.reset · k) hdies).trans (State.die_setDie_ne _ _ _ _ (Ne.symm hk))).trans (hother k hk)
    · have hstay : ¬ (115 ≤ m ∧ !(u.die die.val).tripped) := by
        rw [htripped]
        simpa [x] using htrip
      refine ⟨u, hexec.trans (congrArg _ (if_neg hstay)), htemp, fun hlt => ?_, fun hm hx => absurd ⟨hm, hx⟩ htrip,
        fun _ => ⟨htripped, congrArg Boot.thermN hboot⟩, hother⟩
      · rw [show (u.die die.val).throttling = x.throttles m from hthrottle hlt]
        simp [Die.throttles]

end Sys2Proof.Laws

/-! # Ageing, margin plans, active tests and the store (R397 to R408) -/

namespace Sys2Proof.Machine
open Sys2Proof.Laws (Notices)

/-! ## What an entry of the trouble log leaves of the registers -/

/-- The second state has a register of the management window of the first. -/
structure RegKept (off : Nat) (s t : State) : Prop where
  reg : t.reg 0 off = s.reg 0 off

namespace RegKept
variable {off : Nat} {s t u : State}

theorem of_regs (h : t.regs = s.regs) : RegKept off s t := ⟨State.reg_congr h ..⟩

theorem refl (s : State) : RegKept off s s := of_regs rfl

theorem trans (h1 : RegKept off s t) (h2 : RegKept off t u) : RegKept off s u := ⟨h2.reg.trans h1.reg⟩

theorem ite {c : Prop} [Decidable c] (ht : RegKept off s t) (hu : RegKept off s u) : RegKept off s (if c then t else u) := by
  split
  · exact ht
  · exact hu

theorem foldl {α : Type} (step : State → α → State) (xs : List α) (s : State) (h : ∀ s x, RegKept off s (step s x)) :
    RegKept off s (xs.foldl step s) :=
  List.foldlRecOn xs step (refl s) fun t ht x _ => ht.trans (h t x)

section
variable (hpage : off / 0x1000 ≠ 4) (hhigh : off < 2 ^ 26)
include hpage hhigh

/-- A register of the log's own page is another one. -/
theorem setReg (s : State) (win v : Nat) {at_ : Nat} (h : at_ / 0x1000 = 4) : RegKept off s (s.setReg win at_ v) :=
  ⟨State.reg_setReg_ne _ _ _ _ _ _ (by simp only [regKey]; omega)⟩

theorem raiseLog (s : State) (win bit : Nat) : RegKept off s (s.raiseLog win bit) :=
  ite (refl s) ((setReg hpage hhigh s _ _ (by decide)).trans (of_regs (State.eventTo_regs ..)))

/-- An event that is no error is written to the log's own page alone. -/
theorem logEvent (s : State) {code : Nat} (hcls : 8 < code / 0x1000) (hcode : code < 2 ^ 16) (fn : Option FnId) (inst : Nat)
    (core : Option CoreId) (d0 d1 : Nat) : RegKept off s (s.logEvent code fn inst core d0 d1) := by
  unfold State.logEvent
  refine ite (refl s) ?_
  extract_lets cls fnField urgent t general views lost
  have ht : t = s := if_neg (fun h => absurd h.2 (Nat.not_le.mpr hcls))
  rw [ht]
  refine ite (of_regs rfl) (ite ?placed ?lost)
  case placed =>
    have hd : RegKept off s s.draw.2 := of_regs rfl
    generalize s.draw = d at hd
    split
    extract_lets bits e next v w
    have hv : RegKept off s v := hd.trans (of_regs rfl)
    have hw : RegKept off v w := ite ((raiseLog hpage hhigh ..).trans (foldl _ _ _ fun s x => raiseLog hpage hhigh s _ _)) (refl v)
    exact (hv.trans hw).trans (ite (raiseLog hpage hhigh ..) (refl w))
  case lost =>
    have hlost : (pageTlog + 0x80 + 4 * cls) / 0x1000 = 4 := by
      have : cls < 16 := Nat.div_lt_of_lt_mul hcode
      simp only [pageTlog]
      omega
    have hone (s : State) (win : Nat) : RegKept off s ((s.addReg win (pageTlog + 0x80 + 4 * cls) 1).raiseLog win 1) :=
      (setReg hpage hhigh s _ _ hlost).trans (raiseLog hpage hhigh ..)
    subst lost
    rw [ht]
    split
    · exact (hone ..).trans (hone ..)
    · exact hone ..

end

end RegKept

/-! ## Margin plans -/

/-- The second state has the power state and the operations of the first. -/
structure OrdersKept (s t : State) : Prop where
  power : t.power = s.power
  ops : t.ops = s.ops

namespace OrdersKept
variable {s t u : State}

theorem refl (s : State) : OrdersKept s s := ⟨rfl, rfl⟩

theorem trans (h1 : OrdersKept s t) (h2 : OrdersKept t u) : OrdersKept s u := ⟨h2.power.trans h1.power, h2.ops.trans h1.ops⟩

theorem ite {c : Prop} [Decidable c] (ht : OrdersKept s t) (hu : OrdersKept s u) : OrdersKept s (if c then t else u) := by
  split
  · exact ht
  · exact hu

theorem foldl {α : Type} (step : State → α → State) (xs : List α) (s : State) (h : ∀ s x, OrdersKept s (step s x)) :
    OrdersKept s (xs.foldl step s) :=
  List.foldlRecOn xs step (refl s) fun t ht x _ => ht.trans (h t x)

theorem notices (h : Notices s t) : OrdersKept s t := ⟨by rw [h.rest]; rfl, h.ops⟩

theorem storeRecord (s : State) (type scope : Nat) (payload : List Byte) : OrdersKept s (s.storeRecord type scope payload) :=
  ⟨by rw [State.storeRecord], by rw [State.storeRecord]⟩
theorem modCell (s : State) (c : CoreId) (g : Cell → Cell) : OrdersKept s (s.modCell c g) := ⟨rfl, rfl⟩
theorem setDie (s : State) (d : Nat) (x : Die) : OrdersKept s (s.setDie d x) := ⟨rfl, rfl⟩

theorem orderQuarantine (s : State) (c : CoreId) (cause : Nat) : OrdersKept s (s.orderQuarantine c cause) := by
  have hset (x : Cell) : OrdersKept s (s.setCell c x) := ⟨rfl, rfl⟩
  exact ite (refl s) ((hset _).trans (notices (.logEvent ..)))

theorem planCore (s : State) (guard : Nat) (outlier : Option CoreId) (c : CoreId) : OrdersKept s (s.planCore guard outlier c) := by
  unfold State.planCore
  extract_lets x
  split
  · exact ite (orderQuarantine ..) (ite (modCell ..) (ite (modCell ..) (refl s)))
  · exact ite (modCell ..) (refl s)
  · exact ite (modCell ..) (refl s)
  · exact refl s

end OrdersKept

/-- A request writes the set point of its die. -/
theorem State.requestVolts_spec (s : State) (d v : Nat) :
    ((s.requestVolts d v).die d).requested = v ∧ ((s.requestVolts d v).die d).guard = (s.die d).guard
      ∧ ((s.requestVolts d v).die d).planRunning = (s.die d).planRunning ∧ OrdersKept s (s.requestVolts d v) := by
  unfold State.requestVolts
  have hdraw : s.draw.2.dies = s.dies := State.draw_dies s
  have hkept : OrdersKept s s.draw.2 := .notices (.draw s)
  generalize s.draw = p at hdraw hkept
  obtain ⟨b, u⟩ := p
  have hdie : u.die d = s.die d := congrArg (SMap.get Die.reset · d) hdraw
  dsimp only
  rw [State.die_setDie, hdie]
  exact ⟨rfl, rfl, rfl, hkept.trans (.setDie ..)⟩

/-- A margin plan is recorded, orders what its cores need, and requests the set point of those it keeps. -/
theorem State.plan_spec (s : State) (d : Nat) :
    ((s.plan d).die d).guard = (s.die d).planGuard
      ∧ ((s.plan d).die d).requested = setPoint
          ((((s.planCores d).filter (fun c => decide (s.outlier? d ≠ some c))).map (fun c => (s.cell c).need)).foldl max 0) (s.die d).planGuard
      ∧ ((s.plan d).die d).planRunning = false
      ∧ (s.plan d).power.planCount = s.power.planCount + 1 ∧ (s.plan d).power.planPoh = s.power.poh ∧ (s.plan d).ops = s.ops := by
  unfold State.plan
  extract_lets x guard out cores v t1 t2 t3 t4 moved power t5 t6
  have h4 : OrdersKept s t4 :=
    (((OrdersKept.storeRecord ..).trans (.foldl _ _ _ fun s c => .storeRecord ..)).trans (.foldl _ _ t2 fun s c => .planCore s guard out c)).trans
      (.setDie ..)
  have h6 : Notices t5 t6 := (Notices.ite (.raise ..) (.refl t5)).trans (.raise ..)
  obtain ⟨hrequested, hguard, hrunning, hkept⟩ := State.requestVolts_spec t6 d v
  have hdie : t6.die d = { x with guard := guard, nextGuard := none, alarmed := false, planRunning := false } :=
    (congrArg (SMap.get Die.reset · d) h6.dies).trans (State.die_setDie t3 d _)
  rw [hdie] at hguard hrunning
  have hpower : (t6.requestVolts d v).power = t5.power := hkept.power.trans (OrdersKept.notices h6).power
  refine ⟨hguard, hrequested, hrunning, ?_, ?_, (hkept.ops.trans h6.ops).trans h4.ops⟩
  · rw [hpower]
    exact congrArg (fun p : Power => p.planCount + 1) h4.power
  · rw [hpower]
    exact congrArg Power.poh h4.power

end Sys2Proof.Machine

namespace Sys2Proof.Laws
open Sys2Proof.Machine Sys2Proof.Safety

/-- A drift alarm raises the guard of the die and starts a plan. -/
theorem driftAlarm_spec (s : State) (c : CoreId) : (s.driftAlarm c).cells = s.cells
    ∧ (s.driftAlarm c).die (c.val / 6) = { s.die (c.val / 6) with
        nextGuard := some (min 600 ((s.die (c.val / 6)).guard + 100)), alarmed := true, planRunning := true } := by
  unfold State.driftAlarm
  extract_lets d x guard t
  have hnotes : Notices (s.setDie d { x with nextGuard := some guard, alarmed := true })
      ((t.raise pagePwr 2).logEvent 0xA342 none d (some c) c.val (guard / 10)) :=
    ((Notices.count ..).trans (.raise ..)).trans (.logEvent ..)
  have hdie := (congrArg (SMap.get Die.reset · d) hnotes.dies).trans (State.die_setDie ..)
  refine ⟨hnotes.cells, (State.die_setDie ..).trans ?_⟩
  exact (congrArg (fun y : Die => { y with planRunning := true }) hdie :)

theorem exec_testDue_of_owned {s : State} {core : CoreId} {f : FnId} (h : (s.cell core).owner = some f) (overdue : Nat) :
    exec (.testDue core overdue) s = .next (
      if 500 < overdue then ((s.modCell core (fun x => { x with testDue := true })).raise (pageCore core.val) 1).logEvent
        0xA101 (some f) core.val (some core) core.val overdue
      else (s.modCell core (fun x => { x with testDue := true })).raise (pageCore core.val) 1) := by
  change execTestDue core overdue s = _
  unfold execTestDue
  rw [h]
  exact (apply_ite Host.Outcome.next ..).symm

theorem exec_coreSelfTest_of_control {s b : State} {q : QueueId} {d : Desc} {o : Op} {c : CoreId} (h : Control s q d 0x74 o b)
    (hc : coreId? (fld d 132 128) = some c) (pass : Bool) : exec (.coreSelfTest q d pass) s = .next (
      if (b.cell c).st ≠ .quarantined ∨ (b.cell c).owner.isSome then b.refuseOpen o
      else if pass then (b.setCell c { b.cell c with nextSt := some .eligible }).done o else b.done o) := by
  refine congrArg Host.Outcome.next ((control_issue h rfl _).trans ?_)
  dsimp only
  rw [hc]

theorem exec_storeCompaction (s : State) : exec .storeCompaction s =
    if s.store.erased < 64 then .next { s with store := s.store.compact s.power.poh s.boot.count } else .next s := by
  change execStoreCompaction s = _
  rw [execStoreCompaction]

/-- Settles O45: each command by the branch its conditions name; an alarm and a plan by what they leave. -/
theorem ageingKept : Obligations.AgeingKept := by
  unfold Obligations.AgeingKept
  refine ⟨fun s core drift leakage die v overdue acked => ?ageing, fun s type scope payload ok => ?store,
    fun s b q d o c pass h hc hst howner => ?selfTest⟩
  case ageing =>
    intro x y out kept
    refine ⟨fun h => if_neg ?still, fun hnow hbefore => ?alarm, fun h => ?plan, fun hrun hpoh => if_neg ?none,
      fun h => if_neg (by rw [h]; decide), fun h => if_pos (Option.isSome_iff_ne_none.mpr h), fun h => ?free, fun h => ?due, ?retry⟩
    case still =>
      rintro ⟨hnow, hbefore⟩
      exact h.elim (not_le.mpr hnow) (not_lt.mpr hbefore)
    case alarm =>
      obtain ⟨hcells, hdie⟩ := driftAlarm_spec (s.modCell core (fun x => { x with drift := drift, leakage := leakage })) core
      refine ⟨_, if_pos ⟨hnow, hbefore⟩, ?_, ?_, ?_, ?_⟩
      · rw [State.cell_congr hcells, State.modCell, State.cell_setCell]
      all_goals rw [hdie]
      rfl
    case plan =>
      obtain ⟨hguard, hrequested, hrunning, hcount, hpoh, hops⟩ := State.plan_spec s die.val
      exact ⟨_, if_pos h, hguard, hrequested, hrunning, hcount, hpoh, hops⟩
    case none =>
      rintro (h | h)
      · exact absurd (h.symm.trans hrun) (by decide)
      · exact Nat.not_le.mpr hpoh h
    case free =>
      change execTestDue core overdue s = _
      unfold execTestDue
      rw [h]
    case due =>
      obtain ⟨f, hf⟩ := Option.ne_none_iff_exists'.mp h
      generalize hu : (s.modCell core (fun x => { x with testDue := true })).raise (pageCore core.val) 1 = u
      have hraise : Notices (s.modCell core (fun x => { x with testDue := true })) u := hu ▸ .raise ..
      have hdue : (u.cell core).testDue = true := by rw [State.cell_congr hraise.cells, State.modCell, State.cell_setCell]
      have hbit : (u.reg 0 (pageCore core.val + 0x18)).testBit 1 = true := hu ▸ State.testBit_reg_raise _ (by decide)
      have hexec := exec_testDue_of_owned hf overdue
      rw [hu] at hexec
      refine ⟨_, hexec, ?_⟩
      split
      · have hreg := (RegKept.logEvent (off := pageCore core.val + 0x18) (by simp only [pageCore]; omega) (by simp only [pageCore]; omega)
          u (code := 0xA101) (by decide) (by decide) (some f) core.val (some core) core.val overdue).reg
        exact ⟨by rw [State.cell_congr (Notices.logEvent ..).cells, hdue], by rw [hreg, hbit]⟩
      · exact ⟨hdue, hbit⟩
    case retry => exact (apply_ite Host.Outcome.next ..).symm
  case store =>
    refine ⟨?hour, rfl, fun h => ?full, fun h => ?few⟩
    case full => rw [exec_storeCompaction, if_neg (Nat.not_lt.mpr h)]
    case few => rw [exec_storeCompaction, if_pos h]
    case hour =>
      change ∃ t, execPohRecord s = .next t ∧ _
      unfold execPohRecord
      extract_lets cells power u
      refine ⟨_, rfl, ?_, fun c => ?_, ?_, ?_⟩ <;> rw [State.storeRecord]
      exact congrArg Cell.hoursSinceTest (Vector.getElem_map _ c.isLt)
  case selfTest =>
    rw [exec_coreSelfTest_of_control h hc, if_neg (by simp [hst, howner])]
    cases pass <;> rfl

end Sys2Proof.Laws

/-! # Queues and their watchers (R416 to R428) -/

namespace Sys2Proof.Machine
open Sys2Proof.Laws (Notices)

/-! ## Events leave the queues -/

/-- The second state has the queues of the first. -/
structure QueuesKept (s t : State) : Prop where
  queues : t.queues = s.queues

namespace QueuesKept
variable {s t u : State}

theorem refl (s : State) : QueuesKept s s := ⟨rfl⟩

theorem trans (h1 : QueuesKept s t) (h2 : QueuesKept t u) : QueuesKept s u := ⟨h2.queues.trans h1.queues⟩

theorem ite {c : Prop} [Decidable c] (ht : QueuesKept s t) (hu : QueuesKept s u) : QueuesKept s (if c then t else u) := by
  split
  · exact ht
  · exact hu

theorem foldl {α : Type} (step : State → α → State) (xs : List α) (s : State) (h : ∀ s x, QueuesKept s (step s x)) :
    QueuesKept s (xs.foldl step s) :=
  List.foldlRecOn xs step (refl s) fun t ht x _ => ht.trans (h t x)

theorem queue (h : QueuesKept s t) (n : Nat) : t.queue n = s.queue n := congrArg (SMap.get Queue.reset · n) h.queues

theorem setReg (s : State) (win off v : Nat) : QueuesKept s (s.setReg win off v) := ⟨rfl⟩
theorem addReg (s : State) (win off n : Nat) : QueuesKept s (s.addReg win off n) := ⟨rfl⟩
theorem count (s : State) (off n : Nat) : QueuesKept s (s.count off n) := ⟨rfl⟩
theorem write (s : State) (a : Nat) (bs : List Byte) : QueuesKept s (s.write a bs) := ⟨State.write_queues ..⟩

theorem message (s : State) (addr : Nat) (data : Word) : QueuesKept s (s.message addr data) := ite (refl s) (write ..)

theorem eventTo (s : State) (win page bit : Nat) : QueuesKept s (s.eventTo win page bit) :=
  ite (ite (message ..) (message ..)) (refl s)

theorem raise (s : State) (page bit : Nat) : QueuesKept s (s.raise page bit) := by
  unfold State.raise
  extract_lets v t
  have ht : QueuesKept s t := (setReg ..).trans (eventTo ..)
  refine ite (refl s) ?_
  split
  · exact ht.trans (eventTo ..)
  · exact ht

theorem raiseLog (s : State) (win bit : Nat) : QueuesKept s (s.raiseLog win bit) := ite (refl s) ((setReg ..).trans (eventTo ..))

theorem errorIn (s : State) (win page code fn : Nat) (mgmt : Bool) : QueuesKept s (s.errorIn win page code fn mgmt) :=
  ite (addReg ..) ((((addReg ..).trans (setReg ..)).trans (setReg ..)).trans (setReg ..))

theorem pageError (s : State) (page code : Nat) (fn : Option FnId) (mgmt : Bool) : QueuesKept s (s.pageError page code fn mgmt) := by
  unfold State.pageError
  extract_lets t
  have ht : QueuesKept s t := errorIn ..
  split
  · exact ite ht (ht.trans (errorIn ..))
  · exact ht

theorem logEvent (s : State) (code : Nat) (fn : Option FnId) (inst : Nat) (core : Option CoreId) (d0 d1 : Nat) :
    QueuesKept s (s.logEvent code fn inst core d0 d1) := by
  unfold State.logEvent
  refine ite (refl s) ?_
  extract_lets cls fnField urgent t general views lost
  have ht : QueuesKept s t := by
    refine ite ?_ (refl s)
    split
    · exact pageError ..
    · exact refl s
  refine ite (ht.trans ⟨rfl⟩) (ite ?placed ?lost)
  case placed =>
    have hd : QueuesKept t t.draw.2 := ⟨rfl⟩
    generalize t.draw = d at hd
    split
    extract_lets bits e next v w
    have hv : QueuesKept t v := hd.trans ⟨rfl⟩
    have hw : QueuesKept v w := ite ((raiseLog ..).trans (foldl _ _ _ fun s x => raiseLog s _ _)) (refl v)
    exact (ht.trans (hv.trans hw)).trans (ite (raiseLog ..) (refl w))
  case lost =>
    have hl : QueuesKept t lost := (addReg ..).trans (raiseLog ..)
    split
    · exact ht.trans (hl.trans ((addReg ..).trans (raiseLog ..)))
    · exact ht.trans hl

end QueuesKept

/-! ## Four bytes of a line -/

theorem State.nat_write_word (s : State) (a : Nat) (w : Word) : (s.write a (leBytes 4 w.toNat)).nat a 4 = w.toNat := by
  have h := congrArg ofBytes (memBytes_write_same s.mem a (leBytes 4 w.toNat))
  rw [length_leBytes, ofBytes_leBytes_toNat rfl] at h
  rw [State.nat, State.write_mem]
  exact h

theorem State.word_write (s : State) (a : Nat) (w : Word) : BitVec.ofNat 32 ((s.write a (leBytes 4 w.toNat)).nat a 4) = w := by
  rw [State.nat_write_word, BitVec.ofNat_toNat, BitVec.setWidth_eq]

/-! ## A tail that stops its queue -/

theorem State.stopQueue_queue (s : State) (n : QueueId) (beyond : Nat) :
    ((s.stopQueue n beyond).queue n.val) = { s.queue n.val with stopped := true } ∧ (s.stopQueue n beyond).ops = s.ops := by
  unfold State.stopQueue
  extract_lets q fn t
  have ht : QueuesKept (s.setQueue n.val { q with stopped := true }) t := .logEvent ..
  have ht' : Notices (s.setQueue n.val { q with stopped := true }) t := .logEvent ..
  have hu : QueuesKept t ((t.count (pageDlk 0 + 0x50)).raise (pageDlk 0) 1) := (QueuesKept.count ..).trans (.raise ..)
  have hu' : Notices t ((t.count (pageDlk 0 + 0x50)).raise (pageDlk 0) 1) := (Notices.count ..).trans (.raise ..)
  have hqueues := (ht.trans hu).trans (.pageError _ (pageDlk 0) 0x6481 fn q.mgmt)
  have hops := (ht'.trans hu').trans (.pageError _ (pageDlk 0) 0x6481 fn q.mgmt)
  exact ⟨(hqueues.queue _).trans (State.queue_setQueue ..), hops.ops⟩

/-! ## A descriptor that is read -/

theorem Queue.mgmt_congr {x y : Queue} (h : x.record = y.record) : x.mgmt = y.mgmt := by rw [Queue.mgmt, Queue.mgmt, h]

theorem Queue.owner_congr {x y : Queue} (h : x.record = y.record) : x.owner = y.owner := by rw [Queue.owner, Queue.owner, h]

theorem State.actsFor_congr {s t : State} {n : QueueId} (hq : (t.queue n.val).record = (s.queue n.val).record) (d : Desc) :
    t.actsFor n d = s.actsFor n d := by
  unfold State.actsFor
  dsimp only
  rw [Queue.mgmt_congr hq, Queue.owner_congr hq]

theorem State.headerCause_congr {s t : State} {n : QueueId} (hq : (t.queue n.val).record = (s.queue n.val).record) (hf : t.fns = s.fns)
    (d : Desc) : t.headerCause n d = s.headerCause n d := by
  unfold State.headerCause
  dsimp only
  rw [State.actsFor_congr hq, State.fn_congr hf, Queue.mgmt_congr hq, Queue.owner_congr hq]

theorem State.readDesc_of_headerCause {s : State} {n : QueueId}
    (h : s.headerCause n (s.descAt (s.queue n.val) (s.queue n.val).head.toNat) = 0) :
    s.readDesc n = (s.setQueue n.val { s.queue n.val with head := (s.queue n.val).head + 1 }).addOp
      { Op.new n s.nextOp (s.descAt (s.queue n.val) (s.queue n.val).head.toNat)
          (s.actsFor n (s.descAt (s.queue n.val) (s.queue n.val).head.toNat)) with readBeat := s.beatNow } := by
  unfold State.readDesc
  extract_lets q d base o t c
  have hrecord : (t.queue n.val).record = (s.queue n.val).record :=
    (congrArg Queue.record (State.queue_setQueue s n.val { q with head := q.head + 1 }) :)
  have hc : c = 0 := (State.headerCause_congr (s := s) (t := t) hrecord rfl d).trans h
  exact if_neg (not_not.mpr hc)

/-- One descriptor before the tail is read, where nothing stands in its way. -/
theorem State.readDescs_one {s : State} {n : QueueId} (hrun : (s.queue n.val).stopped = false)
    (hne : (s.queue n.val).head ≠ (s.queue n.val).tail) (hgo : s.dispatching n = true)
    (hroom : s.room (s.queue n.val).mgmt (s.queue n.val).owner = true) : s.readDescs n 1 = s.readDesc n := by
  rw [State.readDescs, if_neg (by simp [hrun, hne, hgo]), if_neg (by simp [hroom]), State.readDescs]

/-! ## Waiting records -/

/-- One waiting record that does not interrupt goes out into a ring with room. -/
theorem State.flushRing_one {s : State} {n : QueueId} {r : Record} (hwait : (s.queue n.val).waiting = [r])
    (hroom : (s.queue n.val).cplFull = false) (hirq : flag r 511 = false) :
    s.flushRing n 1 = (s.setQueue n.val { s.queue n.val with waiting := [] }).putRecord n (withFld r 511 511 0) := by
  rw [State.flushRing]
  dsimp only
  split
  · next h => exact absurd (h.symm.trans hwait) (by simp)
  · next r' rest h =>
    obtain ⟨rfl, rfl⟩ := List.cons.inj (h.symm.trans hwait)
    rw [if_neg (ne_true_of_eq_false hroom), if_neg (ne_true_of_eq_false hirq), State.flushRing]

theorem State.putRecord_queue (s : State) (n : QueueId) (r : Record) :
    (s.putRecord n r).queue n.val = { s.queue n.val with cplIndex := (s.queue n.val).cplIndex + 1 } := by
  unfold State.putRecord
  extract_lets q log2 idx phase r' t x
  have ht : t.queue n.val = s.queue n.val := (QueuesKept.write ..).queue _
  rw [State.queue_setQueue]
  exact congrArg (fun y : Queue => { y with cplIndex := q.cplIndex + 1 }) ht

/-! ## Queue records -/

theorem State.takeQueue_enabled {s : State} {r : BitVec 512} (h : flag r 316 = true) : s.takeQueue r = s.enableQueue r := if_pos h

theorem State.takeQueue_disabled {s : State} {r : BitVec 512} (h : flag r 316 = false) :
    s.takeQueue r = s.setQueue (fld r 309 300) { s.queue (fld r 309 300) with record := r, set := true, stopped := false } :=
  if_neg (ne_true_of_eq_false h)

theorem State.enableQueue_queue (s : State) (r : BitVec 512) : (s.enableQueue r).queue (fld r 309 300) = {
    record := r, set := true, stopped := false
    head := BitVec.ofNat 32 (s.nat (compKey (fld r 90 48 / 64 * 64)) 4), tail := BitVec.ofNat 32 (s.nat (compKey (fld r 90 48 / 64 * 64)) 4)
    cplIndex := 0, cplHead := 0, waiting := [], irqPending := 0, timer := false, skips := []
    event := (s.queue (fld r 309 300)).event, pass := (s.queue (fld r 309 300)).pass
    sequence := (s.queue (fld r 309 300)).sequence, request := (s.queue (fld r 309 300)).request } := by
  unfold State.enableQueue
  exact ((QueuesKept.write ..).queue _).trans (State.queue_setQueue ..)

theorem State.enableQueue_queue_ne (s : State) {r : BitVec 512} {k : Nat} (h : k ≠ fld r 309 300) : (s.enableQueue r).queue k = s.queue k := by
  unfold State.enableQueue
  exact ((QueuesKept.write ..).queue _).trans (State.queue_setQueue_ne _ _ _ _ (Ne.symm h))

/-- Enabling a queue writes its head line. -/
theorem State.enableQueue_nat (s : State) (r : BitVec 512) :
    (s.enableQueue r).nat (compKey (fld r 133 91 / 64 * 64)) 4
      = (BitVec.ofNat 32 (s.nat (compKey (fld r 90 48 / 64 * 64)) 4) : Word).toNat := by
  unfold State.enableQueue
  exact State.nat_write_word ..

theorem State.enableQueue_memByte (s : State) (r : BitVec 512) {a : Nat}
    (h : a < compKey (fld r 133 91 / 64 * 64) ∨ compKey (fld r 133 91 / 64 * 64) + 4 ≤ a) :
    memByte (s.enableQueue r).mem a = memByte s.mem a := by
  unfold State.enableQueue
  dsimp only
  rw [State.write_mem, memByte_write_out, State.setQueue_mem]
  rwa [length_leBytes]

end Sys2Proof.Machine

namespace Sys2Proof.Laws
open Sys2Proof.Machine Sys2Proof.Safety

variable {s b : State} {q : QueueId} {d : Desc} {o : Op}

theorem exec_setQueue_of_control (h : Control s q d 0x5A o b) (hr : b.recordCause o (ctAddr d) 64 = 0)
    (hc : b.setQueueCause o (BitVec.ofNat 512 (b.record o 64)) = 0) :
    exec (.setQueue q d) s = .next ((b.takeQueue (BitVec.ofNat 512 (b.record o 64))).done o) := by
  refine congrArg Host.Outcome.next ((control_issue h rfl _).trans ?_)
  dsimp only
  rw [if_neg (not_not.mpr hr), if_neg (not_not.mpr hc)]

theorem exec_setCoalesce_of_control (h : Control s q d 0x5B o b) : exec (.setCoalesce q d) s = .next (
    if b.isMgmt o then { b with mgmtCoalesce := (fld d 135 128 + 1, fld d 151 136) }.done o
    else (b.modFn o.fn (fun x => { x with coalesceCount := fld d 135 128 + 1, coalesceTime := fld d 151 136 })).done o) :=
  congrArg Host.Outcome.next (control_issue h rfl _)

theorem exec_setEventVector_of_control (h : Control s q d 0x5C o b) : exec (.setEventVector q d) s = .next (
    if b.isMgmt o then { b with mgmtEvent := (fld d 106 64, BitVec.ofNat 32 (fld d 159 128)) }.done o
    else (b.modFn o.fn (fun x => { x with eventAddr := fld d 106 64, eventData := BitVec.ofNat 32 (fld d 159 128) })).done o) :=
  congrArg Host.Outcome.next (control_issue h rfl _)

/-- Settles O26: the queue by its record's ENABLE, coalescing and event vector by who sets them. -/
theorem queueSet : Obligations.QueueSet := by
  unfold Obligations.QueueSet
  refine fun s b q d o => ⟨fun h hr => ?record,
    fun h => ⟨fun hm => (exec_setCoalesce_of_control h).trans (congrArg _ (if_pos hm)),
      fun hm => (exec_setCoalesce_of_control h).trans (congrArg _ (if_neg (ne_true_of_eq_false hm)))⟩,
    fun h => ⟨fun hm => (exec_setEventVector_of_control h).trans (congrArg _ (if_pos hm)),
      fun hm => (exec_setEventVector_of_control h).trans (congrArg _ (if_neg (ne_true_of_eq_false hm)))⟩⟩
  case record =>
    intro r n line tail hc
    have hrecord : BitVec.ofNat 512 (b.record o 64) = r := by
      simp only [r]
      rw [State.record, (Issues_desc h.issues).1]
    refine ⟨b.takeQueue r, ?_, ?_⟩
    · rw [← hrecord]
      exact exec_setQueue_of_control h hr (by rw [hrecord]; exact hc)
    · cases hen : flag r 316 with
      | true =>
        rw [State.takeQueue_enabled hen]
        have hq := b.enableQueue_queue r
        refine ⟨?_, ?_, ?_, fun k hk => State.enableQueue_queue_ne _ hk, fun _ => ⟨?_, ?_, ?_, ?_, ?_,
          State.enableQueue_nat .., fun a ha => State.enableQueue_memByte b r ha⟩, nofun⟩
        all_goals
          rw [hq]
      | false =>
        rw [State.takeQueue_disabled hen]
        have hq := State.queue_setQueue b n { b.queue n with record := r, set := true, stopped := false }
        refine ⟨?_, ?_, ?_, fun k hk => State.queue_setQueue_ne _ _ _ _ (Ne.symm hk), nofun, fun _ => ⟨State.setQueue_mem .., ?_, ?_⟩⟩
        all_goals
          rw [hq]

/-! ## Watchers -/

theorem exec_tailWrite_of_set {w : Word} (h : (s.queue q.val).set = true) : exec (.tailWrite q w) s =
    .next ((s.write (compKey (lineOf (fld (s.queue q.val).record 90 48))) (leBytes 4 w.toNat)).seeTail q) := if_pos h

theorem exec_cplHeadWrite_of_set {w : Word} (h : (s.queue q.val).set = true) : exec (.cplHeadWrite q w) s =
    .next ((s.write (compKey (lineOf (fld (s.queue q.val).record 224 182))) (leBytes 4 w.toNat)).seeCplHead q) := if_pos h

/-- The watcher of an enabled queue that runs takes the tail just written, or stops on one too far ahead. -/
theorem seeTail_write {m : State} {w : Word} (hm : s.write (compKey (lineOf (fld (s.queue q.val).record 90 48))) (leBytes 4 w.toNat) = m)
    (hen : (s.queue q.val).enabled = true) (hrun : (s.queue q.val).stopped = false) :
    m.seeTail q = if 2 ^ fld (s.queue q.val).record 47 43 < (w - (s.queue q.val).head).toNat
      then m.stopQueue q (w - (s.queue q.val).head).toNat else (m.setQueue q.val { s.queue q.val with tail := w }).watch q := by
  have hq : m.queue q.val = s.queue q.val := hm ▸ (QueuesKept.write ..).queue _
  have hw : BitVec.ofNat 32 (m.nat (compKey (lineOf (qrTailAddr (s.queue q.val).record))) 4) = w := hm ▸ State.word_write ..
  unfold State.seeTail
  dsimp only
  rw [hq, hw, if_neg (by simp [hen, hrun])]
  rfl

/-- The device takes the completion head just written and lets waiting records out. -/
theorem seeCplHead_write {m : State} {w : Word}
    (hm : s.write (compKey (lineOf (fld (s.queue q.val).record 224 182))) (leBytes 4 w.toNat) = m) (hset : (s.queue q.val).set = true) :
    m.seeCplHead q = (m.setQueue q.val { s.queue q.val with cplHead := w }).flushRing q (s.queue q.val).waiting.length := by
  have hq : m.queue q.val = s.queue q.val := hm ▸ (QueuesKept.write ..).queue _
  have hw : BitVec.ofNat 32 (m.nat (compKey (lineOf (qrCplHeadAddr (s.queue q.val).record))) 4) = w := hm ▸ State.word_write ..
  unfold State.seeCplHead
  dsimp only
  rw [hq, hw, if_neg (by simp [hset])]

/-- A queue one descriptor behind its tail reads it and shows its new HEAD. -/
theorem watch_one (hrun : (s.queue q.val).stopped = false) (htail : (s.queue q.val).tail = (s.queue q.val).head + 1)
    (hgo : s.dispatching q = true) (hroom : s.room (s.queue q.val).mgmt (s.queue q.val).owner = true)
    (hcause : s.headerCause q (s.descAt (s.queue q.val) (s.queue q.val).head.toNat) = 0) :
    s.watch q = (s.readDesc q).write (compKey (lineOf (fld (s.queue q.val).record 133 91))) (leBytes 4 (s.queue q.val).tail.toNat)
      ∧ (s.readDesc q).queue q.val = { s.queue q.val with head := (s.queue q.val).tail }
      ∧ (∀ k, k ≠ q.val → (s.readDesc q).queue k = s.queue k)
      ∧ (s.readDesc q).ops = s.ops ++ [{ Op.new q s.nextOp (s.descAt (s.queue q.val) (s.queue q.val).head.toNat)
          (s.actsFor q (s.descAt (s.queue q.val) (s.queue q.val).head.toNat)) with readBeat := s.beatNow }]
      ∧ (s.readDesc q).nextOp = s.nextOp + 1 := by
  have hne : (s.queue q.val).head ≠ (s.queue q.val).tail := by
    rw [htail]
    bv_omega
  have hlen : ((s.queue q.val).tail - (s.queue q.val).head).toNat = 1 := by
    rw [htail]
    bv_omega
  have hread := State.readDesc_of_headerCause hcause
  have hq : (s.readDesc q).queue q.val = { s.queue q.val with head := (s.queue q.val).tail } := by
    rw [hread, htail]
    exact State.queue_setQueue ..
  refine ⟨?_, hq, fun k hk => ?_, ?_, ?_⟩
  · unfold State.watch
    dsimp only
    rw [hlen, State.readDescs_one hrun hne hgo hroom, hq, if_neg (Ne.symm hne)]
    rfl
  · rw [hread]
    exact State.queue_setQueue_ne _ _ _ _ (Ne.symm hk)
  all_goals
    rw [hread]
    rfl

/-- Settles O27: a tail by how far it is ahead, a completion head by what waits. -/
theorem queueWatched : Obligations.QueueWatched := by
  unfold Obligations.QueueWatched
  intro s q w x line m d u
  have hm : s.write (compKey (lineOf (fld (s.queue q.val).record 90 48))) (leBytes 4 w.toNat) = m := rfl
  have hmq (k : Nat) : m.queue k = s.queue k := (QueuesKept.write ..).queue k
  clear_value m
  refine ⟨fun hen hrun hfar => ?far, fun hen hrun hw hgo hroom hcause => ?one, fun hset hwait => ?empty, fun hset hw r hwait hirq => ?waiting,
    fun htimer hpend => ?timer⟩
  case far =>
    have hset : x.set = true := (Bool.and_eq_true_iff.mp hen).1
    obtain ⟨hq, hops⟩ := State.stopQueue_queue m q (w - x.head).toNat
    refine ⟨m.stopQueue q (w - x.head).toNat, ?_, ?_, ?_, ?_⟩
    · rw [exec_tailWrite_of_set hset, hm, seeTail_write hm hen hrun, if_pos hfar]
    · rw [hq]
    · rw [hq, hmq]
    · rw [hops, ← hm, State.write_ops]
  case one =>
    have hset : x.set = true := (Bool.and_eq_true_iff.mp hen).1
    have hu : u.queue q.val = { x with tail := w } := State.queue_setQueue ..
    have hdesc : u.descAt (u.queue q.val) (u.queue q.val).head.toNat = d := by
      rw [hu, State.descAt]
      rfl
    have hnear : ¬ 2 ^ fld x.record 47 43 < (w - x.head).toNat := by
      have hone : (w - x.head).toNat = 1 := by
        rw [hw]
        bv_omega
      rw [hone]
      exact Nat.not_lt.mpr Nat.one_le_two_pow
    obtain ⟨hwatch, hq, hother, hops, hnext⟩ := watch_one (s := u) (q := q) (by rw [hu]; exact hrun) (by rw [hu]; exact hw) hgo
      (by rw [hu]; exact hroom) (by rw [hdesc]; exact hcause)
    have hacts : u.actsFor q d = s.actsFor q d := State.actsFor_congr (by rw [hu]) d
    have hframe : u.ops = s.ops ∧ u.nextOp = s.nextOp ∧ u.beatNow = s.beatNow := by
      refine ⟨?_, ?_, ?_⟩ <;> simp only [u, ← hm, State.beatNow, State.setQueue_ops, State.setQueue_nextOp, State.setQueue_beat,
        State.write_ops, State.write_nextOp, State.write_beat]
    rw [hdesc, hacts, hframe.1, hframe.2.1, hframe.2.2] at hops
    have htail : (u.queue q.val).tail = w := by rw [hu]
    have hrecord : (u.queue q.val).record = x.record := by rw [hu]
    rw [htail, hrecord] at hwatch
    have hkept := QueuesKept.write (u.readDesc q) (compKey (lineOf (fld x.record 133 91))) (leBytes 4 w.toNat)
    refine ⟨u.watch q, ?_, ?_, ?_, ?_, ?_, ?_, fun k hk => ?_⟩
    · rw [exec_tailWrite_of_set hset, hm, seeTail_write hm hen hrun, if_neg hnear]
    all_goals rw [hwatch]
    · rw [hkept.queue, hq]
      exact htail
    · rw [hkept.queue, hq]
      exact htail
    · rw [State.write_ops, hops]
    · rw [State.write_nextOp, hnext, hframe.2.1]
    · exact State.nat_write_word ..
    · rw [hkept.queue, hother k hk]
      exact (State.queue_setQueue_ne _ _ _ _ (Ne.symm hk)).trans (hmq k)
  case empty =>
    generalize hc : s.write (compKey (lineOf (fld x.record 224 182))) (leBytes 4 w.toNat) = c
    have hexec : exec (.cplHeadWrite q w) s = .next (c.setQueue q.val { x with cplHead := w }) := by
      have hlen : (s.queue q.val).waiting.length = 0 := congrArg List.length hwait
      rw [exec_cplHeadWrite_of_set hset, hc, seeCplHead_write hc hset, hlen, State.flushRing]
    refine ⟨_, hexec, ?_, ?_, ?_, ?_⟩
    · rw [State.setQueue, State.setQueue, ← hc, State.write_queues]
    · rw [State.nat, State.setQueue_mem, ← hc]
      exact State.nat_write_word ..
    · rw [State.setQueue_ops, ← hc, State.write_ops]
    · rw [State.setQueue_regs, ← hc, State.write_regs]
  case waiting =>
    generalize hc : s.write (compKey (lineOf (fld x.record 224 182))) (leBytes 4 w.toNat) = c
    have hq : (c.setQueue q.val { x with cplHead := w }).queue q.val = { x with cplHead := w } := State.queue_setQueue ..
    have hroom : ({ x with cplHead := w } : Queue).cplFull = false := by
      rw [Queue.cplFull, hw, BitVec.sub_self]
      exact decide_eq_false (Ne.symm (Nat.two_pow_pos _).ne')
    have hexec : exec (.cplHeadWrite q w) s = .next (((c.setQueue q.val { x with cplHead := w }).setQueue q.val
        { x with cplHead := w, waiting := [] }).putRecord q (withFld r 511 511 0)) := by
      have hlen : (s.queue q.val).waiting.length = 1 := congrArg List.length hwait
      rw [exec_cplHeadWrite_of_set hset, hc, seeCplHead_write hc hset, hlen,
        State.flushRing_one (by rw [hq]; exact hwait) (by rw [hq]; exact hroom) hirq, hq]
    refine ⟨_, hexec, ?_, ?_, ?_⟩
    all_goals rw [State.putRecord_queue, State.queue_setQueue]
  case timer =>
    have hsend : x.timer = true ∧ x.irqPending ≠ 0 := ⟨htimer, hpend⟩
    have hdata : (BitVec.ofNat 32 (fld x.record 299 268) : Word).toNat = fld x.record 299 268 := by
      rw [BitVec.toNat_ofNat, Nat.mod_eq_of_lt (fld_lt x.record 299 268)]
    have hexec : exec (.coalesceTimer q) s = .next (s.interrupt q) := if_pos hsend
    rw [hexec, State.interrupt, State.message]
    dsimp only
    rw [hdata]

end Sys2Proof.Laws

/-! # Register writes with actions (R34 to R36, R240, R259, R379, R400, R402, R442, R443, R469 to R473) -/

namespace Sys2Proof.Machine
open Sys2Proof.Laws (Notices)

/-! ## The gate of a register write -/

theorem State.rwWrite_no_page {s : State} {w : Window} {off : Nat} (h : (s.pageAt? w off).isSome = false) (go : State → State) :
    s.rwWrite w off go = s :=
  if_pos (Option.isSome_eq_false_iff.mp h)

theorem State.rwWrite_locked {s : State} {w : Window} {off : Nat} (h : (s.pageAt? w off).isSome = true) (hlock : s.locked off = true)
    (go : State → State) : s.rwWrite w off go = s.refuseAccess w off 0xFFFD := by
  rw [State.rwWrite, if_neg (by simp [Option.isNone_iff_eq_none, Option.isSome_iff_ne_none.mp h]), if_pos hlock]

theorem State.rwWrite_open {s : State} {w : Window} {off : Nat} (h : (s.pageAt? w off).isSome = true ∧ s.locked off = false)
    (go : State → State) : s.rwWrite w off go = go s := by
  rw [State.rwWrite, if_neg (by simp [Option.isNone_iff_eq_none, Option.isSome_iff_ne_none.mp h.1]), if_neg (ne_true_of_eq_false h.2)]

theorem State.actWrite_answered {s : State} {w : Window} {off : Nat} (h : (s.pageAt? w off).isSome = true) (go : State → State) :
    s.actWrite w off go = go s := by
  obtain ⟨⟨k, n⟩, hp⟩ := Option.isSome_iff_exists.mp h
  exact State.actWrite_page hp go

/-! ## What elections and HELLO frames leave -/

namespace RegKept
variable {off : Nat} {s t u : State}

theorem setReg_ne (s : State) (v : Nat) {at_ : Nat} (h : at_ ≠ off) : RegKept off s (s.setReg 0 at_ v) :=
  ⟨State.reg_setReg_ne _ _ _ _ _ _ (regKey_ne h)⟩

theorem raise (s : State) {page bit : Nat} (h : page + 0x18 ≠ off) : RegKept off s (s.raise page bit) := by
  unfold State.raise
  extract_lets v t
  have ht : RegKept off s t := (setReg_ne s _ h).trans (of_regs (State.eventTo_regs ..))
  refine ite (refl s) ?_
  split
  · exact ht.trans (of_regs (State.eventTo_regs ..))
  · exact ht

theorem rebuildTree (s : State) : RegKept off s s.rebuildTree := by
  obtain ⟨b, h⟩ := s.rebuildTree_eq
  exact h ▸ of_regs rfl

theorem elect (hpage : off / 0x1000 ≠ 4) (hhigh : off < 2 ^ 26) (hstat : 0x1018 ≠ off) (s : State) : RegKept off s s.elect := by
  unfold State.elect State.newMaster
  extract_lets master old beat t u v w
  have ht : RegKept off s t := of_regs rfl
  have hu : RegKept off t u := ite (refl t) ((raise t hstat).trans (logEvent hpage hhigh _ (by decide) (by decide) none 0 none master 0))
  have hw : RegKept off u w := of_regs rfl
  exact ((ht.trans hu).trans hw).trans (rebuildTree w)

theorem sendOn (hlow : off < 0x500000) (s : State) (p : Nat) (fr : Frame) : RegKept off s (s.sendOn p fr) := by
  have hwait (u : State) : RegKept off u (u.wait (pageFab p + 0x6C)) :=
    (of_regs rfl : RegKept off u u.draw.2).trans (setReg_ne _ _ (by simp only [pageFab]; omega))
  have hset (x : Port) : RegKept off s (s.setPort p x) := of_regs rfl
  exact ite (refl s) (ite (ite ((hset _).trans (hwait _)) (hset _)) (refl s))

theorem sendHello (hlow : off < 0x500000) (s : State) (p : Nat) : RegKept off s (s.sendHello p) := ite (refl s) (sendOn hlow ..)

theorem helloIfChanged (hlow : off < 0x500000) (s before : State) : RegKept off s (s.helloIfChanged before) :=
  ite (refl s) (foldl _ _ _ (sendHello hlow))

end RegKept

theorem State.rebuildTree_period (s : State) : s.rebuildTree.beat.period = s.beat.period := by
  unfold State.rebuildTree
  split
  · rfl
  · dsimp only
    split <;> rfl

theorem State.newMaster_period (s : State) (master : Nat) : (s.newMaster master).beat.period = s.beat.period := by
  unfold State.newMaster
  extract_lets old beat t
  split
  · rfl
  · have hbeat := ((Notices.raise t pageBeat 1).trans (.logPkg _ 0x9303 0 master 0)).beat
    exact (congrArg Beat.period hbeat :)

theorem State.elect_period (s : State) : s.elect.beat.period = s.beat.period :=
  (State.rebuildTree_period ..).trans (State.newMaster_period ..)

theorem Traffic.helloIfChanged (s before : State) : Traffic s (s.helloIfChanged before) := ite (refl s) (sendHellos s)

/-! ## Plans of the dies -/

theorem State.startPlan_die (s : State) (d k : Nat) (h : (s.die k).planRunning = true) : ((s.startPlan d).die k).planRunning = true := by
  unfold State.startPlan
  rcases eq_or_ne d k with rfl | hne
  · rw [State.die_setDie]
  · rw [State.die_setDie_ne _ _ _ _ hne, h]

end Sys2Proof.Machine

namespace Sys2Proof.Laws
open Sys2Proof.Machine

variable {s : State} {v : Word}

/-- A write of an RW register of the management window where no page answers, and where the page is locked. -/
theorem rwWrite_refused {i : Instr} {o : Nat} {go : State → State} (h : exec i s = .next (s.rwWrite .mgmt o go)) :
    ((s.pageAt? .mgmt o).isSome = false → exec i s = .next s)
      ∧ ((s.pageAt? .mgmt o).isSome = true → s.locked o = true → exec i s = .next (s.pageError (pageBase o) 0xFFFD none true)) :=
  ⟨fun hp => h.trans (congrArg _ (State.rwWrite_no_page hp go)), fun hp hl => h.trans (congrArg _ (State.rwWrite_locked hp hl go))⟩

theorem exec_of_rwWrite {i : Instr} {o : Nat} {go : State → State} (hp : (s.pageAt? .mgmt o).isSome = true ∧ s.locked o = false)
    (h : exec i s = .next (s.rwWrite .mgmt o go)) : exec i s = .next (go s) := h.trans (congrArg _ (State.rwWrite_open hp go))

theorem inJob_iff (s : State) : s.inJob = true ↔ ∃ f, (s.fn f).job.st ≠ 0 ∨ (s.fn f).job.pendingMap ≠ none := by
  simp [State.inJob, allFns, Option.isSome_iff_ne_none]

/-- A BEAT_CFG that passes sets the period and stands in its register. -/
theorem writeBeatCfg_spec (s : State) {n : Nat} (h : ¬ (n % 16 < 2 ∨ 9 < n % 16 ∨ n / 16 % 4 = 3
      ∨ ((n % 16 ≠ s.reg 0 0x1040 % 16 ∨ n / 16 % 4 ≠ s.reg 0 0x1040 / 16 % 4) ∧ s.planHeld = true))) :
    (s.writeBeatCfg n).beat.period = n % 16 ∧ (s.writeBeatCfg n).reg 0 0x1040 = n % 256 := by
  unfold State.writeBeatCfg
  dsimp only
  rw [if_neg (by rw [Bool.or_eq_true, decide_eq_true_iff, decide_eq_true_iff]; exact h)]
  generalize ht : (s.setReg 0 (pageBeat + 0x40) (n % 256)).modBeat (fun b => { b with period := n % 16, fallback := false }) = t
  have hperiod : t.beat.period = n % 16 := ht ▸ rfl
  have hreg : t.reg 0 0x1040 = n % 256 := by
    rw [← ht]
    exact (State.reg_setReg ..).trans (Nat.mod_eq_of_lt (by omega))
  have hkept : RegKept 0x1040 t (t.elect.helloIfChanged s) :=
    (RegKept.elect (by decide) (by decide) (by decide) t).trans (.helloIfChanged (by decide) ..)
  refine ⟨?_, hkept.reg.trans hreg⟩
  rw [(Traffic.helloIfChanged ..).beat, State.elect_period, hperiod]

theorem eventTo_log (s : State) (win page bit : Nat) : (s.eventTo win page bit).log = s.log := by
  have hmessage (addr : Nat) (data : Word) : (s.message addr data).log = s.log := by
    unfold State.message
    split
    · rfl
    · exact State.write_log ..
  unfold State.eventTo
  split
  · split
    · exact hmessage ..
    · exact hmessage ..
  · rfl

theorem raiseLog_log (s : State) (win bit : Nat) : (s.raiseLog win bit).log = s.log := by
  unfold State.raiseLog
  extract_lets v
  split
  · rfl
  · exact eventTo_log ..

/-- Entries that leave count in the views of functions; the log itself stays for the moment. -/
theorem dropEntry_log (s : State) (e : LogEntry) : (s.dropEntry e).log = s.log := by
  refine List.foldlRecOn e.views _ (motive := fun (t : State) => t.log = s.log) rfl fun t ht x _ => ?_
  split
  · rw [← ht]
    exact raiseLog_log ..
  · exact ht

/-- A write of RD_SEQ frees the entries it passes. -/
theorem writeRdSeq_log (s : State) (n : Nat) :
    (s.writeRdSeq .mgmt n).log = s.log.filter (fun e => !decide (e.seq < min (max n (s.oldest .mgmt)) (s.wrSeq 0))) := by
  unfold State.writeRdSeq
  extract_lets k t gone u
  rw [if_neg (not_not.mpr rfl)]
  have hu : u.log = t.log := List.foldlRecOn gone _ (motive := fun (x : State) => x.log = t.log) rfl fun x hx e _ => (dropEntry_log x e).trans hx
  exact congrArg (List.filter (fun e => !decide (e.seq < k))) hu

/-- A start of every die's plan. -/
theorem writePlanCtrl_spec (s : State) (n : Nat) (hn : n < 2 ^ 32) :
    (s.writePlanCtrl n).reg 0 0x2084 = n &&& 2
      ∧ (n.testBit 0 = true → ∀ d < 4, ((s.writePlanCtrl n).die d).planRunning = true)
      ∧ (n.testBit 0 = false → (s.writePlanCtrl n).dies = s.dies) := by
  unfold State.writePlanCtrl
  extract_lets t
  have hlt : n &&& 2 < 2 ^ 32 := Nat.lt_of_le_of_lt Nat.and_le_left hn
  have hreg : t.reg 0 0x2084 = n &&& 2 := by
    have hset := State.reg_setReg s 0 (pagePwr + 0x84) (n &&& 2)
    rw [Nat.mod_eq_of_lt hlt] at hset
    exact hset
  have hdies : t.dies = s.dies := State.setReg_dies ..
  clear_value t
  refine ⟨?_, fun h d hd => ?_, fun h => ?_⟩
  · have hplans : ([0, 1, 2, 3].foldl (fun (s : State) d => s.startPlan d) t).regs = t.regs :=
      List.foldlRecOn _ _ (motive := fun (x : State) => x.regs = t.regs) rfl fun x hx d _ => hx
    split
    · rw [State.reg_congr hplans, hreg]
    · exact hreg
  · rw [if_pos h]
    have h0 := State.startPlan_planRunning t 0
    have h1 := State.startPlan_planRunning (t.startPlan 0) 1
    have h2 := State.startPlan_planRunning ((t.startPlan 0).startPlan 1) 2
    have h3 := State.startPlan_planRunning (((t.startPlan 0).startPlan 1).startPlan 2) 3
    interval_cases d
    · exact State.startPlan_die _ _ _ (State.startPlan_die _ _ _ (State.startPlan_die _ _ _ h0))
    · exact State.startPlan_die _ _ _ (State.startPlan_die _ _ _ h1)
    · exact State.startPlan_die _ _ _ h2
    · exact h3
  · rw [if_neg (ne_true_of_eq_false h), hdies]

/-- An EPOCH_EDGE too near, or on a package with a partner, is ignored. -/
theorem armEpoch_refused (s : State) {n : Nat} (h : s.stagedLow 0x1058 + n * 2 ^ 32 < s.beatNow + 2 ∨ s.hasPartner = true) :
    s.armEpoch n = s.ignoreWrite .mgmt 0x105C := by
  unfold State.armEpoch
  extract_lets low edge number at1
  exact if_pos h

/-- An EPOCH_EDGE far enough ahead arms its epoch. -/
theorem armEpoch_spec (s : State) {n : Nat} (hedge : s.beatNow + 2 ≤ s.stagedLow 0x1058 + n * 2 ^ 32) (hpartner : s.hasPartner = false) :
    (s.armEpoch n).beat.armed = some (if s.beat.epochSet then s.stagedLow 0x1058 + n * 2 ^ 32 else s.stagedLow 0x1058 + n * 2 ^ 32 - 2 ^ 63,
        BitVec.ofNat 64 (s.reg 0 0x1050 + s.reg 0 0x1054 * 2 ^ 32))
      ∧ (s.armEpoch n).beat.number = s.beat.number := by
  unfold State.armEpoch
  extract_lets low edge number at1
  rw [if_neg (by simp only [hpartner, Bool.false_eq_true, or_false]; exact Nat.not_lt.mpr hedge)]
  exact ⟨rfl, rfl⟩

theorem exec_registerWrite (s : State) (w : Window) (off : BitVec 26) (bytes : Nat) (data : BitVec 64) :
    exec (.registerWrite w off bytes data) s =
      if bytes = 4 then .next (s.write32 w off.toNat (data.toNat % 2 ^ 32))
      else if bytes = 8 then .next ((s.write32 w off.toNat (data.toNat % 2 ^ 32)).write32 w (off.toNat + 4) (data.toNat / 2 ^ 32))
      else .next (s.actWrite w off.toNat (fun s => s.refuseAccess w off.toNat 0xFFFE)) := by
  change execRegisterWrite w off bytes data s = _
  rw [execRegisterWrite]

/-- Settles O54: every register by the gate of its page, then by its own branches. -/
theorem registersWritten : Obligations.RegistersWritten := by
  unfold Obligations.RegistersWritten
  intro s v stack port width height w off data n open_ ignored p
  refine ⟨?refused, fun hp => ⟨fun h => ?_, fun h => ?_, inJob_iff s⟩, fun hp => ?beat, fun hp => ?epoch, fun hp => ?plan, fun hp => ?gov,
    fun hp => ?margin, fun hp hcfg => ?port, fun hp => ?rdSeq, fun hp => ?apply, fun hp hgo c hc => ?order, ?four, ?eight,
    fun bytes h4 h8 hp => ?bytes, fun k i x hp hview hirq hlock => ?irqEn⟩
  case refused =>
    intro i o h
    simp only [List.mem_cons, Prod.mk.injEq, List.not_mem_nil, or_false] at h
    rcases h with ⟨rfl, rfl⟩ | ⟨rfl, rfl⟩ | ⟨rfl, rfl⟩ | ⟨rfl, rfl⟩ | ⟨rfl, rfl⟩ | ⟨rfl, rfl⟩ | ⟨rfl, rfl⟩ | ⟨rfl, rfl⟩ <;>
      exact rwWrite_refused rfl
  case refine_1 =>
    rw [exec_of_rwWrite hp rfl, State.writeChipId, if_pos h]
    rfl
  case refine_2 =>
    rw [exec_of_rwWrite hp rfl, State.writeChipId, if_neg (ne_true_of_eq_false h)]
    rfl
  case beat =>
    intro old bad
    refine ⟨fun h => ?_, fun h => ?_⟩
    · rw [exec_of_rwWrite hp rfl, State.writeBeatCfg]
      rw [if_pos (by rw [Bool.or_eq_true, decide_eq_true_iff, decide_eq_true_iff]; exact h)]
      rfl
    · exact ⟨_, exec_of_rwWrite hp rfl, writeBeatCfg_spec s h⟩
  case epoch =>
    intro edge
    exact ⟨fun h => (exec_of_rwWrite hp rfl).trans (congrArg Host.Outcome.next (armEpoch_refused s h)),
      fun hedge hpartner => ⟨_, exec_of_rwWrite hp rfl, armEpoch_spec s hedge hpartner⟩⟩
  case plan => exact ⟨_, exec_of_rwWrite hp rfl, writePlanCtrl_spec s n v.isLt⟩
  case gov =>
    rw [exec_of_rwWrite hp rfl, State.writeGovCfg]
    rfl
  case margin =>
    refine ⟨fun h => ?_, fun h hheld => ?_⟩
    · rw [exec_of_rwWrite hp rfl, State.sweepFromPage, if_pos (by rw [h]; rfl)]
      rfl
    · rw [exec_of_rwWrite hp rfl, State.sweepFromPage, if_neg (by rw [h]; decide), if_pos hheld]
      rfl
  case port =>
    have hsame : s.writePortCfg p n = s := if_pos hcfg
    refine ⟨fun h => ?_, fun h hen hclock => ?_⟩
    · rw [exec_of_rwWrite hp rfl, hsame, if_neg (ne_true_of_eq_false h)]
    · have hgo : ¬ ((!s.portEnabled p) = true ∨ (!s.portClock p) = true) := by simp [hen, hclock]
      rw [exec_of_rwWrite hp rfl, hsame, if_pos h, State.retrainPort, if_neg hgo]
  case rdSeq => exact ⟨_, exec_of_rwWrite hp rfl, writeRdSeq_log s n⟩
  case apply =>
    have hexec : exec .apply s = .next s.applyQueue := congrArg Host.Outcome.next (State.actWrite_answered hp _)
    refine ⟨fun h => ?_, fun hgood hmgmt => ?_⟩
    · rw [hexec, State.applyQueue]
      rw [if_pos (by simpa using h)]
      rfl
    · rw [hexec, State.applyQueue]
      rw [if_neg (by simp [hgood, hmgmt])]
      rfl
  case order =>
    have hexec : exec (.cmapOrder v) s = .next (s.orderFromPage n) := congrArg Host.Outcome.next (State.actWrite_answered hp _)
    rw [hexec, State.orderFromPage, if_neg (by rw [hgo]; decide), hc]
    refine ⟨fun h => ?_, fun h => ?_⟩
    · dsimp only
      rw [if_pos h]
      rfl
    · dsimp only
      rw [if_neg h]
  case four => rw [exec_registerWrite, if_pos rfl]
  case eight => rw [exec_registerWrite, if_neg (by decide), if_pos rfl]
  case bytes => rw [exec_registerWrite, if_neg h4, if_neg h8, State.actWrite_answered hp]
  case irqEn =>
    have hrw : isRw w k (regOff off.toNat) = true := by
      rw [hirq]
      cases w with
      | mgmt => rfl
      | fn f => simp [isRw, hview f rfl]
    rw [State.write32, hp]
    dsimp only
    rw [if_pos hrw, State.rwWrite_open ⟨by rw [hp]; rfl, hlock⟩]
    exact if_pos hirq

end Sys2Proof.Laws

/-! # A trouble log that is closed (R433): with the PKC failed, work that is withdrawn leaves no entry -/

namespace Sys2Proof.Laws
open Sys2Proof.Machine

/-- The second state has the boot state of the first, and its log where the PKC has failed. -/
structure LogShut (s t : State) : Prop where
  boot : t.boot = s.boot
  log : s.boot.pkcFailed = true → t.log = s.log

namespace LogShut
variable {s t u : State}

theorem of_eq (hboot : t.boot = s.boot) (hlog : t.log = s.log) : LogShut s t := ⟨hboot, fun _ => hlog⟩

theorem refl (s : State) : LogShut s s := of_eq rfl rfl

theorem trans (h1 : LogShut s t) (h2 : LogShut t u) : LogShut s u :=
  ⟨h2.boot.trans h1.boot, fun h => (h2.log (h1.boot ▸ h)).trans (h1.log h)⟩

theorem ite {c : Prop} [Decidable c] (ht : LogShut s t) (hu : LogShut s u) : LogShut s (if c then t else u) := by
  split
  · exact ht
  · exact hu

theorem foldl {α : Type} (step : State → α → State) (xs : List α) (s : State) (h : ∀ s x, LogShut s (step s x)) :
    LogShut s (xs.foldl step s) :=
  List.foldlRecOn xs step (refl s) fun t ht x _ => ht.trans (h t x)

theorem modStep (s : State) (f : FnId) (g : StepState → StepState) : LogShut s (s.modStep f g) := of_eq rfl rfl
theorem modJob (s : State) (f : FnId) (g : JobState → JobState) : LogShut s (s.modJob f g) := of_eq rfl rfl
theorem setJob (s : State) (j : Nat) (x : MasterJob) : LogShut s (s.setJob j x) := of_eq rfl rfl
theorem modMe (s : State) (i : Nat) (g : Me → Me) : LogShut s (s.modMe i g) := of_eq rfl rfl
theorem modSlot (s : State) (i k : Nat) (g : Slot → Slot) : LogShut s (s.modSlot i k g) := of_eq rfl rfl
theorem setCtx (s : State) (c : Nat) (x : BitVec 1024) : LogShut s (s.setCtx c x) := of_eq rfl rfl
theorem setLink (s : State) (i : Nat) (x : LinkSlot) : LogShut s (s.setLink i x) := of_eq rfl rfl
theorem setPort (s : State) (p : Nat) (x : Port) : LogShut s (s.setPort p x) := of_eq rfl rfl
theorem setQueue (s : State) (n : Nat) (x : Queue) : LogShut s (s.setQueue n x) := of_eq rfl rfl
theorem setReg (s : State) (win off v : Nat) : LogShut s (s.setReg win off v) := of_eq rfl rfl
theorem addReg (s : State) (win off n : Nat) : LogShut s (s.addReg win off n) := of_eq rfl rfl
theorem count (s : State) (off n : Nat) : LogShut s (s.count off n) := of_eq rfl rfl
theorem wait (s : State) (off : Nat) : LogShut s (s.wait off) := of_eq rfl rfl
theorem write (s : State) (a : Nat) (bs : List Byte) : LogShut s (s.write a bs) := of_eq (State.write_boot ..) (State.write_log ..)

/-! ## Notices -/

theorem message (s : State) (addr : Nat) (data : Word) : LogShut s (s.message addr data) := ite (refl s) (write ..)

theorem eventTo (s : State) (win page bit : Nat) : LogShut s (s.eventTo win page bit) := ite (ite (message ..) (message ..)) (refl s)

theorem raise (s : State) (page bit : Nat) : LogShut s (s.raise page bit) := by
  unfold State.raise
  extract_lets v t
  have ht : LogShut s t := (setReg ..).trans (eventTo ..)
  refine ite (refl s) ?_
  split
  · exact ht.trans (eventTo ..)
  · exact ht

theorem errorIn (s : State) (win page code fn : Nat) (mgmt : Bool) : LogShut s (s.errorIn win page code fn mgmt) :=
  ite (addReg ..) ((((addReg ..).trans (setReg ..)).trans (setReg ..)).trans (setReg ..))

theorem pageError (s : State) (page code : Nat) (fn : Option FnId) (mgmt : Bool) : LogShut s (s.pageError page code fn mgmt) := by
  unfold State.pageError
  extract_lets t
  have ht : LogShut s t := errorIn ..
  split
  · exact ite ht (ht.trans (errorIn ..))
  · exact ht

/-- An event leaves the boot state, and changes nothing once the log is closed. -/
theorem logEvent (s : State) (code : Nat) (fn : Option FnId) (inst : Nat) (core : Option CoreId) (d0 d1 : Nat) :
    LogShut s (s.logEvent code fn inst core d0 d1) :=
  ⟨(Notices.logEvent ..).boot, fun h => congrArg State.log (if_pos h)⟩

theorem logFn (s : State) (code : Nat) (f : FnId) (inst d0 d1 : Nat) : LogShut s (s.logFn code f inst d0 d1) := logEvent ..

theorem blame (s : State) (q : Queue) : LogShut s (s.blame q) := (of_eq rfl rfl : LogShut s s.draw.2).trans (pageError ..)

theorem putRecord (s : State) (n : QueueId) (r : Record) : LogShut s (s.putRecord n r) := (write ..).trans (setQueue ..)

theorem postRecord (s : State) (n : QueueId) (r : Record) (irq : Bool) : LogShut s (s.postRecord n r irq) := by
  have hirq (u : State) : LogShut u (u.countIrq n) := ite ((setQueue ..).trans (message ..)) (setQueue ..)
  exact ite (((setQueue ..).trans (wait ..)).trans (blame ..)) (ite ((putRecord ..).trans (hirq _)) (putRecord ..))

/-! ## Operations that end -/

theorem complete (s : State) (o : Op) (status cause n detail : Nat) : LogShut s (s.complete o status cause n detail) := by
  have hdrop : LogShut s ((s.dropOp o.ref).releaseHolds o).draw.2 := of_eq rfl rfl
  exact (hdrop.trans (postRecord _ o.queue _ (flag o.desc 18))).trans (of_eq rfl rfl)

theorem kill (s : State) (o : Op) (status cause : Nat) : LogShut s (s.kill o status cause) :=
  have hparked : LogShut s { s with parked := (takeFirst (parkedFor o) s.parked).2 } := of_eq rfl rfl
  hparked.trans (complete ..)

theorem killAll (s : State) (os : List Op) (status : Nat) : LogShut s (s.killAll os status) := foldl _ _ _ fun s o => kill s o status 0

/-! ## Frames that go out -/

theorem sendOn (s : State) (p : Nat) (fr : Frame) : LogShut s (s.sendOn p fr) :=
  ite (refl s) (ite (ite ((setPort ..).trans (wait ..)) (setPort ..)) (refl s))

theorem sendDown (s : State) (msg : BitVec 256) : LogShut s (s.sendDown msg) := foldl _ _ _ fun s p => sendOn s p _

theorem sendUpTree (s : State) (msg : BitVec 256) : LogShut s (s.sendUpTree msg) := by
  unfold State.sendUpTree; split
  · exact sendOn ..
  · exact refl s

theorem sendMgmt (s : State) (chip : Nat) (payload : List Byte) : LogShut s (s.sendMgmt chip payload) := by
  unfold State.sendMgmt; dsimp only; split
  · exact sendOn ..
  · exact refl s

/-! ## Decisions and the step boundary -/

theorem offsetOf (s : State) (j : MasterJob) (chip : Nat) : LogShut s (s.offsetOf j chip).2 := by
  unfold State.offsetOf; split
  · exact refl s
  · split
    · exact refl s
    · split
      · exact of_eq rfl rfl
      · exact refl s

theorem shiftMember (s : State) (job chip : Nat) (w : Int) : LogShut s (s.shiftMember job chip w) := by
  unfold State.shiftMember
  extract_lets j
  have hoff : LogShut s (s.offsetOf j chip).2 := offsetOf ..
  generalize s.offsetOf j chip = r at hoff
  obtain ⟨old, t⟩ := r
  exact (hoff.trans (setJob ..)).trans (ite (ite (of_eq rfl rfl) (refl _)) (sendMgmt ..))

theorem shiftPower (s : State) (job step : Nat) : LogShut s (s.shiftPower job step) :=
  ite (refl s) (foldl _ _ _ fun s _ => (shiftMember s ..).trans (shiftMember ..))

theorem spoilScarf (s : State) (f : FnId) : LogShut s (s.spoilScarf f) := by
  unfold State.spoilScarf; split
  · exact refl s
  · exact foldl _ _ _ fun _ _ => of_eq rfl rfl

theorem breakJob (s : State) (f : FnId) : LogShut s (s.breakJob f) := ite (refl s) ((modJob ..).trans (raise ..))

theorem allWatch (s : State) (f : FnId) (g : BitVec 1024 → BitVec 1024) : LogShut s (s.allWatch f g) := by
  unfold State.allWatch; split
  · refine foldl _ _ _ fun s id => ?_
    split
    · exact of_eq rfl rfl
    · exact refl s
  · exact refl s

theorem endTrainings (s : State) (f : FnId) : LogShut s (s.endTrainings f) :=
  (foldl _ _ _ fun s _ => ite (setCtx ..) (refl s)).trans (modStep ..)

theorem endScarf (s : State) (f : FnId) : LogShut s (s.endScarf f) := by
  unfold State.endScarf; split
  · exact refl s
  · dsimp only; split
    · exact (modJob ..).trans (complete ..)
    · exact modJob ..

theorem discardStages (s : State) (f : FnId) : LogShut s (s.discardStages f) := (killAll ..).trans (ite (refl _) (count ..))

theorem dropLinks (s : State) (job : Nat) : LogShut s (s.dropLinks job) :=
  ite (foldl _ _ _ fun s _ => ite (setLink ..) (refl s)) (refl s)

theorem sendHellos (s : State) : LogShut s s.sendHellos := foldl _ _ _ fun s _ => ite (refl s) (sendOn ..)

theorem takeMap (s : State) (f : FnId) (m : BitVec 512) : LogShut s (s.takeMap f m) :=
  ((modJob ..).trans (dropLinks ..)).trans (sendHellos _)

theorem runSave (s : State) (o : Op) (d : Desc) : LogShut s (s.runSave o d) := by
  unfold State.runSave; dsimp only; split
  · exact complete ..
  · exact ((write ..).trans ((modJob ..).trans (complete ..))).trans (raise ..)

theorem boundary (s : State) (f : FnId) : LogShut s (s.boundary f) := by
  unfold State.boundary
  extract_lets t u v w job openNow x
  have hv : LogShut s v := of_eq rfl rfl
  have hw : LogShut v w := by
    subst w; split
    · exact takeMap ..
    · exact refl v
  have hx : LogShut w x := foldl _ _ _ fun s _ => ite (setLink ..) (refl s)
  refine (hv.trans (hw.trans hx)).trans ?_
  split
  · split
    · exact runSave ..
    · exact refl x
  · exact refl x

theorem applyDecision (s : State) (f : FnId) (d : Decision) : LogShut s (s.applyDecision f d) := by
  unfold State.applyDecision
  extract_lets job j t u ctxs v w x y u' v' w' x' y' z' e'
  have ht : LogShut s t := setJob ..
  refine ite ?commit ?abort
  case commit =>
    have hv : LogShut t v := of_eq rfl rfl
    have hw : LogShut v w := (endTrainings ..).trans (endScarf ..)
    exact ((ht.trans (hv.trans hw)).trans ((allWatch ..).trans (count ..))).trans ((discardStages ..).trans (boundary ..))
  case abort =>
    have hw : LogShut t w' := ((modStep t f _).trans (endTrainings ..)).trans (allWatch ..)
    have hx : LogShut w' x' := of_eq rfl rfl
    have hz : LogShut x' z' := ((count ..).trans (raise ..)).trans (logFn ..)
    have he : LogShut z' e' := ite (((breakJob ..).trans (raise ..)).trans (logFn ..)) (refl z')
    exact (ht.trans (hw.trans (hx.trans (hz.trans he)))).trans (boundary ..)

theorem holdDecision (s : State) (job : Nat) (d : Decision) : LogShut s (s.holdDecision job d) := by
  refine foldl _ _ _ fun s f => ite (refl s) ?_
  extract_lets t scarf u v w
  have hu : LogShut t u := (of_eq rfl rfl : LogShut t { t with reduces := t.reduces.filter (fun r => decide (r.fn ≠ f)) }).trans
    (foldl _ _ _ fun s p => setPort s p _)
  have hw : LogShut t w := ite (refl t) ((hu.trans (killAll ..)).trans (ite ((spoilScarf ..).trans (breakJob ..)) (refl v)))
  exact ((modStep s f _).trans hw).trans (ite (applyDecision ..) (refl w))

theorem decideStep (s : State) (job step : Nat) (isCommit : Bool) (cause : Nat) : LogShut s (s.decideStep job step isCommit cause) :=
  ((setJob ..).trans (ite (shiftPower ..) (refl _))).trans (ite (sendMgmt ..) ((sendDown ..).trans (holdDecision ..)))

theorem toMaster (s : State) (kind step job arg2 : Nat) : LogShut s (s.toMaster kind step job arg2) :=
  ite (ite (ite (refl s) ((setJob ..).trans (ite (decideStep ..) (refl _)))) (ite (refl s) (decideStep ..))) (sendUpTree ..)

/-- A failure leaves a closed log, and so do the vote and the decisions that come of it. -/
theorem fail (s : State) (o : Op) (cause detail : Nat) : LogShut s (s.fail o cause detail) :=
  (complete ..).trans (ite (ite (refl _) ((modStep ..).trans (ite ((modStep ..).trans (toMaster ..)) (refl _)))) (refl _))

/-! ## Work that is withdrawn -/

theorem addArrival (s : State) (inst slot : Nat) (d : Desc) (a : Arrival) : LogShut s (s.addArrival inst slot d a) :=
  (modSlot s ..).trans (ite (of_eq rfl rfl) (refl _))

theorem drainRows (inst slot : Nat) (as : List Arrival) (s : State) : LogShut s (drainRows inst slot as s) := by
  induction as generalizing s with
  | nil => exact modSlot ..
  | cons a rest ih =>
    unfold Machine.drainRows
    refine ite (modSlot ..) ?_
    split
    · exact (addArrival ..).trans (ih _)
    · exact ih s

theorem openSlot (s : State) (core inst slot : Nat) (d : Desc) : LogShut s (s.openSlot core inst slot d) := by
  unfold State.openSlot; exact modSlot ..

theorem reopen (s : State) (inst slot : Nat) : LogShut s (s.reopen inst slot) := by
  unfold State.reopen; dsimp only; split
  · exact refl s
  · split
    · exact modSlot ..
    · exact ((modSlot ..).trans (openSlot ..)).trans (drainRows ..)

theorem freeSlot (s : State) (inst slot : Nat) : LogShut s (s.freeSlot inst slot) :=
  ((modSlot s inst slot _).trans (modMe _ inst _)).trans (reopen ..)

theorem forgetWork (s : State) (c : Nat) (r : OpRef) (status : Option Nat) : LogShut s (s.forgetWork c r status) := by
  unfold State.forgetWork
  extract_lets clean t x gone u
  have hu : LogShut s u := of_eq rfl rfl
  refine hu.trans (foldl _ _ _ fun s j => ?_)
  split
  · exact kill ..
  · exact fail ..
  · exact refl s

theorem forgetTruss (s : State) (o : Op) : LogShut s (s.forgetTruss o) := foldl _ _ _ fun s _ => modSlot s ..

theorem loseSlot (s : State) (c : Nat) (r : OpRef) : LogShut s (s.loseSlot c r) := by
  unfold State.loseSlot; split
  · exact (ite (forgetTruss ..) (forgetWork ..)).trans (fail ..)
  · exact refl s

theorem discardOne (s : State) (x : Contents) (newest : Bool) : LogShut s (s.discardOne x newest) := by
  unfold State.discardOne
  extract_lets k t u ended ops
  have hu : LogShut s u := (ite (modSlot ..) (refl s)).trans (count ..)
  have hended : LogShut u { u with heldOps := u.heldOps.filter (fun h => !h.added.contains k), ops := ops } := of_eq rfl rfl
  exact hu.trans (ite (refl u) (hended.trans (freeSlot ..)))

theorem discardBy (s : State) (plan : List (Contents × Bool) × List (Nat × OpRef)) : LogShut s (s.discardBy plan) :=
  ((foldl _ _ _ fun s _ => loseSlot s ..).trans (foldl _ _ _ fun s _ => discardOne s ..)).trans (foldl _ _ _ fun _ _ => of_eq rfl rfl)

theorem cancelCore (s : State) (c status : Nat) : LogShut s (s.cancelCore c status) := by
  refine foldl _ _ _ fun s o => ?_
  split
  · exact ite (((forgetTruss ..).trans (kill ..)).trans (discardBy ..)) ((forgetWork ..).trans (kill ..))
  · exact refl s

end LogShut

end Sys2Proof.Laws

/-! # Resets, start-up, clocks and the PKC (R433, R444 to R457, R480) -/

/-! ## What collectives and lost links leave of stacks and boot state -/

namespace Sys2Proof.Laws.StacksKept
open Sys2Proof.Machine

theorem write (s : State) (a : Nat) (bs : List Byte) : StacksKept s (s.write a bs) := notices (.write ..)
theorem modOp (s : State) (r : OpRef) (g : Op → Op) : StacksKept s (s.modOp r g) := ⟨rfl, rfl⟩
theorem modReduce (s : State) (r : OpRef) (g : Reduce → Reduce) : StacksKept s (s.modReduce r g) := ⟨rfl, rfl⟩
theorem modChunk (s : State) (r : OpRef) (c : Nat) (g : Chunk → Chunk) : StacksKept s (s.modChunk r c g) := ⟨rfl, rfl⟩
theorem endReduce (s : State) (r : OpRef) (status cause : Nat) : StacksKept s (s.endReduce r status cause) := ⟨rfl, rfl⟩
theorem writeResults (s : State) (r : Reduce) (c e : Nat) (codes : List Nat) : StacksKept s (s.writeResults r c e codes) := write ..
theorem setStore (s : State) (p : Nat) (l : List (Nat × Nat × List Frame)) :
    StacksKept s (s.setPort p { s.port p with store := l }) := setPort ..
theorem freeKept (s : State) (f : FnId) (ch : Nat) : StacksKept s (s.freeKept f ch) := foldl _ _ _ fun _ _ => setPort ..

/-! ## Reduces (R309 to R318) -/

theorem sealFrame (s : State) (f : FnId) (fr : Frame) : StacksKept s (s.sealFrame f fr).2 := by
  unfold State.sealFrame; split
  · exact refl s
  · exact setLink ..

theorem sendRed (s : State) (f : FnId) (p : Nat) (fr : Frame) : StacksKept s (s.sendRed f p fr).2 :=
  (sealFrame s f fr).trans (sendOn ..)

theorem windowsUp (s : State) (r : OpRef) : StacksKept s (s.windowsUp r) := by
  unfold State.windowsUp; split
  · exact refl s
  · refine foldl _ _ _ fun s b => ?_
    dsimp only; split
    · exact ite ((sendRed ..).trans (foldl _ _ _ fun s c => modChunk s r c.1 _)) (refl s)
    · exact refl s

theorem agree (s : State) (x : Reduce) (c : Nat) (w : Int) : StacksKept s (s.agree x c w) :=
  (modChunk ..).trans (ite (refl _) ((writeResults ..).trans (modChunk ..)))

theorem agreeOwn (s : State) (r : OpRef) : StacksKept s (s.agreeOwn r) := by
  unfold State.agreeOwn; split
  · exact refl s
  · exact foldl _ _ _ fun s _ => ite (agree ..) (refl s)

theorem windowsDown (s : State) (r : OpRef) : StacksKept s (s.windowsDown r) := by
  unfold State.windowsDown; split
  · exact refl s
  · refine foldl _ _ _ fun s b => ?_
    dsimp only; split
    · exact ite ((sendRed ..).trans (foldl _ _ _ fun s c => modChunk s r c.1 _)) (refl s)
    · exact refl s

/-- Frames that go out one after the other, each noted as it was sent. -/
theorem sendAll (f : FnId) (p : Nat) (frames : List Frame) (a : List Frame × State) :
    StacksKept a.2 (frames.foldl (fun (a : List Frame × State) fr => let (g, s) := a.2.sendRed f p fr; (a.1 ++ [g], s)) a).2 :=
  List.foldlRecOn (motive := fun (b : List Frame × State) => StacksKept a.2 b.2) frames _ (refl a.2)
    fun b hb fr _ => hb.trans (sendRed b.2 f p fr)

theorem sendPartials (s : State) (x : Reduce) (p c : Nat) (w : Int) (sums : List Int) : StacksKept s (s.sendPartials x p c w sums) := by
  unfold State.sendPartials
  extract_lets frames high r t y u v
  have ht : StacksKept s t := sendAll x.fn p frames ([], s)
  have hv : StacksKept t v := (setStore ..).trans (ite (refl u) (count ..))
  exact ite (notices (.wait ..)) ((ht.trans hv).trans (modChunk ..))

theorem sendResults (s : State) (x : Reduce) (c e : Nat) (w : Int) (codes : List Nat) : StacksKept s (s.sendResults x c e w codes) := by
  refine foldl _ _ _ fun s l => ?_
  split
  · exact sendRed ..
  · exact refl s

theorem finalResults (s : State) (x : Reduce) (c : Nat) (w : Int) (sums : List Int) : StacksKept s (s.finalResults x c w sums) :=
  (foldl _ _ _ fun s _ => (writeResults s ..).trans (sendResults ..)).trans (modChunk ..)

theorem partialsUp (s : State) (r : OpRef) : StacksKept s (s.partialsUp r) := by
  unfold State.partialsUp; split
  · exact refl s
  · refine foldl _ _ _ fun s y => ?_
    split
    · exact refl s
    · refine ite (refl s) ?_
      dsimp only; split
      · exact finalResults ..
      · split
        · exact sendPartials ..
        · exact refl s

theorem pumpReduce (s : State) (r : OpRef) : StacksKept s (s.pumpReduce r) := by
  unfold State.pumpReduce
  extract_lets t
  have ht : StacksKept s t := (((windowsUp ..).trans (agreeOwn ..)).trans (windowsDown ..)).trans (partialsUp ..)
  split
  · exact ht.trans (ite (endReduce ..) (ite (endReduce ..) (refl t)))
  · exact ht

theorem onWindow (s : State) (x : Reduce) (p : Nat) (fr : Frame) : StacksKept s (s.onWindow x p fr) := by
  refine foldl _ _ _ fun s w => ?_
  dsimp only; split
  · exact ite (ite (refl s) (agree ..)) (modChunk ..)
  · exact refl s

theorem residueFault (s : State) (x : Reduce) (c : Nat) (links : List Nat) : StacksKept s (s.residueFault x c links) := by
  refine ite ((count ..).trans (endReduce ..)) ((modChunk ..).trans (foldl _ _ _ fun s l => ?_))
  split
  · exact sendRed ..
  · exact refl s

theorem onPartial (s : State) (x : Reduce) (p : Nat) (fr : Frame) (adderFault : Bool) : StacksKept s (s.onPartial x p fr adderFault) := by
  unfold State.onPartial; dsimp only; split
  · split
    · exact refl s
    · exact ite (endReduce ..) (ite (residueFault ..) (ite (modChunk ..) ((modChunk ..).trans (ite (residueFault ..) (refl _)))))
  · exact refl s

theorem onResult (s : State) (x : Reduce) (p : Nat) (fr : Frame) : StacksKept s (s.onResult x p fr) := by
  unfold State.onResult; dsimp only; split
  · exact refl s
  · split
    · exact refl s
    · exact ite (endReduce ..) (((writeResults ..).trans ((sendResults ..).trans (modChunk ..))).trans (ite (setStore ..) (refl _)))

theorem onRed (s : State) (x : Reduce) (p : Nat) (fr : Frame) (adderFault : Bool) : StacksKept s (s.onRed x p fr adderFault) := by
  unfold State.onRed; split
  · exact onWindow ..
  · exact onPartial ..
  · exact onResult ..
  · exact refl s

theorem startReduce (s : State) (x : Reduce) : StacksKept s (s.startReduce x) := by
  unfold State.startReduce
  extract_lets d t u kept v bad w z
  have hu : StacksKept t u := ite (refl t) (write ..)
  have hw : StacksKept v w := ite (refl v) ((count ..).trans (endReduce ..))
  have hz : StacksKept w z := by
    refine foldl _ _ _ fun s k => ?_
    split
    · exact ite (onRed ..) (refl s)
    · exact refl s
  refine (modReduce s ..).trans (ite ((write ..).trans (endReduce ..)) ?_)
  exact (((hu.trans (freeKept ..)).trans hw).trans hz).trans (pumpReduce ..)

theorem closeReduce (s : State) (x : Reduce) (status cause : Nat) : StacksKept s (s.closeReduce x status cause) := by
  unfold State.closeReduce
  extract_lets t
  have ht : StacksKept s t := ⟨rfl, rfl⟩
  split
  · exact ht
  · exact ht.trans (ite (fail ..) (complete ..))

theorem flushChannel (f : FnId) (ch n : Nat) (s : State) : StacksKept s (State.flushChannel f ch n s) := by
  induction n generalizing s with
  | zero => exact refl s
  | succ n ih =>
    unfold State.flushChannel; split
    · exact refl s
    · split
      · exact (closeReduce ..).trans (ih _)
      · exact ite (refl s) ((startReduce ..).trans (ih _))

theorem pumpAll (s : State) : StacksKept s s.pumpAll :=
  foldl _ _ _ fun s _ => ite ((pumpReduce ..).trans (flushChannel ..)) (refl s)

/-! ## Operations that wait for messages (R283, R290, R297) -/

theorem dropShards (s : State) (f : FnId) (d : Desc) : StacksKept s (s.dropShards f d) := foldl _ _ _ fun _ _ => ⟨rfl, rfl⟩

theorem placeShards (s : State) (f : FnId) (d : Desc) : StacksKept s (s.placeShards f d) :=
  foldl _ _ _ fun t _ => foldl _ _ t fun t a => write t a _

theorem shardVersion (s : State) (o : Op) (detail : Nat) : StacksKept s (s.shardVersion o detail) :=
  (dropShards ..).trans ((notices ((Notices.count ..).trans (.raise ..))).trans (fail ..))

theorem endGather (s : State) (o : Op) (tag : Nat) : StacksKept s (s.endGather o tag) := by
  have hfail : StacksKept s ((s.dropShards o.fn o.desc).fail o 0x73) := (dropShards ..).trans (fail ..)
  exact ite (ite hfail ((dropShards ..).trans ((modJob ..).trans (complete ..))))
    (ite hfail (ite (shardVersion ..) ((dropShards ..).trans (complete ..))))

theorem settleGather (s : State) (o : Op) : StacksKept s (s.settleGather o) :=
  (placeShards ..).trans (ite (shardVersion ..) (ite (endGather ..) (refl _)))

theorem settleOp (s : State) (o : Op) : StacksKept s (s.settleOp o) :=
  ite (refl s) (ite (settleGather ..) (ite (ite (refl s) (complete ..)) (refl s)))

theorem settleScarf (f : FnId) (n : Nat) (s : State) : StacksKept s (State.settleScarf f n s) := by
  induction n generalizing s with
  | zero => exact refl s
  | succ n ih =>
    unfold State.settleScarf; split
    · exact refl s
    · split
      · extract_lets t
        have ht : StacksKept s t := ⟨rfl, rfl⟩
        split
        · exact ht.trans (ite (fail ..) (((write t ..).trans (modJob ..)).trans (ih _)))
        · exact ht.trans (fail ..)
      · exact refl s

theorem settleAll (s : State) : StacksKept s s.settleAll := by
  have hout : StacksKept s { s with outbox := s.outbox.filter s.underway } := ⟨rfl, rfl⟩
  refine (hout.trans (foldl _ _ _ fun s o => ?_)).trans (foldl _ _ _ fun s f => ite (settleScarf ..) (refl s))
  split
  · exact settleOp ..
  · exact refl s

/-! ## A link that is lost (R260, R274) -/

theorem loseMessages (s : State) (o : Op) : StacksKept s (s.loseMessages o) := ite (modOp ..) (fail ..)

theorem setBeat (s : State) (b : Beat) : StacksKept s { s with beat := b } := ⟨rfl, rfl⟩

theorem rebuildTree (s : State) : StacksKept s s.rebuildTree := by
  obtain ⟨b, h⟩ := s.rebuildTree_eq
  exact h ▸ setBeat s b

theorem enterHoldover (s : State) : StacksKept s s.enterHoldover :=
  ite (refl s) ((setBeat ..).trans (notices ((Notices.raise ..).trans (.logPkg ..))))

theorem losePartner (s : State) (p chip : Nat) : StacksKept s (s.losePartner p chip) := by
  unfold State.losePartner
  extract_lets lost t
  have ht : StacksKept s t := (notices ((Notices.raise ..).trans (.logPkg ..))).trans (rebuildTree _)
  exact ite (ht.trans (enterHoldover t)) ht

theorem helloIfChanged (s before : State) : StacksKept s (s.helloIfChanged before) := ite (refl s) (sendHellos s)

theorem dropLink (s : State) (p : Nat) : StacksKept s (s.dropLink p) := by
  unfold State.dropLink
  extract_lets x gone before chip t u v w
  have hu : StacksKept s u := ⟨rfl, rfl⟩
  have hv : StacksKept u v := ite (losePartner ..) (refl u)
  have hw : StacksKept v w := foldl _ _ _ fun s o => loseMessages s o
  exact ((hu.trans hv).trans hw).trans (((settleAll w).trans (pumpAll _)).trans (helloIfChanged ..))

theorem loseLink (s : State) (p : Nat) : StacksKept s (s.loseLink p) := (count ..).trans (dropLink ..)

end Sys2Proof.Laws.StacksKept

namespace Sys2Proof.Machine
open Sys2Proof.Laws (Notices StacksKept)

/-! ## What start-up leaves of the boot state -/

/-- The second state has the boot state of the first. -/
structure BootKept (s t : State) : Prop where
  boot : t.boot = s.boot

namespace BootKept
variable {s t u : State}

theorem refl (s : State) : BootKept s s := ⟨rfl⟩

theorem trans (h1 : BootKept s t) (h2 : BootKept t u) : BootKept s u := ⟨h2.boot.trans h1.boot⟩

theorem ite {c : Prop} [Decidable c] (ht : BootKept s t) (hu : BootKept s u) : BootKept s (if c then t else u) := by
  split
  · exact ht
  · exact hu

theorem foldl {α : Type} (step : State → α → State) (xs : List α) (s : State) (h : ∀ s x, BootKept s (step s x)) :
    BootKept s (xs.foldl step s) :=
  List.foldlRecOn xs step (refl s) fun t ht x _ => ht.trans (h t x)

theorem notices (h : Notices s t) : BootKept s t := ⟨h.boot⟩
theorem of_stacks (h : StacksKept s t) : BootKept s t := ⟨h.boot⟩

theorem modCell (s : State) (c : CoreId) (g : Cell → Cell) : BootKept s (s.modCell c g) := ⟨rfl⟩
theorem setCell (s : State) (c : CoreId) (x : Cell) : BootKept s (s.setCell c x) := ⟨rfl⟩
theorem setDie (s : State) (d : Nat) (x : Die) : BootKept s (s.setDie d x) := ⟨rfl⟩
theorem setPart (s : State) (p : Nat) (x : Part) : BootKept s (s.setPart p x) := ⟨rfl⟩
theorem setPort (s : State) (p : Nat) (x : Port) : BootKept s (s.setPort p x) := ⟨rfl⟩
theorem setStack (s : State) (i : Nat) (x : Stack) : BootKept s (s.setStack i x) := ⟨rfl⟩
theorem setPage (s : State) (p : Nat) (x : BitVec 64) : BootKept s (s.setPage p x) := ⟨rfl⟩
theorem setPower (s : State) (x : Power) : BootKept s { s with power := x } := ⟨rfl⟩
theorem clearPage (s : State) (page : Nat) : BootKept s (s.clearPage page) := ⟨rfl⟩
theorem storeRecord (s : State) (type scope : Nat) (payload : List Byte) : BootKept s (s.storeRecord type scope payload) :=
  ⟨by rw [State.storeRecord]⟩
theorem retryBoot (s : State) : BootKept s s.retryBoot := ⟨rfl⟩

theorem trained (s : State) (st : Nat) (rate : BitVec 2) (spared : Nat) : BootKept s (s.trained st rate spared) := by
  unfold State.trained
  extract_lets x t
  have ht : BootKept s t := setStack ..
  exact ite (ht.trans (notices (.logPkg ..))) (ite (ht.trans (notices (.logPkg ..))) ht)

theorem testSram (s : State) (env : BootEnv) : BootKept s (s.testSram env) :=
  (foldl _ _ _ fun s c => modCell s c _).trans (foldl _ _ _ fun s p => setPart s p _)

theorem countMapChange (s : State) : BootKept s s.countMapChange :=
  (storeRecord ..).trans (notices ((Notices.count ..).trans (.raise ..)))

theorem mapOne (s : State) (c : CoreId) : BootKept s (s.mapOne c) := by
  unfold State.mapOne
  extract_lets x
  split
  · have hclear : BootKept s (s.clearCore c.val) := (((clearPage ..).trans (clearPage ..)).trans (clearPage ..)).trans (clearPage ..)
    exact ite (refl s) (((ite hclear (refl s)).trans (setCell ..)).trans (countMapChange _))
  · exact refl s

theorem planCore (s : State) (guard : Nat) (outlier : Option CoreId) (c : CoreId) : BootKept s (s.planCore guard outlier c) := by
  have horder : BootKept s (s.orderQuarantine c 4) := ite (refl s) ((setCell ..).trans (notices (.logEvent ..)))
  have hretire (st : CellState) : BootKept s (s.retireCore c st) := modCell ..
  unfold State.planCore
  extract_lets x
  split
  · exact ite horder (ite (hretire _) (ite (hretire _) (refl s)))
  · exact ite (hretire _) (refl s)
  · exact ite (modCell ..) (refl s)
  · exact refl s

theorem plan (s : State) (d : Nat) : BootKept s (s.plan d) := by
  unfold State.plan
  extract_lets x guard out cores v t1 t2 t3 t4 moved power t5 t6
  have h3 : BootKept s t3 :=
    ((storeRecord ..).trans (foldl _ _ t1 fun s c => storeRecord ..)).trans (foldl _ _ t2 fun s c => planCore s guard out c)
  have h5 : BootKept t3 t5 := (setDie t3 d _).trans (setPower ..)
  have h6 : BootKept t5 t6 := notices ((Notices.ite (.raise ..) (.refl t5)).trans (.raise ..))
  have hdraw : BootKept t6 t6.draw.2 := notices (.draw _)
  exact ((h3.trans h5).trans h6).trans (hdraw.trans (setDie ..))

theorem bootPlan (s : State) (d : Nat) : BootKept s (s.bootPlan d) := by
  unfold State.bootPlan
  extract_lets guard x t u
  have ht : BootKept s t := (setDie ..).trans (plan ..)
  have hu : BootKept t u := foldl _ _ _ mapOne
  exact (ht.trans hu).trans (setDie ..)

theorem bootRepairs (s : State) (st : Nat) : BootKept s (s.bootRepairs st) :=
  foldl _ _ _ fun s _ => ite (setPage s ..) (setStack s ..)

theorem bootCellMap (s : State) (env : BootEnv) : BootKept s (s.bootCellMap env) := by
  unfold State.bootCellMap
  extract_lets poh power t u v w
  have ht : BootKept s t := setPower ..
  have hu : BootKept t u := (foldl _ _ _ fun s c => modCell s c _).trans (foldl _ _ _ fun s c => modCell s c _)
  have hv : BootKept u v := foldl _ _ _ bootRepairs
  have hw : BootKept v w := ite (refl v) (storeRecord ..)
  exact (((ht.trans hu).trans hv).trans hw).trans (foldl _ _ _ bootPlan)

end BootKept

/-! ## Start-up (Table 19-4) -/

theorem State.bootFail_spec (s : State) (cause : Nat) : (s.bootFail cause).boot = { s.boot with st := 9, cause := cause }
    ∧ ((s.bootFail cause).reg 0 (pagePkc + 0x18)).testBit 1 = true :=
  ⟨(Notices.raise ..).boot, State.testBit_reg_raise _ (by decide)⟩

/-- DIES says whether an identity was unsealed. -/
theorem State.startDies_boot (s : State) (env : BootEnv) :
    (s.startDies env).boot = { s.boot with noIdentity := !env.identityUnsealed } := by
  unfold State.startDies
  extract_lets t boot
  have ht : Notices s t := .logPkg ..
  split
  · next h =>
    rw [h]
    exact (congrArg (fun b : Boot => { b with noIdentity := false }) ht.boot :)
  · next h =>
    rw [Bool.eq_false_iff.mpr h]
    refine ((Notices.logPkg _ 0x8383 0 0 0).trans (.raise ..)).boot.trans ?_
    exact (congrArg (fun b : Boot => { b with noIdentity := true }) ht.boot :)

/-- FABRIC takes the package's place. -/
theorem State.bootFabric_boot (s : State) (env : BootEnv) :
    (s.bootFabric env).boot = { s.boot with pos := env.pos.toNat, lenM1 := env.lenM1.toNat } := by
  unfold State.bootFabric
  extract_lets boot t
  exact (BootKept.foldl _ _ t fun s p => BootKept.ite (.setPort s ..) (.refl s)).boot

theorem State.bootReady_spec (s : State) (h : Nat) (env : BootEnv) : (s.bootReady h env).boot = { s.boot with
      st := 8, cause := 0, svn := if h.testBit 56 then max s.boot.svn (fwSvn h) else s.boot.svn, timeMs := env.bootMs }
    ∧ ((s.bootReady h env).reg 0 (pagePkc + 0x18)).testBit 0 = true :=
  ⟨(Notices.raise ..).boot, State.testBit_reg_raise _ (by decide)⟩

/-- The state after the steps whose failures only mark what they met. -/
def State.bootTested (s : State) (env : BootEnv) : State := ((s.retryBoot.startDies env).trainStacks env).testSram env

theorem State.bootTested_boot (s : State) (env : BootEnv) :
    (s.bootTested env).boot = { s.boot with noIdentity := !env.identityUnsealed } := by
  have htrain (u : State) : BootKept u (u.trainStacks env) := .foldl _ _ _ fun s st => .trained s ..
  unfold State.bootTested
  rw [(BootKept.testSram ..).boot, (htrain _).boot, State.startDies_boot, (BootKept.retryBoot s).boot]

/-- The cause of the first step that fails. -/
def stepCause (env : BootEnv) : Nat :=
  firstCause [(!env.diesUp, 0x10), (!env.sramTables, 0x11), (!env.storeReadable, 0x12), (!env.avsAnswers, 0x13)]

/-- Start-up ends in BOOT_FAIL with the first step that failed, or in READY. -/
theorem State.bootSteps_eq (s : State) (h : Nat) (env : BootEnv) :
    (stepCause env = 0 ∧ s.bootSteps h env = (((s.bootTested env).bootCellMap env).bootFabric env).bootReady h env)
      ∨ (stepCause env ≠ 0 ∧ ∃ u : State, s.bootSteps h env = u.bootFail (stepCause env)) := by
  unfold State.bootSteps stepCause
  cases hdies : env.diesUp with
  | false => exact .inr ⟨by simp [firstCause], _, rfl⟩
  | true =>
    cases hsram : env.sramTables with
    | false => exact .inr ⟨by simp [firstCause], _, rfl⟩
    | true =>
      cases hstore : env.storeReadable with
      | false => exact .inr ⟨by simp [firstCause], _, rfl⟩
      | true =>
        cases havs : env.avsAnswers with
        | false => exact .inr ⟨by simp [firstCause], _, rfl⟩
        | true => exact .inl ⟨rfl, rfl⟩

/-! ## Resets (Table 19-2) -/

/-- Companion memory is what a reset keeps of memory. -/
theorem memByte_companionCells (m : List Host.Cell) (a : Nat) :
    memByte (companionCells m) a = if 2 ^ 43 ≤ a ∧ a < 2 ^ 44 then memByte m a else 0 := by
  split
  · next h => exact SMap.get_filter_of_pos fun _ => by simp only [decide_eq_true h.1, decide_eq_true h.2, Bool.and_self]
  · next h =>
    refine SMap.get_filter_of_neg fun _ => ?_
    rw [← Bool.decide_and]
    exact decide_eq_false h

/-- What a reset leaves, whatever its source: every block at its reset value; companion memory, fuses and the store stay. -/
structure Restarted (s t : State) (source : Nat) : Prop where
  ops : t.ops = []
  fns : t.fns = State.reset.fns
  queues : t.queues = []
  dir : t.dir = []
  ctxs : t.ctxs = []
  beat : t.beat = Beat.reset
  power : t.power = Power.reset
  source : t.boot.source = source
  count : t.boot.count = s.boot.count + 1
  fault : t.boot.fault = false
  svn : t.boot.svn = s.boot.svn
  store : t.store = s.store
  pending : t.pending = s.pending
  mem : t.mem = companionCells s.mem

theorem State.restart_restarted (s : State) (source : Nat) : Restarted s (s.restart source) source :=
  ⟨rfl, rfl, rfl, rfl, rfl, rfl, rfl, rfl, rfl, rfl, rfl, rfl, rfl, rfl⟩

theorem dlkUp_trained (clock : Bool) (lanes : Fin 3) :
    dlkUp (if clock then lanesCode lanes.val else 0) = true ↔ clock = true ∧ lanes ≠ 0 := by
  cases clock <;> revert lanes <;> decide

/-- The ROM waits for an image as soon as a port of the link has trained. -/
theorem State.bootRom_st (s : State) (lanes0 lanes1 : Fin 3) : (s.bootRom lanes0 lanes1).boot.st =
    if (s.boot.clocks.getLsbD 0 = true ∧ lanes0 ≠ 0) ∨ (s.boot.clocks.getLsbD 1 = true ∧ lanes1 ≠ 0) then 1 else 0 := by
  refine if_congr ?_ rfl rfl
  rw [Bool.or_eq_true]
  exact or_congr (dlkUp_trained ..) (dlkUp_trained ..)

/-! ## Reference clocks (R480) -/

/-- A lost link leaves its port in training; no other port's state rises. -/
theorem State.loseLink_st (s : State) (p : Nat) :
    ((s.loseLink p).port p).st = 1 ∧ ∀ k, k ≠ p → ((s.loseLink p).port k).st = (s.port k).st := by
  have hkept := Laws.LinksKept.dropLink (s.count (pageFab p + 0x64)) p
  refine ⟨(hkept.ports p).st.trans ?_, fun k hk => (hkept.ports k).st.trans ?_⟩
  · rw [State.port_setPort]
    rfl
  · rw [State.port_setPort_ne _ _ _ _ (Ne.symm hk)]
    rfl

/-- What a stopped clock does to one port. -/
def State.stopPort (s : State) (p : Nat) : State := if 2 ≤ (s.port p).st then s.loseLink p else s.setPort p { s.port p with st := 0 }

theorem State.stopPort_boot (s : State) (p : Nat) : BootKept s (s.stopPort p) := .ite (.of_stacks (.loseLink ..)) (.setPort ..)

theorem State.stopPort_st (s : State) (p : Nat) :
    ((s.stopPort p).port p).st < 2 ∧ ∀ k, (s.port k).st < 2 → ((s.stopPort p).port k).st < 2 := by
  unfold State.stopPort
  split
  · obtain ⟨hown, hother⟩ := s.loseLink_st p
    refine ⟨by omega, fun k hk => ?_⟩
    rcases eq_or_ne k p with rfl | hne
    · omega
    · rw [hother k hne]
      exact hk
  · refine ⟨by rw [State.port_setPort]; exact Nat.zero_lt_two, fun k hk => ?_⟩
    rcases eq_or_ne p k with rfl | hne
    · rw [State.port_setPort]
      exact Nat.zero_lt_two
    · rwa [State.port_setPort_ne _ _ _ _ hne]

/-- Every port of a stopped clock ends without its link. -/
theorem State.stopPorts_st (ps : List Nat) (s : State) :
    (∀ p ∈ ps, ((ps.foldl State.stopPort s).port p).st < 2) ∧ ∀ k, (s.port k).st < 2 → ((ps.foldl State.stopPort s).port k).st < 2 := by
  induction ps generalizing s with
  | nil => exact ⟨fun p hp => absurd hp (List.not_mem_nil), fun k hk => hk⟩
  | cons p ps ih =>
    obtain ⟨hrest, hkeep⟩ := ih (s.stopPort p)
    obtain ⟨hown, hother⟩ := s.stopPort_st p
    refine ⟨fun k hk => ?_, fun k hk => hkeep k (hother k hk)⟩
    rcases List.mem_cons.mp hk with rfl | hk
    · exact hkeep k hown
    · exact hrest k hk

/-- What a clock that returns does to one port. -/
def State.startPort (s : State) (p : Nat) : State :=
  if (s.port p).st = 0 ∧ s.portEnabled p ∧ s.boot.st = 8 then s.setPort p { s.port p with st := 1 } else s

theorem State.startPort_frame (s : State) (p : Nat) : (s.startPort p).boot = s.boot ∧ (s.startPort p).regs = s.regs := by
  unfold State.startPort
  split <;> exact ⟨rfl, rfl⟩

/-- Every enabled port without a link trains once its clock returns. -/
theorem State.startPorts_st (ps : List Nat) (s : State) (hready : s.boot.st = 8) :
    (∀ p ∈ ps, (s.port p).st = 0 → s.portEnabled p = true → ((ps.foldl State.startPort s).port p).st = 1)
      ∧ ∀ k, (s.port k).st = 1 → ((ps.foldl State.startPort s).port k).st = 1 := by
  induction ps generalizing s with
  | nil => exact ⟨fun p hp => absurd hp (List.not_mem_nil), fun k hk => hk⟩
  | cons p ps ih =>
    obtain ⟨hboot, hregs⟩ := s.startPort_frame p
    obtain ⟨hrest, hkeep⟩ := ih (s.startPort p) (by rw [hboot, hready])
    have hstays (k : Nat) (hk : (s.port k).st = 1) : ((s.startPort p).port k).st = 1 := by
      unfold State.startPort
      split
      · rcases eq_or_ne p k with rfl | hne
        · rw [State.port_setPort]
        · rwa [State.port_setPort_ne _ _ _ _ hne]
      · exact hk
    have hown (h : (s.port p).st = 0) (hen : s.portEnabled p = true) : ((s.startPort p).port p).st = 1 := by
      unfold State.startPort
      rw [if_pos ⟨h, hen, hready⟩, State.port_setPort]
    refine ⟨fun k hk hdown hen => ?_, fun k hk => hkeep k (hstays k hk)⟩
    rcases List.mem_cons.mp hk with rfl | hk
    · exact hkeep k (hown hdown hen)
    · rcases eq_or_ne p k with rfl | hne
      · exact hkeep p (hown hdown hen)
      · have hport : (s.startPort p).port k = s.port k := by
          unfold State.startPort
          split
          · exact State.port_setPort_ne _ _ _ _ hne
          · rfl
        refine hrest k hk (by rw [hport, hdown]) ?_
        rwa [State.portEnabled, State.portCfg, State.reg_congr hregs]

end Sys2Proof.Machine

namespace Sys2Proof.Laws
open Sys2Proof.Machine

/-- The clauses on what every reset leaves. -/
theorem restarted_fresh {s t : State} {source : Nat} (h : Restarted s t source) :
    t.ops = [] ∧ t.fns = State.reset.fns ∧ t.queues = [] ∧ t.dir = [] ∧ t.ctxs = []
      ∧ t.beat = Beat.reset ∧ t.power = Power.reset ∧ t.boot.source = source ∧ t.boot.count = s.boot.count + 1 ∧ t.boot.fault = false
      ∧ t.boot.svn = s.boot.svn ∧ t.store = s.store ∧ t.pending = s.pending
      ∧ (∀ a, memByte t.mem a = if 2 ^ 43 ≤ a ∧ a < 2 ^ 44 then memByte s.mem a else 0) :=
  ⟨h.ops, h.fns, h.queues, h.dir, h.ctxs, h.beat, h.power, h.source, h.count, h.fault, h.svn, h.store, h.pending,
    fun a => h.mem ▸ memByte_companionCells s.mem a⟩

theorem setReg_regs (s : State) (win off v : Nat) (regs : SMap Word) : { s.setReg win off v with regs := regs } = { s with regs := regs } := rfl

/-- A page error touches registers alone. -/
theorem pageError_regs (s : State) (page code : Nat) (mgmt : Bool) : { s.pageError page code none mgmt with regs := s.regs } = s := by
  unfold State.pageError State.errorIn
  dsimp only
  split
  · rw [State.addReg, setReg_regs]
  · rw [setReg_regs, setReg_regs, setReg_regs, State.addReg, setReg_regs]

theorem exec_pkcFailure (s : State) : exec .pkcFailure s = if s.boot.pkcFailed then .next s
    else .next ({ s with boot := { s.boot with pkcFailed := true } }.deviceFault 0x73C1 0 0 0) := rfl

/-- With the PKC failed, a device fault leaves the log. -/
theorem deviceFault_shut {s : State} (h : s.boot.pkcFailed = true) (code inst d0 d1 : Nat) :
    (s.deviceFault code inst d0 d1).boot.pkcFailed = true ∧ (s.deviceFault code inst d0 d1).log = s.log := by
  unfold State.deviceFault
  extract_lets t boot u v
  have ht : t = s := if_pos h
  have hv : LogShut u v := .foldl _ _ _ fun s c => .cancelCore s ..
  have hu : u.boot.pkcFailed = true := (congrArg (fun x : State => x.boot.pkcFailed) ht).trans h
  split
  · rw [ht]
    exact ⟨h, rfl⟩
  · have hall (os : List Op) := hv.trans (.killAll v os 2)
    exact ⟨(congrArg Boot.pkcFailed (hall _).boot).trans hu, ((hall _).log hu).trans (congrArg State.log ht :)⟩

theorem setDlk_clocks (s : State) (port v : Nat) : (s.setDlk port v).boot.clocks = s.boot.clocks := by
  unfold State.setDlk
  split <;> rfl

theorem dlk_setDlk (s : State) (port v : Nat) : (s.setDlk port v).dlk port = v := by
  unfold State.setDlk State.dlk
  split <;> rfl

/-- The ports of a reference clock of the fabric. -/
def clockPorts (clock : Nat) : List Nat := (List.range 6).map (· + 6 * (clock - 2))

theorem mem_clockPorts {p clock : Nat} (h : p / 6 = clock - 2) : p ∈ clockPorts clock :=
  List.mem_map.mpr ⟨p % 6, List.mem_range.mpr (Nat.mod_lt _ (by decide)), by omega⟩

/-- A clock that stops: of the Darlek link, its port goes down; of the fabric, its ports. -/
theorem exec_refclkStop_spec (s : State) (clock : Fin 4) : ∃ t, exec (.refclkStop clock) s = .next t
    ∧ t.boot.clocks = s.boot.clocks &&& ~~~(1#4 <<< clock.val) ∧ (clock.val < 2 → t.dlk clock.val = 0)
    ∧ (2 ≤ clock.val → ∀ p, p / 6 = clock.val - 2 → (t.port p).st < 2) := by
  change ∃ t, execRefclkStop clock s = .next t ∧ _
  unfold execRefclkStop
  extract_lets boot v ports
  have hclocks (u : State) (h : u.boot = v.boot) : u.boot.clocks = s.boot.clocks &&& ~~~(1#4 <<< clock.val) := by
    rw [h]
  by_cases hdlk : clock.val < 2
  · rw [if_pos hdlk]
    have hset : (v.setDlk clock.val 0).boot.clocks = s.boot.clocks &&& ~~~(1#4 <<< clock.val) := setDlk_clocks ..
    split
    · have hnotes : Notices (v.setDlk clock.val 0)
          ((((v.setDlk clock.val 0).count (pageDlk clock.val + 0x48)).raise (pageDlk clock.val) 0).logPkg 0x42C1 clock.val 0 0) :=
        ((Notices.count ..).trans (.raise ..)).trans (.logPkg ..)
      refine ⟨_, rfl, by rw [hnotes.boot, hset], fun _ => ?_, fun h => absurd h (by omega)⟩
      rw [State.dlk, hnotes.boot]
      exact dlk_setDlk v clock.val 0
    · exact ⟨_, rfl, hset, fun _ => dlk_setDlk .., fun h => absurd h (by omega)⟩
  · rw [if_neg hdlk]
    exact ⟨ports.foldl State.stopPort v, rfl, hclocks _ (BootKept.foldl _ _ v State.stopPort_boot).boot, fun h => absurd h hdlk,
      fun _ p hp => (State.stopPorts_st ports v).1 p (mem_clockPorts hp)⟩

/-- A clock that returns: its ports train again. -/
theorem exec_refclkReturn_spec (s : State) (clock : Fin 4) : ∃ u, exec (.refclkReturn clock) s = .next u
    ∧ u.boot.clocks = s.boot.clocks ||| (1#4 <<< clock.val)
    ∧ (2 ≤ clock.val → ∀ p, p / 6 = clock.val - 2 → s.boot.st = 8 → (s.port p).st = 0 → s.portEnabled p = true → (u.port p).st = 1) := by
  change ∃ u, execRefclkReturn clock s = .next u ∧ _
  unfold execRefclkReturn
  extract_lets boot v ports
  by_cases hdlk : clock.val < 2
  · rw [if_pos hdlk]
    refine ⟨_, rfl, ?_, fun h => absurd h (by omega)⟩
    split
    · exact setDlk_clocks ..
    · rfl
  · rw [if_neg hdlk]
    have hboot : (ports.foldl State.startPort v).boot = v.boot :=
      (BootKept.foldl _ _ v fun s p => ⟨(s.startPort_frame p).1⟩).boot
    exact ⟨ports.foldl State.startPort v, rfl, by rw [hboot], fun _ p hp hready => (State.startPorts_st ports v hready).1 p (mem_clockPorts hp)⟩

/-- Settles O52: resets by what a restart leaves, GO by its checks and steps, clocks port by port, the PKC by its device fault. -/
theorem resetAndBoot : Obligations.ResetAndBoot := by
  unfold Obligations.ResetAndBoot
  refine ⟨fun s lanes0 lanes1 straps rail key => ?resets, fun s env => ?go, fun s clock => ?clocks, fun s => ?pkc⟩
  case resets =>
    intro fresh waits
    refine ⟨?powerOn, ?rail, fun hon => ?devRst, fun hoff => ?held, fun hon hkey => ?warm, fun hon hkey => ?badKey⟩
    case powerOn =>
      have hr : Restarted s ({ s.restart 1 with boot := { (s.restart 1).boot with straps := straps, thermN := false } }.bootRom lanes0 lanes1) 1 :=
        ⟨rfl, rfl, rfl, rfl, rfl, rfl, rfl, rfl, rfl, rfl, rfl, rfl, rfl, rfl⟩
      exact ⟨_, rfl, restarted_fresh hr, State.bootRom_st .., rfl, rfl, rfl, rfl⟩
    case rail =>
      have hr : Restarted s { s.restart 1 with boot := { (s.restart 1).boot with powered := false, thermN := false } } 1 :=
        ⟨rfl, rfl, rfl, rfl, rfl, rfl, rfl, rfl, rfl, rfl, rfl, rfl, rfl, rfl⟩
      exact ⟨_, rfl, restarted_fresh hr, rfl, rfl⟩
    case devRst =>
      have hr : Restarted s ({ s.restart 2 with boot := { (s.restart 2).boot with thermN := false } }.bootRom lanes0 lanes1) 2 :=
        ⟨rfl, rfl, rfl, rfl, rfl, rfl, rfl, rfl, rfl, rfl, rfl, rfl, rfl, rfl⟩
      exact ⟨_, if_neg (by rw [hon]; decide), restarted_fresh hr, State.bootRom_st .., rfl, rfl⟩
    case held =>
      have hgate : s.ignoreBootCtrl = s := if_neg (ne_true_of_eq_false hoff)
      refine ⟨if_pos (by rw [hoff]; rfl), (if_pos (.inr (by rw [hoff]; rfl))).trans (congrArg _ hgate)⟩
    case warm =>
      have hgo : ¬ (key ≠ 0xA5 ∨ (!s.boot.powered) = true) := by simp [hon, hkey]
      have hexec : exec (.warm key lanes0 lanes1) s = _ := if_neg hgo
      refine ⟨_, hexec, restarted_fresh ⟨rfl, rfl, rfl, rfl, rfl, rfl, rfl, rfl, rfl, rfl, rfl, rfl, rfl, rfl⟩, State.bootRom_st .., ?_⟩
      exact List.map_map
    case badKey => exact ⟨_, if_pos (.inl hkey), if_pos hon⟩
  case go =>
    intro a h c
    refine ⟨fun h1 h9 => ?ignored, fun hst => ⟨fun hc => ?bad, fun hc => ?steps⟩⟩
    case ignored =>
      refine ⟨s.ignoreBootCtrl, if_pos ⟨h1, h9⟩, ?_⟩
      unfold State.ignoreBootCtrl
      split
      · exact pageError_regs ..
      · rfl
    all_goals have hgo : ¬ (s.boot.st ≠ 1 ∧ s.boot.st ≠ 9) := by omega
    case bad =>
      obtain ⟨hboot, hbit⟩ := State.bootFail_spec s c
      exact ⟨s.bootFail c, (if_neg hgo).trans (if_pos hc), by rw [hboot], by rw [hboot], hbit⟩
    case steps =>
      have hexec : exec (.go env) s = .next ({ s with boot := { s.boot with fwDigest := s.fwDigest a h } }.bootSteps h env) :=
        (if_neg hgo).trans (if_neg (not_not.mpr hc))
      generalize hu : ({ s with boot := { s.boot with fwDigest := s.fwDigest a h } } : State) = u at hexec
      intro step
      rcases State.bootSteps_eq u h env with ⟨hnone, heq⟩ | ⟨hsome, v, heq⟩
      · refine ⟨fun hstep => absurd hnone hstep, fun _ => ?_⟩
        obtain ⟨hready, hbit⟩ := State.bootReady_spec (((u.bootTested env).bootCellMap env).bootFabric env) h env
        rw [State.bootFabric_boot, (BootKept.bootCellMap ..).boot, State.bootTested_boot] at hready
        rw [heq] at hexec
        refine ⟨_, hexec, ?_, ?_, ?_, ?_, ?_, ?_, hbit⟩
        all_goals rw [hready, ← hu]
      · refine ⟨fun _ => ?_, fun hstep => absurd hstep hsome⟩
        rw [heq] at hexec
        refine ⟨_, hexec, ?_, ?_⟩
        all_goals rw [(State.bootFail_spec ..).1]
        rfl
  case clocks =>
    obtain ⟨t, hstop, htclocks, hdlk, hports⟩ := exec_refclkStop_spec s clock
    obtain ⟨u, hreturn, huclocks, hagain⟩ := exec_refclkReturn_spec s clock
    exact ⟨t, u, hstop, hreturn, htclocks, huclocks, hdlk, fun h p _ hp => ⟨hports h p hp, hagain h p hp⟩⟩
  case pkc =>
    rw [exec_pkcFailure]
    refine ⟨fun h => if_pos h, fun h => ?_⟩
    generalize hu : ({ s with boot := { s.boot with pkcFailed := true } } : State) = u
    have hfailed : u.boot.pkcFailed = true := hu ▸ rfl
    have hlog : u.log = s.log := hu ▸ rfl
    obtain ⟨hpkc, hkept⟩ := deviceFault_shut hfailed 0x73C1 0 0 0
    exact ⟨_, if_neg (ne_true_of_eq_false h), hpkc, (State.deviceFault_rest ..).2, hkept.trans hlog⟩

end Sys2Proof.Laws

/-! # Reduction frames (R310 to R320) -/

namespace Sys2Proof.Machine

section
variable {s : State} {p : Nat} {fr g : Frame} {type : Nat} {f : FnId} {x : Reduce}

/-- A frame that the port takes, that opens and whose channel is a function's. -/
theorem State.redArrive_eq (htakes : s.takes p fr type = true) (hopen : s.openFrame fr = some g)
    (howner : s.channelOwner p (fhChannel fr.hdr) = some f) (err : Bool) : s.redArrive p fr type err =
      if type = 7 then (s.setPort p ((s.port p).accept fr)).onResend f p g
      else match (s.channelReduces f (fhChannel fr.hdr)).head? with
        | some x =>
          if x.started ∧ rsTag (redHead g) = rdCollTag x.desc then
            (((s.setPort p ((s.port p).accept fr)).onRed x p g err).pumpReduce x.op).flush f (fhChannel fr.hdr)
          else if s.redDone.contains (f.val, fhChannel fr.hdr, rsTag (redHead g)) then
            (s.setPort p ((s.port p).accept fr)).count (pageStepf f.val + 0x5C)
          else s.setPort p ((s.port p).keep fr g)
        | none =>
          if s.redDone.contains (f.val, fhChannel fr.hdr, rsTag (redHead g)) then
            (s.setPort p ((s.port p).accept fr)).count (pageStepf f.val + 0x5C)
          else s.setPort p ((s.port p).keep fr g) := by
  unfold State.redArrive
  rw [if_neg (by rw [htakes]; decide)]
  dsimp only
  rw [hopen, howner] <;> rfl

/-- A frame that reaches its collective. -/
theorem State.redArrive_of_arrives (h : Safety.RedArrives s p fr type g f x) (htype : type ≠ 7) (err : Bool) :
    s.redArrive p fr type err =
      (((s.setPort p ((s.port p).accept fr)).onRed x p g err).pumpReduce x.op).flush f (fhChannel fr.hdr) := by
  rw [State.redArrive_eq h.takes h.opens h.channel, if_neg htype, h.first]
  exact if_pos ⟨h.started, h.tag⟩

/-- A frame of a channel on which no collective stands. -/
theorem State.redArrive_of_none (htakes : s.takes p fr type = true) (hopen : s.openFrame fr = some g)
    (howner : s.channelOwner p (fhChannel fr.hdr) = some f) (htype : type ≠ 7) (hnone : s.channelReduces f (fhChannel fr.hdr) = []) (err : Bool) :
    s.redArrive p fr type err = if (f.val, fhChannel fr.hdr, rsTag (redHead g)) ∈ s.redDone
      then (s.setPort p ((s.port p).accept fr)).count (pageStepf f.val + 0x5C) else s.setPort p ((s.port p).keep fr g) := by
  rw [State.redArrive_eq htakes hopen howner, if_neg htype, hnone, List.head?_nil]
  exact if_congr List.contains_iff_mem rfl rfl

end

section
variable {s : State} {x : Reduce} {p : Nat} {fr : Frame} {y : Chunk} {l : Nat} {w : Int}

/-- A partial of low limbs, of a chunk whose window is agreed. -/
theorem State.onPartial_low (hy : x.chunks[rsChunk (redHead fr)]? = some y) (hl : s.linkFrom x (rsChunk (redHead fr)) p = some l)
    (hw : y.window = some w) (hlow : rsChunk (redHead fr) < 2 ^ 31) (hhigh : y.high = []) (err : Bool) : s.onPartial x p fr err =
      if w ≠ rsWexp (redHead fr) then s.endReduce x.op 1 0x84
      else if !residuesOk fr (rsCountM1 (redHead fr) + 1) ((payloadNums fr 0 8 (rsCountM1 (redHead fr) + 1)).map (toSigned 64))
      then s.residueFault x (rsChunk (redHead fr)) [l]
      else
        let new := ((payloadNums fr 0 8 (rsCountM1 (redHead fr) + 1)).map (toSigned 64)).zipIdx.map
          (fun v => (l, rsFirst (redHead fr) + v.2, v.1))
        let t := s.modChunk x.op (rsChunk (redHead fr)) (fun y => { y with
          got := y.got.filter (fun g => !new.any (fun v => decide (v.1 = g.1) && decide (v.2.1 = g.2.1))) ++ new,
          high := y.high.filter (fun h => !(decide (h.1 = p) && decide (h.2.1 = rsFirst (redHead fr)))) })
        if err then t.residueFault x (rsChunk (redHead fr)) ((y.got.map (·.1)) ++ [l]).eraseDups else t := by
  unfold State.onPartial
  dsimp only
  rw [Nat.mod_eq_of_lt hlow, hy, hl]
  dsimp only
  rw [hw]
  dsimp only
  rw [hhigh, decide_eq_false (Nat.not_le.mpr hlow)]
  rfl

/-- The second mismatch of a chunk ends the reduce. -/
theorem State.residueFault_second {c : Nat} (hy : x.chunks[c]? = some y) (hre : y.resends ≠ 0) (links : List Nat) :
    s.residueFault x c links = (s.count (pageStepf x.fn.val + 0x58)).endReduce x.op 1 0x82 := by
  unfold State.residueFault
  rw [hy]
  exact if_pos hre

end

end Sys2Proof.Machine

namespace Sys2Proof.Laws
open Sys2Proof.Machine Sys2Proof.Safety

/-- Settles O36: a frame by what its channel holds, a partial by its window and residues, a timeout by the first reduce. -/
theorem reductionFrames : Obligations.ReductionFrames := by
  unfold Obligations.ReductionFrames
  refine ⟨fun s port fr g f x err => ?arrives, fun s port fr g f => ?stray,
    fun s q opId x xs o hred hop hnamed htime hfree => ⟨fun hdue => ?due, fun hone hearly => ?early⟩⟩
  case arrives =>
    intro freed goes
    refine ⟨fun h htype => ?window, fun h htype => ?result, fun h htype => ?partial_⟩
    case window =>
      refine congrArg Host.Outcome.next ((State.redArrive_of_arrives h (by decide) false).trans ?_)
      rw [State.onRed, htype]
      rfl
    case result =>
      refine congrArg Host.Outcome.next ((State.redArrive_of_arrives h (by decide) false).trans ?_)
      rw [State.onRed, htype]
      rfl
    case partial_ =>
      intro c n words y l w hy hl hw hlow hhigh
      have hexec : exec (.redPartial port fr err) s = .next (goes (freed.onPartial x port.val g err)) := by
        refine congrArg Host.Outcome.next ((State.redArrive_of_arrives h (by decide) err).trans ?_)
        rw [State.onRed, htype]
        rfl
      have hpartial := State.onPartial_low hy hl hw hlow hhigh err
      refine ⟨fun hother => ?_, fun hsame hok herr => ?_, fun hsame hbad hre => ?_⟩
      · rw [if_pos hother] at hpartial
        rw [hexec, hpartial]
      · rw [if_neg (not_not.mpr hsame), if_neg (by rw [show residuesOk g _ _ = true from hok]; decide), herr] at hpartial
        rw [hexec, herr, hpartial]
        rfl
      · rw [if_neg (not_not.mpr hsame), if_pos (by rw [show residuesOk g _ _ = false from hbad]; rfl), State.residueFault_second hy hre] at hpartial
        rw [hexec, hpartial]
  case stray =>
    intro ch freed hopen howner
    refine ⟨fun type i hi htakes hnone => ?_, fun htakes e he => ?_⟩
    · have hexec : type ≠ 7 ∧ exec i s = .next (s.redArrive port.val fr type false) := by
        rcases hi with ⟨rfl, rfl⟩ | ⟨rfl, rfl⟩ | ⟨rfl, rfl⟩ <;> exact ⟨by decide, rfl⟩
      rw [hexec.2, State.redArrive_of_none htakes hopen howner hexec.1 hnone]
      exact ⟨fun hdone => congrArg _ (if_pos hdone), fun hopen => congrArg _ (if_neg hopen)⟩
    · refine congrArg Host.Outcome.next ((State.redArrive_eq htakes hopen howner false).trans ?_)
      rw [if_pos rfl, State.onResend]
      dsimp only
      rw [he]
  case due =>
    change execReduceTimeout q opId s = _
    unfold execReduceTimeout
    extract_lets due
    have hfind : s.reduces.find? (fun x => (s.op? x.op).any (due x)) = some x := by
      rw [hred]
      refine List.find?_cons_of_pos ?_
      simp [due, hop, hnamed, htime, hfree, hdue]
    rw [hfind]
  case early =>
    change execReduceTimeout q opId s = _
    unfold execReduceTimeout
    extract_lets due
    have hfind : s.reduces.find? (fun x => (s.op? x.op).any (due x)) = none := by
      rw [hred, hone]
      refine (List.find?_cons_of_neg ?_).trans List.find?_nil
      simp [due, hop, hearly]
    rw [hfind]

end Sys2Proof.Laws

/-! # A waiting descriptor of class 5 that spells no beat-wait (O35, R421, R423)

The header checks (R421) let no descriptor of class 5 with an OP other than 0 past the watcher, but `Issues.waited` takes any operation
that stands in the queue, and the beat-wait clause of O35 asks for the class alone. -/

namespace Sys2Proof.Machine
open Sys2Proof.Safety

/-- A descriptor whose CLASS and OP are not those of the command leaves everything as it is. -/
theorem State.issue_of_misspelled {i : Instr} {q : QueueId} {d : Desc} {cls op : Nat} {sel : Bool}
    (hi : carried i = some (q, d, cls, op, sel)) (h : ¬ (hdClass d = cls ∧ hdOp d = op)) (s : State) (k : Op → State → State) :
    s.issue i k = s := by
  rw [State.issue, hi]
  exact if_neg fun hspelled => h ⟨hspelled.1, hspelled.2.1⟩

end Sys2Proof.Machine

namespace Sys2Proof.Laws
open Sys2Proof.Machine Sys2Proof.Safety

/-- Class 5, OP 1, for beat 1. -/
def misspelledWait : Desc := Tests.desc 5 1 [(64, 1)]

/-- The operation that stands at dispatch with these words. -/
def misspelledOp : Op := Op.new 0 0 misspelledWait 0

/-- The device of the tests with that operation, the only one of its queue. -/
def misspelledState : State := Tests.up.addOp misspelledOp

/-- The state in which it has issued. -/
def misspelledIssued : State :=
  (misspelledState.modOp misspelledOp.ref (fun _ => issued misspelledState misspelledOp)).markIssued (issued misspelledState misspelledOp)

theorem misspelled_issues : Issues misspelledState 0 misspelledWait (issued misspelledState misspelledOp) misspelledIssued :=
  .waited misspelledOp { issues := by decide +kernel, first := by decide +kernel, free := by decide +kernel }

theorem misspelled_stands :
    misspelledIssued.op? (issued misspelledState misspelledOp).ref = some (issued misspelledState misspelledOp) := by
  decide +kernel

theorem exec_misspelled : exec (.beatWait 0 misspelledWait) misspelledState = .next misspelledState :=
  congrArg Host.Outcome.next (State.issue_of_misspelled rfl (by decide +kernel) misspelledState _)

/-- Refutes O35: an operation that waits in its queue with class 5 and OP 1 satisfies the premises of the beat-wait clause, which speaks of
the class alone; the command beat-wait is spelled by OP 0, so here it does nothing, and the operation stays dispatched where the
clause has it issued. -/
theorem not_collectivesIssue : ¬ Obligations.CollectivesIssue := by
  unfold Obligations.CollectivesIssue
  intro h
  obtain ⟨-, -, -, -, -, hwait⟩ := h _ _ _ _ _ misspelled_issues misspelled_stands
  have hissued := (hwait (by decide +kernel)).1 (by decide +kernel)
  rw [if_neg (show ¬ misspelledIssued.atBeat misspelledWait = true by decide +kernel), exec_misspelled] at hissued
  injection hissued with hsame
  have hstages := congrArg (fun t => t.ops.map (·.stage)) hsame
  exact absurd hstages (by decide +kernel)

end Sys2Proof.Laws
